-- ==== Sys2Proof/Word.lean ====
section
/-! DEFINITION. The word types of the Lemkor package and the type of a sparse map: plain data that every other
file of the model is written over. -/

namespace Sys2Proof

/-- One byte of a bank, of host memory or of a frame. -/
abbrev Byte := BitVec 8

/-- A 16-bit field. -/
abbrev W16 := BitVec 16

/-- A register of a register page (R887) is 32 bits wide. -/
abbrev W32 := BitVec 32

/-- The data part of a flit, and a bank word, are 64 bits wide (R94, R496). -/
abbrev W64 := BitVec 64

/-- A flit: 64 data bits in [63:0] and 8 check bits in [71:64] (R94). -/
abbrev Flit := BitVec 72

/-- A sparse map from a number to a value: a list of entries with strictly rising keys that lists no entry equal
to what an unlisted key reads as. What an unlisted key reads as is said by the operations of Machine/Maps.lean. -/
abbrev Map (α : Type) := List (Nat × α)

end Sys2Proof
end

