-- ==== Sys2Proof/Syntax.lean ====
section
/-! DEFINITION. The commands the machine takes from outside, one constructor per row of the opcode table. The table
gives its rows no operand fields and no bits; the operands here are what the rules of each row make the outside
supply: the entry, context, pasture, tile or link meant, the authority class of the access, the words of a message,
the bytes of a frame, and what the physical world shows at that moment (a temperature, a failed lane, a verify). -/

namespace Sys2Proof

/-- The authority class that a port of arrival gives a request (R100). -/
inductive Origin
  | internal | stream | host | operator | test
  deriving DecidableEq, Repr

/-- A scoreboard entry, 0–511 (R358). -/
abbrev EntryId := Fin 512
/-- A pasture identifier, 10 bits (R40). -/
abbrev PastureId := Fin 1024
/-- A compute die (R30). -/
abbrev DieId := Fin 4
/-- A tile index t = 16·y + x (R14). -/
abbrev TileId := Fin 256
/-- A queue context (R36). -/
abbrev CtxId := Fin 4096
/-- A router port in the order N, E, S, W, L, V (R156). -/
abbrev PortId := Fin 6
/-- A rack link in the order X+, X−, Y+, Y−, Z+, Z− (R35). -/
abbrev LinkId := Fin 6
/-- A page of the package view, numbered by address / 4,096 (R883). -/
abbrev PageId := Fin 8192
/-- A power domain number (R582). -/
abbrev DomainId := Fin 1024

/-- Where a SYNC operation is aimed and by whom (R123, R151, R363): the object, the operand, the class, and the
sending pasture where a pasture's message carries it. -/
structure SyncOp where
  /-- none: the muster unit; some: the tile whose local counter is meant. -/
  tile : Option (DieId × TileId)
  origin : Origin
  sender : Option PastureId
  object : BitVec 14
  operand : BitVec 16
  deriving DecidableEq, Repr

/-- The port by which a register access enters (R49, R797); a write to BAR0 may arrive poisoned (R679). -/
inductive AccessPort
  | bar0 | mesh | frame | tap | bar0Poisoned
  deriving DecidableEq, Repr

/-- The transport of a management frame (R797, R798). -/
inductive Transport
  | smbus | mailbox
  deriving DecidableEq, Repr

/-- A management frame's tag and payload as it arrives (R799). -/
structure Frame where
  via : Transport
  tag : W16
  payload : List Byte
  deriving DecidableEq, Repr

/-- The memory that a bank event names: a tile's bank, the commons bank, the Crook bank or a sensor port's stream
buffer (R495). -/
inductive BankKey
  | tile (d : DieId) (t : TileId)
  | commons
  | crook
  | stream (port : Fin 6)
  deriving DecidableEq, Repr

/-- A unit of the unit table in the layout of UNIT_SEL: die in [1:0], tile in [9:2], kind in [12:10] (R412, R881). -/
abbrev UnitKey := BitVec 13

/-- The four resets of the host gate (R620, R678). -/
inductive GateResetKind
  | perst | hotReset | linkDisable | flr
  deriving DecidableEq, Repr

/-- What came back for a DMA read (R679). -/
inductive DmaAnswer
  | ok | unsupported | completerAbort | poisoned
  deriving DecidableEq, Repr

/-- Why a CSI-2 receiver lost synchronisation (R709). -/
inductive SyncLossCause
  | deskew | hsSync | header | startOfTransmission
  deriving DecidableEq, Repr

/-- One base-die temperature sensor reading, in units of the sensor field, and its validity (R564). -/
structure SensorReading where
  temp : BitVec 12
  valid : Bool
  deriving DecidableEq, Repr

/-- The data bytes of a PMBus write: none for a read (R783, R784). -/
abbrev PmData := Option (List Byte)

/-- The commands of the opcode table. -/
inductive Instr
  -- scoreboard commands (chapters 9 and 10): the entry of the scoreboard that runs
  | nop (e : EntryId)
  | syncCfg (e : EntryId)
  | hold (e : EntryId)
  | release (e : EntryId)
  | abort (e : EntryId)
  | shift (e : EntryId)
  | unload (e : EntryId)
  | testUnit (e : EntryId) (fails : BitVec 5)
  | setDomain (e : EntryId)
  | setOpPoint (e : EntryId)
  | setProfile (e : EntryId)
  | run (e : EntryId)
  | inject (e : EntryId)
  | replayCheck (e : EntryId)
  | pass (e : EntryId)
  | ladder (e : EntryId)
  | copy (e : EntryId)
  | load (e : EntryId)
  | pageOut (e : EntryId)
  | pageIn (e : EntryId)
  | checkpoint (e : EntryId)
  | restore (e : EntryId)
  | nvSave (e : EntryId)
  | nvLoad (e : EntryId)
  -- queue contexts (chapter 9)
  | sqPi (ctx : CtxId) (value : W32)
  | cqCi (ctx : CtxId) (value : W32)
  | remoteDbVal (o : Origin) (value : W32)
  | fetch
  | completionRecordWrite (e : EntryId)
  | modDelay (ctx : CtxId)
  | enable (o : Origin)
  | stop (o : Origin)
  | resume (o : Origin)
  | disable (o : Origin)
  | add (m : SyncOp)
  | set (m : SyncOp)
  | objCfg (o : Origin) (value : W32)
  | poolGrant (pool : Fin 3)
  | commandShare (hdr : W64) (words : List W64)
  -- tile orders (chapter 4)
  | torderNop (d : DieId) (t : TileId) (hdr : W64) (words : List W64)
  | runChain (d : DieId) (t : TileId) (hdr : W64) (words : List W64)
  | clear (d : DieId) (t : TileId) (hdr : W64) (words : List W64) (readBackFails : Bool)
  | test (d : DieId) (t : TileId) (hdr : W64) (words : List W64) (fails : BitVec 5)
  | torderReset (d : DieId) (t : TileId) (hdr : W64) (words : List W64)
  -- messages at their receiver (chapter 3)
  | axon (p : PastureId) (d : DieId) (t : TileId) (hdr : W64)
  | flock (d : DieId) (t : TileId) (input : PortId) (hdr mask : W64)
  | tally (p : PastureId) (d : DieId) (t : TileId) (hdr : W64)
  | bankWrite (sender : Option PastureId) (hdr : W64) (words : List W64)
  | registerWrite (port : AccessPort) (o : Origin) (addr : BitVec 25) (vals : List W32)
  | readReq (hdr w2 : W64)
  | readResp (hdr : W64) (words : List W64)
  | completion (hdr w0 w1 : W64)
  | trace (hdr datum : W64)
  | exchange (hdr w2 : W64)
  | portEgress (p : PastureId) (d : DieId) (t : TileId) (hdr : W64)
  | digestIn (o : Origin) (v0 v1 v2 v3 : W32)
  -- the mesh and the round (chapters 2 and 4)
  | droveEntry (d : DieId) (t : TileId) (out : PortId)
  | close (d : DieId) (t : TileId) (input : PortId)
  | pacerTick (p : PastureId)
  | roundStart (p : PastureId)
  | spike (p : PastureId) (d : DieId) (t : TileId)
  | lapStart (p : PastureId) (d : DieId) (t : TileId)
  | lapVote (p : PastureId)
  | integrate (p : PastureId) (d : DieId) (t : TileId)
  | learn (p : PastureId) (d : DieId) (t : TileId)
  | musterArrive (p : PastureId) (d : DieId) (t : TileId)
  | musterComplete (p : PastureId)
  | freeLadderStep (ladder : Fin 64)
  | holdExpiry (p : PastureId)
  | stallFreeze (p : PastureId)
  -- register actions (chapters 4 and 22)
  | take (o : Origin) (d : DieId) (t : TileId)
  | thaw (o : Origin) (d : DieId) (t : TileId)
  | hwClear (o : Origin) (d : DieId) (t : TileId)
  | droveData (o : Origin) (d : DieId) (t : TileId)
  | timeLoRead (o : Origin)
  | countClear (o : Origin) (pg : PageId) (off : BitVec 12) (value : W32)
  | lock (o : Origin) (pg : PageId) (value : W32)
  | faultClear (o : Origin) (pg : PageId) (value : W32)
  | ceClear (o : Origin) (pg : PageId) (value : W32)
  | blkEventClear (o : Origin) (pg : PageId) (value hwBits : W32)
  | blkEventForce (o : Origin) (pg : PageId) (value : W32)
  -- tensor cores (chapter 7)
  | windowWaitMet (d : DieId) (t : TileId)
  | windowWaitTimeout (d : DieId) (t : TileId)
  -- power, stack and time (chapters 13 and 14)
  | domReq (o : Origin) (value : W32)
  | drainEnd (dom : DomainId)
  | drainTimeout (dom : DomainId)
  | coreIdle (d : DieId) (t : TileId)
  | routerIdle (d : DieId) (t : TileId)
  | powerCapSample (mw0 mw1 mw2 mw3 : W32)
  | throttleSample (s : List SensorReading)
  | tripClear (o : Origin) (value : W32)
  | voltageStep (d : DieId)
  | laneCheckDue (d : DieId) (port : Fin 16)
  | laneCheck (d : DieId) (port : Fin 16) (upFails downFails : BitVec 76) (railFails : BitVec 12)
  | regFault (d : DieId)
  | handshakeFail (d : DieId)
  | padsRelease (o : Origin) (value : W32)
  | wakeDetect (src : Fin 16)
  | routeSlotStart (src : Fin 16)
  | alarm (k : Fin 2)
  | setCtrlLoad (o : Origin)
  | rtcLock
  | xtalFail
  -- resets (chapter 15)
  | powerOnReset
  | porNAssert
  | porNRelease (profilePins : BitVec 2)
  | brownout
  | pkgReset (o : Origin) (value : W32)
  | dieReset (o : Origin) (value : W32)
  | tileReset (o : Origin) (value : W32)
  -- the host gate (chapter 16)
  | gateReset (kind : GateResetKind)
  | configRequest (function : BitVec 3) (offset : BitVec 12) (write : Bool) (value : W32)
  | machineWindowAccess (write : Bool) (addr : BitVec 25) (vals : List W32)
  | gateLinkDown
  | gateLinkUp (width : BitVec 2) (speed : BitVec 3)
  | dmaCompletion (e : EntryId) (answer : DmaAnswer)
  | dmaCompletionTimeout (e : EntryId)
  | msixUnmask (vector : Fin 2048) (addr : W64) (data : W32) (mask : Bool)
  | egressRecordWrite (ring : Fin 64)
  | eringCi (o : Origin) (value : W32)
  | traceCi (o : Origin) (value : W32)
  -- sensor ports (chapter 17)
  | eventPacket (csi : DieId) (vc : BitVec 4) (dt : BitVec 6) (payload : List Byte) (crcOk : Bool) (ce : Bool)
  | otherPacket (csi : DieId) (vc : BitVec 4) (dt : BitVec 6) (ce : Bool)
  | frameStart (csi : DieId) (vc : BitVec 4) (ce : Bool)
  | rawLine (csi : DieId) (vc : BitVec 4) (dt : BitVec 6) (payload : List Byte) (crcOk : Bool) (ce : Bool)
  | frameEnd (csi : DieId) (vc : BitVec 4) (ce : Bool)
  | aerHandshake (k : Fin 2) (data : BitVec 24)
  -- rack links (chapter 18)
  | dataFrame (link : LinkId) (frame : List Byte) (fecCorr fecUncorr : Byte)
  | idleFrame (link : LinkId) (frame : List Byte) (fecCorr fecUncorr : Byte)
  | idleFrameSend (link : LinkId)
  | hello (link : LinkId) (frame : List Byte) (fecCorr fecUncorr : Byte)
  | leave (link : LinkId) (frame : List Byte) (fecCorr fecUncorr : Byte)
  | ackTimeout (link : LinkId)
  | linkDown (link : LinkId)
  | holdExpired (link : LinkId)
  | bringup (link : LinkId)
  | bringupTimeout (link : LinkId)
  | whistleSend (o : Origin) (link : LinkId)
  | linkState (pkg : Fin 256) (ports : BitVec 6)
  -- the power shelf and POWER_STORM (chapter 19)
  | mainsLoss
  | handoverEnd (micros : W16)
  | qualifyComplete
  | rampEnd
  | reserve
  | cutoff
  | lockoutClear
  | powerStorm
  | powerCalm
  -- banks and the NV store (chapter 12)
  | shelterStart (o : Origin)
  | nvPageWrite (verifyOk retryOk : Bool)
  | scrubVisit (key : BankKey)
  | shear (key : BankKey) (marchPasses : Bool)
  -- field reliability (chapter 21)
  | testDue (u : UnitKey) (fails : BitVec 5)
  | deferLimit (u : UnitKey)
  | deferRetry (u : UnitKey) (fails : BitVec 5)
  | placementRetry (e : EntryId)
  | viewSweep
  | unitReturn (o : Origin) (value : W32) (fails : BitVec 5)
  | reconcile (o : Origin) (value : W32)
  | restart (p : PastureId)
  | logWrite (p : PastureId)
  -- management frames (chapter 20)
  | identGet (f : Frame)
  | regRead (f : Frame)
  | regWrite (f : Frame)
  | submit (f : Frame)
  | profileRead (f : Frame)
  | profileStage (f : Frame)
  | profileCommit (f : Frame)
  | fwBegin (f : Frame)
  | fwData (f : Frame)
  | fwEnd (f : Frame)
  | fwCommit (f : Frame)
  | fwSessionIdle
  | debugChallenge (f : Frame)
  | debugUnlock (f : Frame)
  | debugClose (f : Frame)
  | dbgCtrlClose (o : Origin)
  | debugExpiry
  | auditRead (f : Frame)
  | auditAck (f : Frame)
  | mapRead (f : Frame)
  | notice (f : Frame)
  | responseRead
  | mboxTake (o : Origin)
  -- sled controller and rack manager (chapters 19 and 20)
  | toPackage (seq : W32) (slot : DieId) (frame : List Byte)
  | bridgeRetry (seq : W32)
  | setProfilePins (seq : W32) (slot : DieId) (pins : BitVec 2)
  | powerOn (seq : W32) (slot : DieId)
  | powerOff (seq : W32) (slot : DieId)
  | sledNotice (seq : W32) (storm : Bool)
  | stateGet (seq : W32)
  | enumeration
  | sledPowerUp
  -- PMBus commands of the power shelf (chapter 19)
  | page (w : PmData)
  | operation (w : PmData)
  | clearFaults
  | capability (w : PmData)
  | voutMode (w : PmData)
  | statusByte (w : PmData)
  | statusWord (w : PmData)
  | statusVout (w : PmData)
  | statusIout (w : PmData)
  | statusInput (w : PmData)
  | statusTemperature (w : PmData)
  | statusCml (w : PmData)
  | readVin (w : PmData)
  | readIin (w : PmData)
  | readVout (w : PmData)
  | readIout (w : PmData)
  | readTemperature1 (w : PmData)
  | readPout (w : PmData)
  | readPin (w : PmData)
  | pmbusRevision (w : PmData)
  | mfrId (w : PmData)
  | mfrModel (w : PmData)
  | mfrShelfState (w : PmData)
  | mfrShelfEvents (w : PmData)
  | mfrBattSoc (w : PmData)
  | mfrBattHoldup (w : PmData)
  | mfrReturnQualify (w : PmData)
  | mfrReserveLevel (w : PmData)
  | mfrCutoffLevel (w : PmData)
  | mfrBattHealth (w : PmData)
  | mfrHandoverTime (w : PmData)
  | mfrReturnLog (w : PmData)
  | mfrStormCount (w : PmData)
  | mfrTestHandover (w : PmData)
  -- the test access port (chapter 23)
  | extest (tdi : BitVec 73) (padsIn : BitVec 73)
  | idcode
  | samplePreload (tdi : BitVec 73) (padsIn : BitVec 73)
  | clamp
  | bypass (tdi : Bool)
  -- register reads, the debug aperture and the remaining events
  | registerRead (port : AccessPort) (o : Origin) (addr : BitVec 25) (n : Fin 64)
  | debugApertureAccess (write : Bool) (offset : BitVec 27) (vals : List W32)
  | wakingEnd (dom : DomainId)
  | railRecovery (profilePins : BitVec 2)
  | dieTrip (d : DieId)
  | syncLost (csi : DieId) (cause : SyncLossCause)
  | hsSync (csi : DieId) (rate : Byte) (deskew : Bool)
  | reqLow (k : Fin 2)
  | mainsReturn
  | handoverTestEnd
  deriving DecidableEq, Repr

end Sys2Proof
end

