-- ==== Sys2Proof/Config.lean ====
section
/-! DEFINITION. What the spec leaves to each part or leaves open: constants without a body, so that no proof can see
their value. A free value is applied to the counter `free` of the state, which the step reads and advances. -/

namespace Sys2Proof.Config

/-- The CHALLENGE that the Crook draws from its entropy source (R812); assumption 9. -/
opaque freeChallenge : Nat → W64

/-- A duration of the boot or of a profile's application, in ms or µs, bounded where the spec bounds it (R635); assumption
33. -/
opaque freeDuration : Nat → W16

/-- A measured value of the power shelf, by draw, command code and page (R783); assumption 10. -/
opaque freeReading : Nat → Nat → Nat → W16

/-- PCI Express Vendor ID and Device ID, the maker's choice (R648); assumption 11. -/
opaque vendorId : W16
opaque deviceId : W16

/-- JEP106 identity code and part number of the identification register (R938); assumption 11. -/
opaque jep106 : BitVec 11
opaque partNumber : W16

/-- Which of its tests a unit fails when a plain register write of UNIT_CMD starts them, by draw (R863); assumption 38. -/
opaque freeTest : Nat → BitVec 5

/-- How many rounds of a replay check match for a pasture that spans packages, whose other parts the model does not hold,
by draw (R425); assumption 40. -/
opaque freeReplay : Nat → W32

/-- MFR_ID and MFR_MODEL bytes (R783); assumption 11. -/
opaque mfrId : List Byte
opaque mfrModel : List Byte

end Sys2Proof.Config
end

