-- ==== Sys2Proof/Machine/Maps.lean ====
section
/-! DEFINITION. Operations on sparse maps in one canonical form: keys strictly rising, and no listed entry equal to
the default of its key. Every memory, bank, register page and table of the machine is such a map. -/

namespace Sys2Proof.Machine

variable {α : Type}

/-- The value at key `k`; an unlisted key reads as `d k`. -/
def mapGet (d : Nat → α) : Map α → Nat → α
  | [], k => d k
  | (j, v) :: m, k => if j = k then v else mapGet d m k

/-- The map with key `k` unlisted. -/
def mapErase : Map α → Nat → Map α
  | [], _ => []
  | (j, v) :: m, k => if j = k then mapErase m k else (j, v) :: mapErase m k

/-- The map with key `k` listed as `v`, in key order. -/
def mapInsert : Map α → Nat → α → Map α
  | [], k, v => [(k, v)]
  | (j, w) :: m, k, v =>
    if k < j then (k, v) :: (j, w) :: m
    else if j = k then (k, v) :: m
    else (j, w) :: mapInsert m k v

/-- Writing `v` at `k`: a value equal to the default of `k` removes the entry, so equal maps are equal lists. -/
def mapSet [DecidableEq α] (d : Nat → α) (m : Map α) (k : Nat) (v : α) : Map α :=
  if v = d k then mapErase m k else mapInsert m k v

/-- The value at `k` replaced by `f` of it. -/
def mapUpd [DecidableEq α] (d : Nat → α) (m : Map α) (k : Nat) (f : α → α) : Map α :=
  mapSet d m k (f (mapGet d m k))

/-- The keys of a map rise strictly, each above `lo` when `lo` is given. -/
def mapSorted : Option Nat → Map α → Bool
  | _, [] => true
  | none, (k, _) :: m => mapSorted (some k) m
  | some lo, (k, _) :: m => decide (lo < k) && mapSorted (some k) m

/-- The canonical form of a map. -/
def mapWf [DecidableEq α] (d : Nat → α) (m : Map α) : Bool :=
  mapSorted none m && m.all (fun e => decide (e.2 ≠ d e.1))

/-- The entries of a map whose key satisfies `p` are dropped: those keys read as their default again. -/
def mapDrop (p : Nat → Bool) (m : Map α) : Map α :=
  m.filter (fun e => !p e.1)

/-- `x` put before the first element of `l` that it may stand before. -/
def insertBy {β : Type} (le : β → β → Bool) (x : β) : List β → List β
  | [] => [x]
  | y :: l => if le x y then x :: y :: l else y :: insertBy le x l

/-- A list in the order `le`; elements that `le` does not tell apart keep their order. -/
def sortBy {β : Type} (le : β → β → Bool) (l : List β) : List β := l.foldr (insertBy le) []

/-- Numbers in rising order. -/
def sortNats (l : List Nat) : List Nat := sortBy (fun a b => decide (a ≤ b)) l

end Sys2Proof.Machine
end

