-- ==== Sys2Proof/Machine/Bits.lean ====
section
/-! DEFINITION. Bit fields, sign extension, byte order and clamps: the arithmetic helpers of every other file.
Numbers are `Nat` or `Int`, computed exactly and narrowed at the end; multi-byte fields are little-endian (R15). -/

namespace Sys2Proof.Machine

/-- Bits [hi:lo] of `n`. -/
def bits (n hi lo : Nat) : Nat := (n >>> lo) % 2 ^ (hi + 1 - lo)

/-- Bit `i` of `n`. -/
def bit (n i : Nat) : Bool := (n >>> i) % 2 == 1

/-- 1 for true, 0 for false. -/
def b2n (b : Bool) : Nat := if b then 1 else 0

/-- `n` with bits [hi:lo] replaced by the low bits of `v`. -/
def setBits (n hi lo v : Nat) : Nat :=
  let m := (2 ^ (hi + 1 - lo) - 1) <<< lo
  n - (n &&& m) + ((v <<< lo) &&& m)

/-- The `w`-bit pattern `n` read as a two's-complement integer. -/
def sext (w n : Nat) : Int :=
  let r := n % 2 ^ w
  if r < 2 ^ (w - 1) then (r : Int) else (r : Int) - (2 ^ w : Nat)

/-- The two's-complement pattern of `i` in `w` bits. -/
def unsext (w : Nat) (i : Int) : Nat := (i % ((2 ^ w : Nat) : Int)).toNat

/-- `i` clamped to lo … hi. -/
def clampI (lo hi i : Int) : Int := if i < lo then lo else if hi < i then hi else i

/-- `sat16` of R213. -/
def sat16 (i : Int) : Int := clampI (-32768) 32767 i

/-- Arithmetic right shift, toward minus infinity (R213). -/
def asr (i : Int) (s : Nat) : Int := Int.fdiv i ((2 ^ s : Nat) : Int)

/-- `i` / 2^s rounded to the nearest integer, ties to even (R214, R248). -/
def rne (i : Int) (s : Nat) : Int :=
  let q := asr i s
  let r := i - q * ((2 ^ s : Nat) : Int)
  if 2 * r > ((2 ^ s : Nat) : Int) then q + 1
  else if 2 * r = ((2 ^ s : Nat) : Int) && q % 2 != 0 then q + 1 else q

/-- The number whose little-endian bytes are `l`. -/
def leNat : List Byte → Nat
  | [] => 0
  | b :: l => b.toNat + 256 * leNat l

/-- The `n` little-endian bytes of `v`. -/
def natLe : Nat → Nat → List Byte
  | 0, _ => []
  | n + 1, v => BitVec.ofNat 8 v :: natLe n (v / 256)

/-- `n` consecutive elements of `l` from position `i`, short at the end. -/
def slice {α : Type} (l : List α) (i n : Nat) : List α := (l.drop i).take n

/-- Bytes i … i+n−1 of `l` as a little-endian number; bytes beyond the end count as 0. -/
def leAt (l : List Byte) (i n : Nat) : Nat := leNat (slice l i n)

/-- `l` with element `i` replaced by `v`; unchanged when `i` is beyond the end. -/
def listSet {α : Type} : List α → Nat → α → List α
  | [], _, _ => []
  | _ :: l, 0, v => v :: l
  | a :: l, i + 1, v => a :: listSet l i v

/-- Element `i` of `l`, or `d`. -/
def nth {α : Type} (d : α) : List α → Nat → α
  | [], _ => d
  | a :: _, 0 => a
  | _ :: l, i + 1 => nth d l i

/-- 0, 1, …, n−1. -/
def upto (n : Nat) : List Nat := List.range n

/-- `f` applied `n` times. -/
def iter {α : Type} (f : α → α) : Nat → α → α
  | 0, a => a
  | n + 1, a => iter f n (f a)

/-- `f` applied at most `n` times, stopping at the first `none`. -/
def iterOpt {α : Type} (f : α → Option α) : Nat → α → α
  | 0, a => a
  | n + 1, a => match f a with
    | none => a
    | some b => iterOpt f n b

/-- ⌈a / b⌉. -/
def ceilDiv (a b : Nat) : Nat := (a + b - 1) / b

/-- Saturating addition of `k` to a counter of `w` bits. -/
def satAdd (w n k : Nat) : Nat := min (2 ^ w - 1) (n + k)

/-- (a − b) modulo m for a, b below m. -/
def subMod (m a b : Nat) : Nat := (a % m + m - b % m) % m

/-- The number of bits of `n` that are 1, among the low `w`. -/
def popcount (w n : Nat) : Nat := ((upto w).filter (fun i => bit n i)).length

/-- The 32-bit words of `l`, low half first, of a list of 64-bit words. -/
def splitWords (l : List W64) : List Nat :=
  l.flatMap (fun w => [w.toNat % 2 ^ 32, w.toNat / 2 ^ 32])

/-- The bytes of a list of 64-bit words. -/
def wordBytes (l : List W64) : List Byte := l.flatMap (fun w => natLe 8 w.toNat)

/-- Bytes grouped into 64-bit words, the last one padded with zeros; `n` words. -/
def bytesWords : Nat → List Byte → List W64
  | 0, _ => []
  | n + 1, l => BitVec.ofNat 64 (leAt l 0 8) :: bytesWords n (l.drop 8)

end Sys2Proof.Machine
end

