-- ==== Sys2Proof/Machine/Crypto.lean ====
section
/-! DEFINITION. The cryptography that the spec names by standard: SHA-512 of FIPS 180-4 (R806) and the verification of
Ed25519 signatures of RFC 8032 (R806, R811). Both standards are taken from outside the spec (PRESUMED, assumption 32). -/

namespace Sys2Proof.Machine

/-! ### SHA-512 -/

/-- Constants 0 to 15 of FIPS 180-4, section 4.2.3. -/
def shaK0 : List Nat :=
  [0x428a2f98d728ae22, 0x7137449123ef65cd, 0xb5c0fbcfec4d3b2f, 0xe9b5dba58189dbbc,
   0x3956c25bf348b538, 0x59f111f1b605d019, 0x923f82a4af194f9b, 0xab1c5ed5da6d8118,
   0xd807aa98a3030242, 0x12835b0145706fbe, 0x243185be4ee4b28c, 0x550c7dc3d5ffb4e2,
   0x72be5d74f27b896f, 0x80deb1fe3b1696b1, 0x9bdc06a725c71235, 0xc19bf174cf692694]

/-- Constants 16 to 31 of FIPS 180-4, section 4.2.3. -/
def shaK1 : List Nat :=
  [0xe49b69c19ef14ad2, 0xefbe4786384f25e3, 0x0fc19dc68b8cd5b5, 0x240ca1cc77ac9c65,
   0x2de92c6f592b0275, 0x4a7484aa6ea6e483, 0x5cb0a9dcbd41fbd4, 0x76f988da831153b5,
   0x983e5152ee66dfab, 0xa831c66d2db43210, 0xb00327c898fb213f, 0xbf597fc7beef0ee4,
   0xc6e00bf33da88fc2, 0xd5a79147930aa725, 0x06ca6351e003826f, 0x142929670a0e6e70]

/-- Constants 32 to 47 of FIPS 180-4, section 4.2.3. -/
def shaK2 : List Nat :=
  [0x27b70a8546d22ffc, 0x2e1b21385c26c926, 0x4d2c6dfc5ac42aed, 0x53380d139d95b3df,
   0x650a73548baf63de, 0x766a0abb3c77b2a8, 0x81c2c92e47edaee6, 0x92722c851482353b,
   0xa2bfe8a14cf10364, 0xa81a664bbc423001, 0xc24b8b70d0f89791, 0xc76c51a30654be30,
   0xd192e819d6ef5218, 0xd69906245565a910, 0xf40e35855771202a, 0x106aa07032bbd1b8]

/-- Constants 48 to 63 of FIPS 180-4, section 4.2.3. -/
def shaK3 : List Nat :=
  [0x19a4c116b8d2d0c8, 0x1e376c085141ab53, 0x2748774cdf8eeb99, 0x34b0bcb5e19b48a8,
   0x391c0cb3c5c95a63, 0x4ed8aa4ae3418acb, 0x5b9cca4f7763e373, 0x682e6ff3d6b2b8a3,
   0x748f82ee5defb2fc, 0x78a5636f43172f60, 0x84c87814a1f0ab72, 0x8cc702081a6439ec,
   0x90befffa23631e28, 0xa4506cebde82bde9, 0xbef9a3f7b2c67915, 0xc67178f2e372532b]

/-- Constants 64 to 79 of FIPS 180-4, section 4.2.3. -/
def shaK4 : List Nat :=
  [0xca273eceea26619c, 0xd186b8c721c0c207, 0xeada7dd6cde0eb1e, 0xf57d4f7fee6ed178,
   0x06f067aa72176fba, 0x0a637dc5a2c898a6, 0x113f9804bef90dae, 0x1b710b35131c471b,
   0x28db77f523047d84, 0x32caab7b40c72493, 0x3c9ebe0a15c9bebc, 0x431d67c49c100d4c,
   0x4cc5d4becb3e42b6, 0x597f299cfc657e2a, 0x5fcb6fab3ad6faec, 0x6c44198c4a475817]

/-- The eighty round constants. -/
def shaK : List Nat := shaK0 ++ shaK1 ++ shaK2 ++ shaK3 ++ shaK4

/-- The initial hash value of FIPS 180-4, section 5.3.5. -/
def shaH : List Nat :=
  [0x6a09e667f3bcc908, 0xbb67ae8584caa73b, 0x3c6ef372fe94f82b, 0xa54ff53a5f1d36f1,
   0x510e527fade682d1, 0x9b05688c2b3e6c1f, 0x1f83d9abfb41bd6b, 0x5be0cd19137e2179]

/-- Rotation right of a 64-bit word. -/
def ror64 (n s : Nat) : Nat := (n >>> s ||| n <<< (64 - s)) % 2 ^ 64

/-- The four mixing functions of section 4.1.3. -/
def bigSigma0 (x : Nat) : Nat := ror64 x 28 ^^^ ror64 x 34 ^^^ ror64 x 39
def bigSigma1 (x : Nat) : Nat := ror64 x 14 ^^^ ror64 x 18 ^^^ ror64 x 41
def smallSigma0 (x : Nat) : Nat := ror64 x 1 ^^^ ror64 x 8 ^^^ x >>> 7
def smallSigma1 (x : Nat) : Nat := ror64 x 19 ^^^ ror64 x 61 ^^^ x >>> 6

/-- The message schedule, newest word first: `n` more words after the sixteen of the block. -/
def shaSchedule : Nat → List Nat → List Nat
  | 0, w => w
  | n + 1, w =>
    let x := (smallSigma1 (nth 0 w 1) + nth 0 w 6 + smallSigma0 (nth 0 w 14) + nth 0 w 15) % 2 ^ 64
    shaSchedule n (x :: w)

/-- One round on the working variables a to h. -/
def shaRound (v : List Nat) (k w : Nat) : List Nat :=
  match v with
  | [a, b, c, d, e, f, g, h] =>
    let t1 := h + bigSigma1 e + ((e &&& f) ^^^ ((2 ^ 64 - 1 - e) &&& g)) + k + w
    let t2 := bigSigma0 a + ((a &&& b) ^^^ (a &&& c) ^^^ (b &&& c))
    [(t1 + t2) % 2 ^ 64, a, b, c, (d + t1) % 2 ^ 64, e, f, g]
  | _ => v

/-- The rounds of one block. -/
def shaRounds : List Nat → List Nat → List Nat → List Nat
  | k :: ks, w :: ws, v => shaRounds ks ws (shaRound v k w)
  | _, _, v => v

/-- A big-endian value of bytes. -/
def beNat (l : List Byte) : Nat := leNat l.reverse

/-- The hash value after one block of 128 bytes. -/
def shaBlock (h : List Nat) (b : List Byte) : List Nat :=
  let w := (upto 16).map (fun i => beNat (slice b (8 * i) 8))
  let v := shaRounds shaK (shaSchedule 64 w.reverse).reverse h
  (upto 8).map (fun i => (nth 0 h i + nth 0 v i) % 2 ^ 64)

/-- The hash value after `n` blocks. -/
def shaBlocks : Nat → List Byte → List Nat → List Nat
  | 0, _, h => h
  | n + 1, l, h => shaBlocks n (l.drop 128) (shaBlock h (l.take 128))

/-- The SHA-512 digest, 64 bytes. -/
def sha512 (l : List Byte) : List Byte :=
  let n := l.length
  let pad := (2 * 128 - 17 - n % 128) % 128
  let m := l ++ [0x80] ++ List.replicate pad 0 ++ (natLe 16 (8 * n)).reverse
  (shaBlocks (m.length / 128) m shaH).flatMap (fun x => (natLe 8 x).reverse)

/-! ### Ed25519 -/

/-- The field prime 2^255 - 19, the curve constant d and the group order L of RFC 8032, section 5.1. -/
def edP : Nat := 2 ^ 255 - 19
def edD : Nat := 37095705934669439343138083508754565189542113879843219016388785533085940283555
def edL : Nat := 2 ^ 252 + 27742317777372353535851937790883648493

/-- A power modulo the field prime, over `n` bits of the exponent. -/
def edPow (b e : Nat) : Nat → Nat
  | 0 => 1
  | n + 1 =>
    let r := edPow b (e / 2) n
    let s := r * r % edP
    if e % 2 = 1 then s * b % edP else s

/-- A point in extended coordinates. -/
structure EdPoint where
  x : Nat
  y : Nat
  z : Nat
  t : Nat
  deriving DecidableEq, Repr

/-- The neutral point. -/
def edZero : EdPoint := { x := 0, y := 1, z := 1, t := 0 }

/-- Addition of points (RFC 8032, section 5.1.4). -/
def EdPoint.add (p q : EdPoint) : EdPoint :=
  let a := (p.y + edP - p.x) * (q.y + edP - q.x) % edP
  let b := (p.y + p.x) * (q.y + q.x) % edP
  let c := 2 * p.t % edP * q.t % edP * edD % edP
  let d := 2 * p.z * q.z % edP
  let e := (b + edP - a) % edP
  let f := (d + edP - c) % edP
  let g := (d + c) % edP
  let h := (b + a) % edP
  { x := e * f % edP, y := g * h % edP, z := f * g % edP, t := e * h % edP }

/-- A scalar multiple, over `n` bits of the scalar. -/
def EdPoint.mul (p : EdPoint) (s : Nat) : Nat → EdPoint
  | 0 => edZero
  | n + 1 =>
    let r := p.mul (s / 2) n
    let d := r.add r
    if s % 2 = 1 then d.add p else d

/-- The inverse in the field. -/
def edInv (a : Nat) : Nat := edPow a (edP - 2) 255

/-- The point that 32 bytes encode (RFC 8032, section 5.1.3). -/
def edDecode (b : List Byte) : Option EdPoint :=
  let v := leNat b
  let y := v % 2 ^ 255
  let sign := v / 2 ^ 255
  if edP ≤ y then none
  else
    let u := (y * y + edP - 1) % edP
    let w := (edD * y % edP * y + 1) % edP
    let xx := u * edInv w % edP
    let r := edPow xx ((edP + 3) / 8) 253
    let r := if r * r % edP = xx then r else r * edPow 2 ((edP - 1) / 4) 254 % edP
    if r * r % edP ≠ xx then none
    else if r = 0 && sign = 1 then none
    else
      let x := if r % 2 = sign then r else edP - r
      some { x := x, y := y, z := 1, t := x * y % edP }

/-- The 32 bytes that encode a point (RFC 8032, section 5.1.2). -/
def EdPoint.encode (p : EdPoint) : List Byte :=
  let i := edInv p.z
  let x := p.x * i % edP
  let y := p.y * i % edP
  natLe 32 (y + x % 2 * 2 ^ 255)

/-- The base point. -/
def edBase : EdPoint :=
  let x := 15112221349535400772501151409588531511454012693041857206046113283949847762202
  let y := 46316835694926478169428394003475163141307993866256225615783033603165251855960
  { x := x, y := y, z := 1, t := x * y % edP }

/-- Signature `sig` of `msg` verifies with public key `key` (RFC 8032, section 5.1.7). -/
def edVerify (key msg sig : List Byte) : Bool :=
  let rb := slice sig 0 32
  let s := leNat (slice sig 32 32)
  match edDecode key, edDecode rb with
  | some a, some _ =>
    if edL ≤ s || sig.length ≠ 64 || key.length ≠ 32 then false
    else
      let k := leNat (sha512 (rb ++ key ++ msg)) % edL
      let na : EdPoint := { x := (edP - a.x) % edP, y := a.y, z := a.z, t := (edP - a.t) % edP }
      ((edBase.mul s 253).add (na.mul k 253)).encode == rb
  | _, _ => false

end Sys2Proof.Machine
end

