-- ==== Sys2Proof/Machine/Crc.lean ====
section
/-! DEFINITION. CRC-32C with the parameters of RFC 3720 (R523), used by NV pages, round digests, frames and images;
and the CRC-16 of CSI-2 packets is not computed here: whether a packet's CRC passes comes with the packet. -/

namespace Sys2Proof.Machine

/-- One step of the reflected register of polynomial 0x1EDC6F41 (reflected 0x82F63B78). -/
def crcBit (c : Nat) : Nat := if c % 2 = 1 then (c / 2) ^^^ 0x82F63B78 else c / 2

/-- The register after one byte. -/
def crcByte (c : Nat) (b : Byte) : Nat := iter crcBit 8 (c ^^^ b.toNat)

/-- The register after a list of bytes. -/
def crcBytes : Nat → List Byte → Nat
  | c, [] => c
  | c, b :: l => crcBytes (crcByte c b) l

/-- The initial register value. -/
def crcInit : Nat := 0xFFFFFFFF

/-- The final value of a register. -/
def crcFinal (c : Nat) : Nat := c ^^^ 0xFFFFFFFF

/-- CRC-32C of a list of bytes (R523). -/
def crc32c (l : List Byte) : Nat := crcFinal (crcBytes crcInit l)

end Sys2Proof.Machine
end

