-- ==== Sys2Proof/Machine/Ecc.lean ====
section
/-! DEFINITION. The SECDED (72,64) code of every bank word and every flit (R501–R503). -/

namespace Sys2Proof.Machine

/-- `pos(j)`: the (j+1)-th integer in 3..71 that is not a power of two (R501). -/
def eccPos (j : Nat) : Nat :=
  if j < 1 then 3
  else if j < 4 then j + 4
  else if j < 11 then j + 5
  else if j < 26 then j + 6
  else if j < 57 then j + 7
  else j + 8

/-- The XOR of `pos(j)` over the set bits j, below `n`, of `d`. -/
def eccFold : Nat → Nat → Nat
  | 0, _ => 0
  | n + 1, d => (if bit d n then eccPos n else 0) ^^^ eccFold n d

/-- The parity of the low `n` bits of `d`. -/
def parity : Nat → Nat → Nat
  | 0, _ => 0
  | n + 1, d => ((d >>> n) % 2 + parity n d) % 2

/-- The check byte of a 64-bit data word (R501). -/
def eccCheck (d : Nat) : Nat :=
  let c := eccFold 64 d
  let p := (parity 64 d + parity 7 c) % 2
  p * 128 + c

/-- The classes of R503. -/
inductive EccClass
  | clean
  | check
  | data (j : Nat)
  | uncorrectable
  deriving DecidableEq, Repr

/-- The data bit that a syndrome names, if any. -/
def eccBitOf (s : Nat) : Option Nat := (upto 64).find? (fun j => eccPos j == s)

/-- The class of a stored word of data `d` and check byte `k` (R503). -/
def eccClass (d k : Nat) : EccClass :=
  let s := eccFold 64 d ^^^ (k % 128)
  let q := (parity 64 d + parity 8 k) % 2
  if q = 0 then (if s = 0 then .clean else .uncorrectable)
  else if s = 0 then .check
  else if (upto 7).any (fun i => s == 2 ^ i) then .check
  else match eccBitOf s with
    | some j => .data j
    | none => .uncorrectable

/-- `d` with data bit `j` flipped. -/
def flipBit (d j : Nat) : Nat := d ^^^ 2 ^ j

/-- A flit of data `d` with fresh check bits (R94, R95). -/
def mkFlit (d : Nat) : Flit := BitVec.ofNat 72 (d % 2 ^ 64 + eccCheck (d % 2 ^ 64) * 2 ^ 64)

/-- A flit as a router takes it in: its class and its corrected data; no data when uncorrectable (R95, R140). -/
def readFlit (f : Flit) : EccClass × Option Nat :=
  let d := f.toNat % 2 ^ 64
  let k := f.toNat / 2 ^ 64
  match eccClass d k with
  | .clean => (.clean, some d)
  | .check => (.check, some d)
  | .data j => (.data j, some (flipBit d j))
  | .uncorrectable => (.uncorrectable, none)

end Sys2Proof.Machine
end

