-- ==== Sys2Proof/Machine/Types.lean ====
section
/-! DEFINITION. The parts of the state, as plain data: register pages, tiles with their routers, queues, cores and
banks, queue contexts, the scoreboard, sync objects, pastures, units and ladders. The remaining parts stand in
Machine/Types2.lean, and State itself in Machine/State.lean. A register of a register page lives in its page under its
offset; what the registers of a page are, with their reset values, is said in Machine/RegTable.lean. Every other piece
of state is a named field. -/

namespace Sys2Proof.Machine

/-- A byte-addressed memory: an unlisted address reads 0 (assumption 2). A bank keeps its 72-bit words here, word w
at addresses 9·w … 9·w+7 (data) and 9·w+8 (check byte), so that an unlisted word is 0 with valid check bits (R512). -/
abbrev Memory := List Host.Cell

/-! ### Register pages (chapter 22) -/

/-- A register page: the common header of R887 and the registers from offset 0x100. -/
structure Page where
  /-- The block identity code of R901 and R902; 0 for an absent page. -/
  code : Nat
  /-- BLK_EVENT. -/
  ev : W32
  /-- BLK_EVENT_EN. -/
  en : W32
  /-- BLK_FAULT.CODE; 0 when no fault is recorded. -/
  fault : Byte
  /-- BLK_FAULT.FURTHER. -/
  further : Byte
  /-- BLK_FAULT.CLASS. -/
  fclass : BitVec 4
  /-- BLK_FAULT_ADDR. -/
  faddr : W32
  /-- BLK_COUNT_CE. -/
  ce : W32
  /-- BLK_CTRL.LOCK. -/
  lock : Bool
  /-- BLK_AUTH.REFUSED. -/
  refused : Bool
  /-- BLK_AUTH.LAST_CLASS. -/
  lastClass : BitVec 4
  /-- CB_EVENT of the COMMONS page (R547); 0 elsewhere. -/
  ev2 : W32
  /-- CB_EVENT_EN of the COMMONS page; 0 elsewhere. -/
  en2 : W32
  /-- The registers from offset 0x100 that differ from their reset values. -/
  regs : Map W32
  deriving DecidableEq, Repr

/-! ### The router (chapter 4) -/

/-- One item of a router input's data buffer, in arrival order (R144). A message carries the set of its outputs that
have passed it already (R163). -/
inductive Item
  | msg (flits : List Flit) (passed : BitVec 6)
  | close
  deriving DecidableEq, Repr

/-- A list of consecutive drove entries (R147). -/
structure DroveList where
  base : Nat
  len : Nat
  deriving DecidableEq, Repr

/-- A pasture slot of a router (R147, R189). -/
structure Slot where
  valid : Bool
  running : Bool
  pasture : PastureId
  /-- Outputs and inputs bound, in the order N, E, S, W, L, V (R148). -/
  bindOut : BitVec 6
  bindIn : BitVec 6
  /-- The close mask of each input in the order N, E, S, W, L, V; that of L is 0. -/
  closeMask : List (BitVec 6)
  exitX : BitVec 4
  exitY : BitVec 4
  lapMax : BitVec 13
  /-- Fold base and size in KiB of the bank. -/
  foldBase : BitVec 10
  foldSize : BitVec 10
  /-- The drove list of each output in the order N, E, S, W, L, V. -/
  lists : List DroveList
  deriving DecidableEq, Repr

/-- Why an output waits (R193). -/
inductive WaitOn
  | message | headOther | join | ack | control | vote | excess
  deriving DecidableEq, Repr

/-- Where a router output stands in its drove list (R191). -/
structure OutPos where
  /-- The slot whose list runs in this round. -/
  slot : Option (Fin 8)
  /-- Current entry. -/
  pos : BitVec 11
  inLap : Bool
  /-- Messages passed in this pace. -/
  n : Nat
  waitOn : Option WaitOn
  /-- The pace has ended and its close is not made yet. -/
  owesClose : Bool
  /-- The output stands at its LAP_MARK entry until its tile's lap starts (R167). -/
  atLap : Bool
  /-- END has been passed and the lap vote awaited (R65). -/
  done : Bool
  /-- Stopped for good: PACE_EXCESS (R183), an uncorrectable drove entry (R184) or a freeze (R181). -/
  stopped : Bool
  deriving DecidableEq, Repr

/-- What the V side has still to feed into a port tile in the current section (R64). -/
structure VFeed where
  /-- Cut events, each a data-plane message, with the pasture they feed. -/
  events : List (PastureId × List Flit)
  /-- Paces of the section not yet fed: message limit (0 for none) and whether a close follows. -/
  paces : List (Nat × Bool)
  /-- Where a rack-link channel feeds this input: the closes it has delivered that no pace has taken yet (R729). -/
  closes : Option Nat
  deriving DecidableEq, Repr

/-- A router: drove storage, slots, input buffers, output positions (R144, R147). -/
structure Router where
  /-- The 2,048 drove entries, each held as a coded 64-bit word whose low half is the entry (R184). -/
  drove : Map Flit
  slots : List Slot
  /-- The data buffers of inputs N, E, S, W, V. -/
  inputs : List (List Item)
  outs : List OutPos
  vfeed : VFeed
  /-- Laps in the current or last round, the first included (SNAP_PHASE). -/
  laps : W16
  /-- An input discarding to the pace's close after an uncorrectable header (R140), N, E, S, W, V. -/
  skipping : List Bool
  deriving DecidableEq, Repr

/-- The queues of a tile (R149). -/
structure TileQueues where
  /-- Inbound AXON queue: messages of one flit. -/
  axon : List Flit
  /-- Outbound queue: whole messages, each with the outputs that have passed it already. -/
  outbound : List (List Flit × BitVec 6)
  /-- The overflow fold: first flit, in 8-byte words from the fold base, and flits held. The flits lie in the bank. -/
  foldHead : Nat
  foldCount : Nat
  /-- The fold of the pasture that holds the core: byte offset and size in bytes (R498, R499). -/
  foldBase : Nat
  foldSize : Nat
  data : List (List W64)
  command : List (List W64)
  sync : List (List W64)
  /-- High-water marks of the six queues in the order of QOCC0–5. -/
  high : List W16
  /-- OUTWAIT0–5. -/
  outwait : List W32
  deriving DecidableEq, Repr

/-- The QDBG snapshot (R191, R192). -/
structure Qdbg where
  frozen : Bool
  /-- Frozen by the stall watchdog and the map not read by the Crook yet (R192). -/
  stallHeld : Bool
  /-- The captured registers by offset. -/
  snap : Map W32
  deriving DecidableEq, Repr

/-! ### Cores and banks (chapters 4–8 and 12) -/

/-- A tile order that waits or runs (R152, R154). -/
structure TileOrder where
  words : List W64
  origin : BitVec 4
  deriving DecidableEq, Repr

/-- Tile-order state of a core (R151, R155). -/
structure TileOrders where
  /-- LSYNC0–15. -/
  lsync : List W32
  current : Option TileOrder
  deriving DecidableEq, Repr

/-- A neuron core beyond its registers and its bank (chapters 5, 6, 8). -/
structure NeuronCore where
  /-- The four delay banks: accumulator a of bank b at key b·4096 + a (R115). -/
  tally : Map Int
  /-- The saturation flag of the round (R117). -/
  satFlag : Bool
  /-- Axons marked for LEARN, rising (R244). -/
  marks : List Nat
  /-- The modulator M of the round (R245). -/
  modM : Int
  /-- Some neuron with TRACE_EN fired in this round (R246). -/
  traceFired : Bool
  /-- A bank write reached the neuron records or the breed table since the last muster (R225). -/
  recount : Bool
  /-- A clamp of this round, for the ladder's E_INEXACT (R338). -/
  clamped : Bool
  deriving DecidableEq, Repr

/-- A Dense-engine chain on a tensor core, or none (R275, R287). -/
structure Chain where
  /-- Current descriptor. -/
  desc : BitVec 6
  /-- The pass waits on its window. -/
  waiting : Bool
  /-- The chain belongs to this scoreboard entry of PASS; none for a tile order or a round chain. -/
  entry : Option EntryId
  /-- A round chain, run in INTEGRATE of this round. -/
  round : Option W32
  /-- Status so far. -/
  status : Byte
  deriving DecidableEq, Repr

/-- A tensor core beyond its registers and its bank (chapter 7). -/
structure TensorCore where
  chain : Option Chain
  deriving DecidableEq, Repr

/-- An entry of a bank's spare table (R514, R546). -/
structure Spare where
  region : BitVec 14
  used : Bool
  shadow : Bool
  bad : Bool
  deriving DecidableEq, Repr

/-- A bank's array and what stands beside its registers (R495, R546). The words of spare k follow the bank's own W
words: word w of spare k is word W + 128·k + w of the array. -/
structure Bank where
  mem : Memory
  spares : List Spare
  /-- CE_BURST already raised in this scrub pass (R509). -/
  burst : Bool
  /-- A region, or a spare (from the region count up), to be sheared next (R508). -/
  urgent : Option Nat
  /-- The pass positions between scrub visits: SCRUB_POS and SHEAR_POS are registers of the page. -/
  fenced : Bool
  /-- When the bank entered RETAIN, in the machine's elapsed microseconds (R511). -/
  retainAt : Nat
  deriving DecidableEq, Repr

/-- An egress entry of a port tile (R455, R915, R916). -/
structure EgressEntry where
  owner : Option PastureId
  word0 : W32
  word1 : W32
  deriving DecidableEq, Repr

/-- A tile of a compute die: its four pages, router, queues, core and bank. -/
structure Tile where
  pRouter : Page
  pCore : Page
  pBank : Page
  pQdbg : Page
  rt : Router
  q : TileQueues
  dbg : Qdbg
  orders : TileOrders
  nc : NeuronCore
  tc : TensorCore
  bank : Bank
  /-- The round digest so far: the CRC-32C register, before its final XOR, over the messages emitted (R835). -/
  digest : W32
  /-- Egress table of a port tile, by egress index. -/
  egress : Map EgressEntry
  deriving DecidableEq, Repr

/-! ### Queue contexts, the scoreboard and sync objects (chapter 9) -/

/-- The states of a queue context (R381). -/
inductive CtxState
  | disabled | active | stopping | stopped | error
  deriving DecidableEq, Repr

/-- A queue context (R344–R346, R355, R356, R366, R381). -/
structure Ctx where
  state : CtxState
  pi : W32
  ci : W32
  cqPi : W32
  cqCi : W32
  ring : W64
  cqRing : W64
  shadow : W64
  logSq : BitVec 5
  logCq : BitVec 5
  priority : BitVec 3
  weight : Byte
  inflight : BitVec 10
  vector : BitVec 11
  modCount : Byte
  modDelay : BitVec 10
  irqEn : Bool
  seqNext : W16
  dupLast : W16
  dups : W16
  dbErrors : W16
  vtime : BitVec 48
  /-- Eligible at the last fetch (R367). -/
  wasEligible : Bool
  /-- Completions counted toward the interrupt (R355). -/
  counted : Nat
  /-- A completion of this context waits and has been counted in CNT_CQ_WAIT (R376). -/
  cqWaiting : Bool
  deriving DecidableEq, Repr

/-- The states of a scoreboard entry (R358). -/
inductive SbState
  | free | waiting | ready | running | completing
  deriving DecidableEq, Repr

/-- Where a command came from: a queue context, or the Shepherd of another package (R904). -/
inductive CmdSource
  | ctx (q : CtxId)
  | share
  deriving DecidableEq, Repr

/-- A scoreboard entry (R358, R359). -/
structure SbEntry where
  state : SbState
  source : CmdSource
  /-- The 64-byte record as eight words (R348). -/
  words : List W64
  w0Met : Bool
  w1Met : Bool
  /-- The order in which it was fetched and in which it became READY (R360). -/
  fetchNo : Nat
  readyNo : Nat
  /-- When it became READY, in elapsed microseconds (R414). -/
  readyAt : Nat
  progress : W32
  status : Byte
  result : W64
  /-- Pieces of the command still to end: chains of a PASS, dies of a SET_OP_POINT, members of a ladder. -/
  parts : Nat
  /-- Bytes moved, chains ended, tests run: the command's own running count. -/
  done : Nat
  /-- Waiting for a Transfer channel, counted once (R373). -/
  waitedPool : Bool
  /-- TEST_UNIT: bit 0 shifted, bit 1 deferred, bit 2 forced (R414). -/
  testFlags : BitVec 3
  /-- The command has woken its one domain (R588). -/
  woke : Bool
  /-- ABORT has reached a RUNNING COPY or PASS (R408). -/
  aborting : Bool
  /-- The answer of a SUBMIT frame goes to this transport with this tag (R800, R803). -/
  submit : Option (Transport × W16)
  deriving DecidableEq, Repr

/-- A sync object (R363, R384). -/
structure SyncObj where
  type : BitVec 2
  poisoned : Bool
  owned : Bool
  owner : PastureId
  /-- COUNTER: VALUE; BARRIER: GEN; EVENT: FLAG. -/
  value : W32
  arrived : W16
  expected : W16
  deriving DecidableEq, Repr

/-- A Transfer channel (R387). -/
structure Channel where
  entry : Option EntryId
  deriving DecidableEq, Repr

/-- The shared base-die pools of R371: units in use and requests waiting, first in first out. -/
structure Pool where
  used : Nat
  queue : List Nat
  deriving DecidableEq, Repr

/-! ### Pastures (chapters 2, 10, 11, 21) -/

/-- A phase of a round (R62). -/
inductive Phase
  | inject | spike | integrate | learn | muster | none
  deriving DecidableEq, Repr

/-- A tile of a placed pasture (R450, R451). -/
structure PTile where
  imgPkg : Byte
  imgDie : DieId
  imgTile : TileId
  die : DieId
  tile : TileId
  core : Bool
  slot : Fin 8
  foldKiB : Byte
  lapMax : BitVec 13
  /-- Phase of the current round on the tile. -/
  phase : Phase
  /-- The tile's INTEGRATE work is done for the round (a round chain may still wait on its window). -/
  integrated : Bool
  /-- The busy report of its last muster arrival (R67). -/
  busy : Bool
  deriving DecidableEq, Repr

/-- A section of an image, its bytes without those of banks and states, which live in the machine (R453, R454). -/
structure Sect where
  type : W16
  imgPkg : Byte
  imgDie : Byte
  count : W32
  bytes : List Byte
  deriving DecidableEq, Repr

/-- Where an image die lies: physical die and offset (R451). -/
structure DiePlace where
  imgDie : DieId
  die : DieId
  dx : Int
  dy : Int
  deriving DecidableEq, Repr

/-- A hold set by HOLD, or as if by HOLD (R399–R405). -/
structure HoldRec where
  duration : W32
  stopStreams : Bool
  /-- When it ends, in elapsed microseconds; none until RELEASE. -/
  endsAt : Option Nat
  deriving DecidableEq, Repr

/-- A pending hold with the HOLD commands that wait for it (R400, R402). -/
structure PendingHold where
  duration : W32
  stopStreams : Bool
  entries : List EntryId
  deriving DecidableEq, Repr

/-- A RUN or LADDER in flight (R418–R421, R428). -/
structure RunRec where
  /-- none: the run of a restart or a ladder share, which no command of this package holds. -/
  entry : Option EntryId
  ladder : Bool
  period : W32
  rounds : W32
  advanced : W32
  saturated : Bool
  degraded : Bool
  deriving DecidableEq, Repr

/-- An event waiting to enter a pasture: a host injection or a peer's egress, as a header word in image form, with the
INJECT it belongs to (R422, R423, R471). -/
structure Injected where
  word : W64
  entry : Option EntryId
  deriving DecidableEq, Repr

/-- A checkpoint ring (R437, R841). -/
structure CkptRing where
  base : W64
  slotLen : W32
  slots : W16
  next : W16
  /-- The newest capture written, as slot number and round. -/
  newest : Option (W16 × W32)
  deriving DecidableEq, Repr

/-- The round log of a slot (R843–R847). -/
structure RoundLog where
  /-- Host address of the log header. -/
  addr : W64
  /-- Bytes from the header to the end of the slot. -/
  room : Nat
  /-- DIGEST_CAP at the capture, in rounds. -/
  cap : Nat
  first : W32
  logged : W32
  inputUsed : W32
  full : Bool
  broken : Bool
  deriving DecidableEq, Repr

/-- Where a pasture identifier stands (R449). -/
inductive Presence
  | free | resident | pagedOut
  deriving DecidableEq, Repr

/-- The muster and lap vote of a pasture that spans packages, as this package's part of the tree stands (R74, R736). -/
structure Span where
  /-- The links of the children whose MUSTER_ARRIVE has come for this round, with the busy state each carried. -/
  arrives : List (Nat × Bool)
  /-- The links of the children whose VOTE_REPORT has come for this vote, with the pending state each carried. -/
  votes : List (Nat × Bool)
  sentArrive : Bool
  sentVote : Bool
  /-- MUSTER_DONE of this round, with its SKIP. -/
  done : Option Bool
  /-- A package that stands between rounds has told the root that an event waits here. -/
  woke : Bool
  /-- VOTE_RESULT of this vote: pending. -/
  result : Option Bool
  deriving DecidableEq, Repr

/-- A pasture: what its image declares, where it lies, its rounds, holds, commands and queues. -/
structure Past where
  presence : Presence
  kind : BitVec 2
  flags : BitVec 5
  stallLimit : W16
  sliceRounds : W16
  seed : W64
  packages : W16
  nvFirst : W32
  nvPages : W32
  sections : List Sect
  /-- Bank extents of the image: image package, image die, image tile, offset and length. -/
  extents : List (Nat × Nat × Nat × Nat × Nat)
  peers : List PastureId
  /-- The physical package of each image package in order. -/
  pkgMap : List Byte
  /-- The image package this package carries. -/
  imgPkg : Byte
  dies : List DiePlace
  tiles : List PTile
  /-- Where the page image lies while paged out, and whether in the page area. -/
  pageAddr : W64
  pageLen : Nat
  inPageArea : Bool
  -- rounds
  round : W32
  phase : Phase
  /-- Consecutive skipped rounds before the present one (R210). -/
  skippedRun : W32
  skippedTotal : W32
  overruns : W32
  paced : Bool
  period : W32
  /-- The pacer grid: tick k of the grid falls at anchor + k·period; the round of tick 0 (R70). -/
  anchor : Nat
  anchorRound : W32
  anchored : Bool
  /-- The tick of the next round has arrived and the round waits to start. -/
  tickDue : Bool
  parked : Bool
  /-- The next round start waits for a gap's work and has been counted in CNT_GAP_WAIT (R554). -/
  gapWaited : Bool
  longIdle : Bool
  /-- The last muster's skip test has no busy tile (R68). -/
  quiet : Bool
  run : Option RunRec
  nextRun : Option RunRec
  /-- A RUN or LADDER to be aborted at the next muster, after which the pasture holds (R408). -/
  abortRun : Bool
  /-- The RUN that waits to replace the present one is to be aborted when it has taken effect (R408, R420). -/
  abortNext : Bool
  /-- RUNs that a later RUN replaced while they waited; they complete where it takes effect (R420). -/
  passedOver : List RunRec
  hold : Option HoldRec
  pendingHold : Option PendingHold
  /-- The fault or environment hold in effect, by its status (R446). -/
  faultHold : Option Byte
  /-- A fault hold that falls due at the next muster. -/
  pendingFault : Option Byte
  /-- A die hold (THERMAL_HOLD) or POWER_STORM hold in effect beside a fault hold. -/
  thermal : Bool
  storm : Bool
  maintenance : Bool
  restoreFailed : Bool
  /-- Mid-round state frozen by the stall watchdog (R181, R182). -/
  stalled : Bool
  stallMapRead : Bool
  /-- A drove entry of this round could not be read (R184). -/
  droveBad : Bool
  /-- When the pasture last made progress in its round (R180). -/
  progressAt : Nat
  inject : List Injected
  /-- Inputs that entered at the cut of the current round, in entry order by tile key (R845). -/
  entered : List (Nat × W64)
  -- commands waiting for a muster
  ckpts : List EntryId
  shifts : List (EntryId × BitVec 4)
  ring : Option CkptRing
  log : Option RoundLog
  logEnable : Bool
  autoRestart : Bool
  digestCap : W16
  digestRound : W32
  digest : W64
  /-- Partial digests that have arrived for the round, by package (R837, R838). -/
  partials : List (Nat × Nat × W64)
  /-- Input records and complete digests that are not in the round log yet, oldest first (R845, R846). -/
  inputs : List (W32 × List W64)
  digests : List (W32 × W64)
  /-- When it has restarted, newest first, in elapsed microseconds; the last restart's status and round (R864, R881). -/
  restarts : List Nat
  restartStatus : Byte
  restartRound : W32
  roundsSinceCkpt : W32
  -- time-slicing
  sliceRan : W32
  residentSince : Nat
  /-- The capture of a checkpoint boundary under which tests run: its host address, and the CRC-32C of the BANK and STATE
  sections of each image die (R856, R857). -/
  boundary : Option (W64 × List (Nat × Nat))
  /-- The exchange with the pasture's other packages. -/
  span : Span
  deriving DecidableEq, Repr

/-- The states of a unit (R458). -/
inductive UnitState
  | off | fenced | watch | spare | inService
  deriving DecidableEq, Repr

/-- A unit as the Crook and the Shepherd see it (R458, R481, chapter 21). -/
structure UnitRec where
  crook : UnitState
  shepherd : UnitState
  clearing : Bool
  testing : Bool
  due : Bool
  deferred : Bool
  deferredAt : Nat
  forced : Bool
  /-- Consecutive passes, failures and the watch count of chapter 21. -/
  watch : Byte
  fails : W16
  lastTest : W32
  lastFailed : BitVec 5
  deriving DecidableEq, Repr

/-! ### The anneal engine (chapter 8) -/

/-- A rung of a ladder. -/
structure Rung where
  temp : W16
  replica : BitVec 7
  tried : W32
  swapped : W32
  deriving DecidableEq, Repr

/-- A replica of a ladder. -/
structure Replica where
  energy : Int
  rung : BitVec 7
  report : W32
  /-- The energy of the latest report, on a free ladder. -/
  reported : Int
  /-- Its cores: tile keys of this package. -/
  cores : List Nat
  deriving DecidableEq, Repr

/-- A ladder (R340, R327, R328). -/
structure Ladder where
  valid : Bool
  running : Bool
  root : Bool
  freeMode : Bool
  inexact : Bool
  pasture : PastureId
  colours : BitVec 3
  exchSweeps : W16
  kickBase : BitVec 12
  kick : BitVec 12
  s0 : W32
  exchIndex : W32
  best : Int
  bestReplica : BitVec 7
  bestExch : W32
  bestSet : Bool
  stag : W32
  rungs : List Rung
  replicas : List Replica
  target : Option W32
  roundLimit : W32
  stagExch : W16
  entry : Option EntryId
  /-- A stop of a free ladder that its members have still to take, with its reason (R329). -/
  stopping : Option (BitVec 3)
  deriving DecidableEq, Repr

/-- A slot of the commons merge buffer (R290). -/
structure MergeSlot where
  line : Option (BitVec 18)
  lastUse : Nat
  deriving DecidableEq, Repr

end Sys2Proof.Machine
end

