-- ==== Sys2Proof/Machine/Msg.lean ====
section
/-! DEFINITION. Messages: the header fields, the kinds, lengths and second words (R94–R129), and tile coordinates. -/

namespace Sys2Proof.Machine

/-- The header of a message (R97), each field as a number. -/
structure Hdr where
  kind : Nat
  pkg : Nat := 0
  die : Nat := 0
  x : Nat := 0
  y : Nat := 0
  qclass : Nat := 0
  origin : Nat := 0
  tag : Nat := 0
  stamp : Nat := 0
  payload : Nat := 0
  deriving DecidableEq, Repr

/-- The fields of a header word. -/
def Hdr.of (w : Nat) : Hdr :=
  { kind := bits w 63 60, pkg := bits w 59 52, die := bits w 51 50, x := bits w 49 46, y := bits w 45 42
    qclass := bits w 41 40, origin := bits w 39 36, tag := bits w 35 24, stamp := bits w 23 16, payload := bits w 15 0 }

/-- The header word of given fields. -/
def Hdr.word (h : Hdr) : Nat :=
  h.kind % 16 * 2 ^ 60 + h.pkg % 256 * 2 ^ 52 + h.die % 4 * 2 ^ 50 + h.x % 16 * 2 ^ 46 + h.y % 16 * 2 ^ 42
    + h.qclass % 4 * 2 ^ 40 + h.origin % 16 * 2 ^ 36 + h.tag % 4096 * 2 ^ 24 + h.stamp % 256 * 2 ^ 16
    + h.payload % 65536

/-! Kinds of R98. -/

def kAXON := 1
def kFLOCK := 2
def kTALLY := 3
def kDATA := 4
def kCOMMAND := 5
def kSYNC := 6
def kCOMPLETION := 7
def kREADREQ := 8
def kREADRESP := 9
def kTRACE := 10
def kEXCHANGE := 11

/-- The queue class that R98 gives a kind; none for a reserved kind. -/
def kindClass (k : Nat) : Option Nat :=
  if k = 1 || k = 2 || k = 3 then some 0
  else if k = 4 || k = 8 || k = 9 || k = 10 then some 1
  else if k = 5 || k = 7 then some 2
  else if k = 6 || k = 11 then some 3
  else none

/-- The kind may be addressed to a base-die block (R98). -/
def kindMayBase (k : Nat) : Bool := 4 ≤ k && k ≤ 11

/-- The length in flits of a message of header `h` and second word `w2` (R98, R99). -/
def msgLen (h : Hdr) (w2 : Nat) : Nat :=
  if h.kind = kAXON || h.kind = kTALLY then 1
  else if h.kind = kDATA then 2 + bits w2 55 48
  else if h.kind = kCOMMAND then 9
  else if h.kind = kCOMPLETION then 3
  else if h.kind = kREADRESP then
    if bit w2 38 then 2
    else 2 + (if bit w2 39 then ceilDiv (bits w2 51 48 + 1) 2 else bits w2 51 48 + 1)
  else 2

/-- The class number of an origin (R100). -/
def originNum : Origin → Nat
  | .internal => 0
  | .stream => 1
  | .host => 2
  | .operator => 3
  | .test => 4

/-- The origin of a class number; none for the reserved values 5–15. -/
def originOf (n : Nat) : Option Origin :=
  if n = 0 then some .internal else if n = 1 then some .stream else if n = 2 then some .host
  else if n = 3 then some .operator else if n = 4 then some .test else none

/-- The tag of a message to base-die page `p` (R106). -/
def baseTag (p : Nat) : Nat := 0x800 + p

/-- A DATA bank write of words `ws` at byte offset `addr`, to a tile (R120). -/
def dataWrite (pkg die x y origin stamp addr : Nat) (ws : List Nat) : List Nat :=
  ({ kind := kDATA, pkg := pkg, die := die, x := x, y := y, qclass := 1, origin := origin, stamp := stamp : Hdr }).word
    :: (ws.length * 2 ^ 48 + addr % 2 ^ 25) :: ws

/-- A SYNC ADD of `operand` (16-bit pattern) to object `obj` of the muster unit of package `pkg` (R123). -/
def syncAdd (pkg origin obj operand : Nat) : List Nat :=
  [({ kind := kSYNC, pkg := pkg, qclass := 3, origin := origin, tag := baseTag 10, payload := operand : Hdr }).word, obj % 16384]

/-- A TRACE to the HEALTH block of package `pkg` (R128). -/
def traceMsg (pkg stamp payload datum : Nat) : List Nat :=
  [({ kind := kTRACE, pkg := pkg, qclass := 1, tag := baseTag 4, stamp := stamp, payload := payload : Hdr }).word, datum % 2 ^ 64]

/-! Tiles (R14, R31). -/

def tileX (t : Nat) : Nat := t % 16
def tileY (t : Nat) : Nat := t / 16 % 16
def tileOf (x y : Nat) : Nat := 16 * y + x

/-- The three tile kinds. -/
inductive TileKind
  | neuron | tensor | port
  deriving DecidableEq, Repr

/-- The kind of the tile of index `t` (R31). -/
def tileKind (t : Nat) : TileKind :=
  let x := tileX t
  let y := tileY t
  if x % 4 = 0 && y % 2 = 1 then .tensor
  else if x % 4 = 2 && y % 4 = 2 then .port
  else .neuron

/-- The 16 port tiles of a die, rising. -/
def portTiles : List Nat := (upto 256).filter (fun t => tileKind t == .port)

/-- Manhattan distance of two tiles. -/
def tileDist (a b : Nat) : Nat :=
  (max (tileX a) (tileX b) - min (tileX a) (tileX b)) + (max (tileY a) (tileY b) - min (tileY a) (tileY b))

/-- The tile of the list nearest to `t`, the earlier winning a tie. -/
def nearestIn (t : Nat) : List Nat → Option Nat
  | [] => none
  | a :: l => match nearestIn t l with
    | none => some a
    | some b => if tileDist t b < tileDist t a then some b else some a

/-- The port tile nearest the tile, the lower index winning a tie (R188). -/
def nearestPort (t : Nat) : Nat := (nearestIn t portTiles).getD 34

/-- The key of a tile among the 1,024 of a package. -/
def tileKey (d t : Nat) : Nat := d * 256 + t

end Sys2Proof.Machine
end

