-- ==== Sys2Proof/Machine/Types2.lean ====
section
/-! DEFINITION. The parts of the state that chapters 12 to 21 and 23 give the machine, as plain data: the NV store, the
die stack, power domains and wakes, the RTC, the host gate, sensor ports, rack links, the Crook with its frames and
debug lock, the test access port, the sled controller and the power shelf. -/

namespace Sys2Proof.Machine

/-! ### The NV store (chapter 12) -/

/-- The metadata of an NV page (R521, R524, R526). Pages 0–16,383 are the weight pages, 16,384–17,407 the system pages. -/
structure NvMeta where
  crc : W32
  gen : W32
  writes : W32
  suspect : Bool
  worn : Bool
  deriving DecidableEq, Repr

/-- An area record (R528). -/
structure AreaRec where
  valid : Bool
  first : Nat
  pages : Nat
  /-- Copy B is the active one. -/
  activeB : Bool
  gen : W32
  written : Bool
  owner : Option PastureId
  /-- The pages of the area, counted from 0, whose lag bit is set, rising. -/
  lag : List Nat
  deriving DecidableEq, Repr

/-- Who asked for a page write. -/
inductive NvFor
  | save (area : Nat)
  | firmware
  deriving DecidableEq, Repr

/-- A page write that waits to be programmed (R526). -/
structure NvWrite where
  page : Nat
  /-- The new contents; none where only a record page is rewritten, whose contents are the area table itself. -/
  data : Option (List Byte)
  gen : W32
  why : NvFor
  deriving DecidableEq, Repr

/-- The steps 3, 4 and 5 of R531. -/
inductive SaveStage
  | intent | pages | flip
  deriving DecidableEq, Repr

/-- A running save of one area (R531). -/
structure SaveJob where
  area : Nat
  pasture : PastureId
  /-- The NV_SAVE command, or none for the shelter save. -/
  entry : Option EntryId
  stage : SaveStage
  readSet : List Nat
  catchUp : List Nat
  /-- Page contents to be written in step 4. -/
  writes : List NvWrite
  /-- Regions whose dirty bits were cleared, as tile key and region (R531). -/
  cleaned : List (Nat × Nat)
  /-- Writes of the present stage still to end. -/
  left : Nat
  written : Nat
  deriving DecidableEq, Repr

/-- A running shelter save (R533–R536). -/
structure Shelter where
  /-- Pastures whose area is still to be read. -/
  waiting : List PastureId
  saved : Nat
  written : Nat
  failed : Bool
  startedAt : Nat
  /-- A pasture whose area has been read holds with POWER_STORM (R777, R779). -/
  hold : Bool
  deriving DecidableEq, Repr

/-- The NV store. -/
structure Nv where
  /-- Byte k of page p at address 4,096·p + k. -/
  data : Memory
  info : Map NvMeta
  areas : Map AreaRec
  queue : List NvWrite
  jobs : List SaveJob
  shelter : Option Shelter
  /-- The audit log: the 64 bytes of entry SEQ at SEQ mod 256 (R815). -/
  audit : Map (List Byte)
  deriving DecidableEq, Repr

/-! ### The die stack (chapter 13) -/

/-- One direction of a vertical link (R550, R551, R559, R560). -/
structure VDir where
  failed : BitVec 76
  /-- The logical lane that each spare carries; 0x7F for none. -/
  spares : List (BitVec 7)
  half : Bool
  /-- Failed rail copies: request, acknowledge and close rail, two copies each. -/
  rails : BitVec 6
  deriving DecidableEq, Repr

/-- A vertical link (R550–R561). Its unit state stands in the unit table. -/
structure VLink where
  up : VDir
  down : VDir
  lastCheck : W32
  /-- Its lane check is due (R556). -/
  due : Bool
  /-- Corrections per logical lane in this interval: lane i of UP at i, of DOWN at 128 + i (R557). -/
  ce : Map Nat
  /-- TEST_UNIT commands that wait for the check (R558). -/
  tests : List EntryId
  deriving DecidableEq, Repr

/-- DIE_STATE of R578. -/
inductive DieState
  | off | on | tripped | dead
  deriving DecidableEq, Repr

/-- The thermal states of R566. -/
inductive Thermal
  | normal | throttle | hold | trip
  deriving DecidableEq, Repr

/-- A compute die as the base die sees it (R562–R567, R578, R593, R594). Voltages in mV. -/
structure DieRec where
  state : DieState
  /-- HS_STATE: 0 not started, 1 done, 2 DEAD. -/
  hs : BitVec 2
  target : Nat
  applied : Nat
  ceiling : Nat
  capVolt : Nat
  power : Nat
  /-- The voltage of a pending step (R565). -/
  step : Option Nat
  thermal : Thermal
  /-- T_d, in units of 0.25 °C, while two sensors are valid. -/
  temp : Option Int
  /-- The die is out of service by REG_FAULT (R609). -/
  regFault : Bool
  /-- SET_OP_POINT commands that wait for the die's step (R416). -/
  waiters : List EntryId
  deriving DecidableEq, Repr

/-! ### Power domains, latches, wakes and the RTC (chapter 14) -/

/-- The states of a domain (R580). -/
inductive DomState
  | on | retain | off
  deriving DecidableEq, Repr

/-- Who asked for a domain's change (R584, R632, R637). -/
inductive DomAsker
  | command (e : EntryId)
  | register
  | profile
  deriving DecidableEq, Repr

/-- A request to change a domain (R584). -/
structure DomReq where
  target : DomState
  asker : DomAsker
  /-- The class that asked. -/
  origin : Origin
  deriving DecidableEq, Repr

/-- A switched domain (R580, R584–R587, R604, R605). -/
structure DomRec where
  state : DomState
  draining : Bool
  waking : Bool
  /-- The request in progress, with the state before it. -/
  current : Option DomReq
  prev : DomState
  drainFrom : Nat
  /-- Requests that wait for the present one or for a wake. -/
  queued : List DomReq
  /-- A wake waits for the end of the transition (R604). -/
  wakeAfter : Bool
  lastStatus : Byte
  drainTime : W16
  deriving DecidableEq, Repr

/-- The running routes of a wake source (R599). -/
structure WakeRun where
  src : Nat
  /-- The slot that runs; its successor starts when its domains are ON. -/
  slot : Nat
  deriving DecidableEq, Repr

/-- A hurdle latch of a pad group (R596, R597). -/
structure Latch where
  latched : Bool
  value : Bool
  enable : Bool
  deriving DecidableEq, Repr

/-- The RTC (R601, R602, R617). -/
structure Rtc where
  time : W64
  timeHi : W32
  valid : Bool
  /-- Runs from the internal oscillator. -/
  internal : Bool
  locked : Bool
  alarm0 : W64
  alarm1 : W64
  /-- ALARMk fired for its present value. -/
  fired0 : Bool
  fired1 : Bool
  deriving DecidableEq, Repr

/-! ### The host gate (chapter 16) -/

/-- An entry of the MSI-X table with its pending bit (R660). -/
structure MsixEntry where
  addr : W64
  data : W32
  masked : Bool
  pending : Bool
  deriving DecidableEq, Repr

/-- A host egress ring (R662–R667). -/
structure ERing where
  base : W64
  logSize : BitVec 5
  vector : BitVec 11
  vecEn : Bool
  en : Bool
  pi : W32
  ci : W32
  /-- Records that wait for room, as the 14 bits of pasture identifier and the 16 bytes without PHASE. -/
  waiting : List (Nat × List Byte)
  /-- Pastures that sent a record in their present round (R667). -/
  got : List Nat
  deriving DecidableEq, Repr

/-- The gate beyond its page (R647–R681). -/
structure Gate where
  dlUp : Bool
  l1 : Bool
  l12 : Bool
  d3hot : Bool
  /-- Step 10 of R625 has taken place. -/
  ready : Bool
  /-- Trained width in lanes and speed code. -/
  width : Nat
  speed : Nat
  /-- Limits at the next training: width code and speed code of GATE_LINK (R628, R632). -/
  limits : Byte
  config : Map W32
  msix : Map MsixEntry
  rings : Map ERing
  /-- Messages sent on the link: MSI-X address and data, oldest first. -/
  sent : List (W64 × W32)
  /-- Contexts that were stopped by a link loss and discard their completions (R677). -/
  lost : List CtxId
  /-- The host-memory read under way is answered with an error (R679). -/
  dmaBad : Bool
  deriving DecidableEq, Repr

/-- An outstanding READ_REQ (R125, R904): its tag, who issued it, how many registers or words it asked for, and the
package it went to. -/
structure Outstanding where
  rtag : Nat
  /-- The base-die page, or 4,096 and up for a tile key, that issued it. -/
  issuer : Nat
  count : Nat
  pkg : Nat
  deriving DecidableEq, Repr

/-! ### Sensor ports (chapter 17) -/

/-- A stream record as the image gives it (R686). -/
structure StreamRec where
  port : Nat
  vc : Nat
  encoder : Bool
  adrMode : Bool
  ipkg : Nat
  width : Nat
  height : Nat
  patchW : Nat
  patchH : Nat
  polStride : Nat
  shift : Nat
  thrOn : Nat
  thrOff : Nat
  fifoKib : Nat
  mapFirst : Nat
  mapCount : Nat
  /-- The MAP_COUNT map entries, as 32-bit words in image form (R687). -/
  entries : List W32
  deriving DecidableEq, Repr

/-- A stream context (R689–R698, R703–R710, R715). Its FIFO and its reference area lie in the port's stream buffer. -/
structure StreamCtx where
  /-- The pasture and the image stream index it is bound to. -/
  bound : Option (PastureId × Nat)
  info : StreamRec
  stopped : Bool
  /-- Byte offsets of the FIFO and of the reference area in the stream buffer. -/
  fifoBase : Nat
  refBase : Nat
  fifoHead : Nat
  fifoCount : Nat
  /-- The port tile index, on the image die of the destination, of each event held. -/
  fifoPorts : List (Nat × Nat)
  high : Nat
  frame : W32
  refValid : Bool
  inFrame : Bool
  line : Nat
  frameOk : Bool
  /-- The rest of the frame is discarded: stopped mid-frame, or joined mid-frame (R403, R707). -/
  skipFrame : Bool
  /-- Pixels whose REF lay in an uncorrectable word met at another pixel: their next line takes them as a first frame (R710). -/
  refBad : List Nat
  cntRx : W32
  cntEntered : W32
  cntDrop : W32
  cntUnmapped : W32
  cntRange : W32
  cntMalformed : W32
  cntStopped : W32
  cntUe : W32
  deriving DecidableEq, Repr

/-- An AER port's handshake (R700, R714). -/
structure Aer where
  req : Bool
  ack : Bool
  /-- The level of AERx_D as the sender drives it. -/
  d : BitVec 24
  deriving DecidableEq, Repr

/-! ### Rack links (chapter 18) -/

/-- LINK_STATE of R754. -/
inductive LinkPhase
  | off | whistle | training | locking | hello | up | holding | ctrlOnly
  deriving DecidableEq, Repr

/-- A class of a link direction: its transmit queue, counts and credit limits, and the flits of a message not yet
complete at the receiver (R719, R727, R728). -/
structure LinkClass where
  txq : List Flit
  txCount : BitVec 12
  /-- The credit limit the partner gave. -/
  txLimit : BitVec 12
  /-- Flits of the message in progress that the next frame continues. -/
  txLeft : Nat
  rxCount : BitVec 12
  /-- The credit limit this receiver gives. -/
  rxLimit : BitVec 12
  partly : List Flit
  /-- Accepted frames that still hold a slot of a message not yet complete. -/
  frames : Nat
  deriving DecidableEq, Repr

/-- A rack link end (R717–R755). -/
structure Link where
  phase : LinkPhase
  epoch : W16
  txSeq : BitVec 12
  rxSeq : BitVec 12
  /-- A NAK is owed in the next frame; one has been sent since the last accepted frame (R725). -/
  nakDue : Bool
  nakSent : Bool
  cclass : BitVec 2
  classes : List LinkClass
  /-- Unacknowledged DATA frames, oldest first, each with the slots at its start that continue a message of the frame before
  (R723). -/
  replay : List (BitVec 12 × Nat × List Byte)
  /-- Sequence number from which a replay is running. -/
  replaying : Option (BitVec 12)
  /-- State kept for a resume: the link was UP and LINK_HOLD has not expired (R741, R746). -/
  resumable : Bool
  /-- A valid HELLO has been received, and one with PEER_SEEN sent (R739). -/
  peerSeen : Bool
  sentSeen : Bool
  peerPkg : Byte
  peerPort : BitVec 3
  /-- The last frame put on the line. -/
  wire : List Byte
  /-- Channels on this direction in: pasture and channel number, with the tile and input a close goes to (R729). -/
  rxChannels : List (PastureId × Nat × Nat × Nat)
  /-- Channels on the direction out. -/
  txChannels : List (PastureId × Nat)
  deriving DecidableEq, Repr

/-! ### Management (chapter 20) -/

/-- A line of the UART console (R819). -/
inductive ConsoleLine
  | stage (stage : Nat) (bootMs : Nat)
  | audit (seq : Nat) (event : Nat) (cls : Nat) (status : Nat)
  | frame (type : Nat) (tag : Nat) (cls : Nat) (status : Nat)
  | fault (page : Nat) (code : Nat)
  deriving DecidableEq, Repr

/-- A REG_READ frame that reads another package through the machine window (R654, R801). -/
structure RegJob where
  via : Transport
  tag : W16
  /-- The next register, in the package view of package `pkg`. -/
  addr : Nat
  pkg : Nat
  /-- Registers still to ask for, and those that have come. -/
  left : Nat
  got : List Nat
  /-- A READ_REQ is outstanding. -/
  waiting : Bool
  deriving DecidableEq, Repr

/-- A firmware session (R808, R822). -/
structure FwSession where
  copyB : Bool
  length : Nat
  /-- Bytes received, by image offset, and whether each has been received. -/
  bytes : Memory
  seen : Memory
  /-- Pages handed to the NV store. -/
  pages : List Nat
  failed : Bool
  /-- FW_END has come and its page writes go on. -/
  ending : Bool
  deriving DecidableEq, Repr

/-- The Crook beyond its page (R798–R816). -/
structure Crook where
  /-- Unread responses of the SMBus target and of the mailbox, oldest first, as whole frames. -/
  smbus : List (List Byte)
  mbox : List (List Byte)
  /-- A mailbox request that has not been served yet (R800). -/
  mboxHeld : Option (List Byte)
  /-- Requests in order of arrival across the transports, the mailbox's among them (R800). -/
  frames : List (Transport × List Byte)
  /-- A REG_READ in progress. -/
  job : Option RegJob
  session : Option FwSession
  /-- SUBMIT frames whose record has not been fetched yet: ring index, transport and tag (R803). -/
  submits : List (W32 × Transport × W16)
  /-- The 4 KiB staging page of PROFILE_STAGE. -/
  staging : Memory
  console : List ConsoleLine
  /-- ALERT frames wait to be read: pages that had no pending event when last seen. -/
  alerted : List Nat
  /-- The running image: copy, VERSION and ROLLBACK. -/
  fwCopyB : Bool
  fwVersion : W32
  fwRollback : W16
  versionA : Option W32
  versionB : Option W32
  auditHead : W32
  auditAck : W32
  auditLost : W32
  deriving DecidableEq, Repr

/-- The debug lock (R810–R813). -/
structure DebugLock where
  isOpen : Bool
  ever : Bool
  scope : BitVec 3
  /-- When the grant ends, in elapsed microseconds. -/
  endsAt : Nat
  challenge : W64
  deriving DecidableEq, Repr

/-- The fuses of the base die (R3, R458, R491, R796, R562). -/
structure Fuses where
  serial : W64
  fwKey0 : List Byte
  fwKey1 : List Byte
  revoke0 : Bool
  dbgKey : List Byte
  debugBlock : Bool
  /-- The 64 one-time rollback bits. -/
  rollback : W64
  neuronGrade : BitVec 10
  tensorGrade : BitVec 7
  /-- Units absent from the good map, by unit key. -/
  holes : List Nat
  baseGen : BitVec 4
  baseFeatures : Byte
  dieGens : List (BitVec 4)
  dieFeatures : List Byte
  deriving DecidableEq, Repr

/-- A recorded disagreement of the two unit views (R868). -/
structure Disagree where
  unit : Nat
  crook : BitVec 3
  shepherd : BitVec 3
  time : W32
  deriving DecidableEq, Repr

/-- The answer that the last request from outside received. -/
inductive Answer
  | none
  | retry
  | unsupported
  | data (words : List Nat)
  | frame (bytes : List Byte)
  | refused
  deriving DecidableEq, Repr

/-! ### The test access port (chapter 23) -/

/-- The TAP (R937–R939, R946). -/
structure Tap where
  ir : Byte
  /-- The boundary register as shifted in and latched for driving. -/
  boundary : BitVec 73
  driven : BitVec 73
  /-- What was last shifted out: boundary cells, identification or the bypass bit. -/
  bypass : Bool
  shiftedOut : BitVec 73
  deriving DecidableEq, Repr

/-! ### Boards, rack and shelf (chapter 19) -/

/-- What the sled controller holds for a slot (R760, R761). -/
structure SledSlot where
  rails : Bool
  /-- POR_N is driven low. -/
  porLow : Bool
  pins : BitVec 2
  deriving DecidableEq, Repr

/-- The sled controller and the rack manager's side of the bridge (R760, R771, R778, R804, R805). -/
structure Sled where
  slots : List SledSlot
  /-- The slot that holds the package of this model. -/
  slot : DieId
  /-- The rack number, sled slot and rack count of enumeration (R765, R766), and whether it stands alone. -/
  rack : BitVec 2
  place : BitVec 4
  racks : BitVec 3
  standalone : Bool
  /-- The last 64 sequence numbers with their answers, newest first (R805). -/
  answers : List (W32 × List Byte)
  /-- The last notice passed on, and one held for a Crook that does not answer (R778, R790). -/
  noticed : Option Bool
  heldNotice : Option Bool
  /-- STORM_POLICY is HOLD (R779). -/
  stormHold : Bool
  /-- Sleds powered since the shelf entered MAINS (R795). -/
  powered : Nat
  /-- The step that a reserve shutdown waits in: 0 none, 1 to start its shelter save, 2 for that save's end, 3 done (R781). -/
  shutdown : BitVec 2
  /-- The answer of the last datagram. -/
  answer : List Byte
  deriving DecidableEq, Repr

/-- The shelf states (R773). -/
inductive ShelfState
  | off | mains | handover | battery | ramp
  deriving DecidableEq, Repr

/-- The power shelf (R764, R773–R788). `soc` is the state of charge as last measured. -/
structure Shelf where
  state : ShelfState
  adequate : Bool
  qualifying : Bool
  lockout : Bool
  reserve : Bool
  stormLow : Bool
  testing : Bool
  events : W16
  soc : W16
  qualifyMs : W16
  reserveLevel : W16
  cutoffLevel : W16
  handoverUs : W16
  stormCount : W16
  /-- When the last three returns took place, newest first, and when MAINS was entered, in elapsed microseconds. -/
  returns : List Nat
  mainsSince : Nat
  /-- Elapsed microseconds. -/
  now : Nat
  /-- PAGE (R782), and the rectifiers that OPERATION has on. -/
  page : Byte
  rectOn : Byte
  statusCml : Byte
  /-- What the last PMBus command returned: none for NACK. -/
  reply : Option (List Byte)
  deriving DecidableEq, Repr

end Sys2Proof.Machine
end

