-- ==== Sys2Proof/Machine/Frames.lean ====
section
/-! DEFINITION. The frames of a rack link as bytes: the header, the slots, the link items and the LINK frame (R720–R722,
R739). -/

namespace Sys2Proof.Machine

/-- The header of a frame (R720). -/
structure FrameHdr where
  type : Nat
  cls : Nat := 0
  seq : Nat := 0
  ack : Nat := 0
  nak : Bool := false
  cclass : Nat := 0
  clim : Nat := 0
  ccount : Nat := 0

/-- The header word of a frame. -/
def FrameHdr.word (h : FrameHdr) : Nat :=
  h.type % 4 + h.cls % 4 * 2 ^ 2 + h.seq % 4096 * 2 ^ 4 + h.ack % 4096 * 2 ^ 16 + b2n h.nak * 2 ^ 28 + h.cclass % 4 * 2 ^ 30
    + h.clim % 4096 * 2 ^ 32 + h.ccount % 4096 * 2 ^ 44

/-- The header that a frame carries. -/
def FrameHdr.of (f : List Byte) : FrameHdr :=
  let w := leAt f 0 8
  { type := bits w 1 0, cls := bits w 3 2, seq := bits w 15 4, ack := bits w 27 16, nak := bit w 28, cclass := bits w 31 30
    clim := bits w 43 32, ccount := bits w 55 44 }

/-- A frame of header `h` and the 244 bytes 8–251, with its CRC-32C (R721). -/
def frameBytes (h : FrameHdr) (body : List Byte) : List Byte :=
  let l := natLe 8 h.word ++ body
  l ++ natLe 4 (crc32c l)

/-- The body of a frame of flits: 27 slots of 9 bytes, the rest PAD, and byte 251 (R721). -/
def slotBody (l : List Flit) : List Byte :=
  (l.take 27).flatMap (fun f => natLe 9 f.toNat) ++ List.replicate (244 - 9 * (l.take 27).length) 0

/-- The 27 slots of a frame. -/
def frameSlots (f : List Byte) : List Flit := (upto 27).map (fun i => BitVec.ofNat 72 (leAt f (8 + 9 * i) 9))

/-- The CRC of a frame passes. -/
def frameOk (f : List Byte) : Bool := f.length = 256 && crc32c (f.take 252) == leAt f 252 4

/-- The same frame with another header. -/
def reframe (h : FrameHdr) (f : List Byte) : List Byte := frameBytes h (slice f 8 244)

/-! Items (R722): 1 CLOSE, 2 MUSTER_ARRIVE, 3 MUSTER_DONE, 4 VOTE_REPORT, 5 VOTE_RESULT. -/

/-- The data word of a link item. -/
def itemWord (item p chan round : Nat) (skip flag : Bool) : Nat :=
  item % 16 * 2 ^ 56 + p % 1024 * 2 ^ 46 + chan % 64 * 2 ^ 40 + round % 2 ^ 32 * 2 ^ 8 + b2n skip * 2 + b2n flag

/-- The fields of a LINK frame (R739). -/
structure LinkHello where
  subtype : Nat := 0
  port : Nat := 0
  locked : Bool := false
  peerSeen : Bool := false
  pkg : Nat := 0
  mode : Nat := 0
  dims : Nat := 0
  epoch : Nat := 0
  rxExpect : Nat := 0

/-- The body of a LINK frame. -/
def LinkHello.body (h : LinkHello) : List Byte :=
  natLe 4 0x4C4B4C48 ++ natLe 1 h.subtype ++ natLe 1 (h.port % 8 + b2n h.locked * 8 + b2n h.peerSeen * 16) ++ natLe 1 h.pkg
    ++ natLe 1 (h.mode % 2) ++ natLe 2 (h.dims % 4096) ++ natLe 2 h.epoch ++ natLe 2 (h.rxExpect % 4096) ++ List.replicate 230 0

/-- The LINK frame that a frame's bytes hold; none without the MAGIC. -/
def LinkHello.of (f : List Byte) : Option LinkHello :=
  if leAt f 8 4 ≠ 0x4C4B4C48 then none
  else
    let b := leAt f 13 1
    some { subtype := leAt f 12 1, port := bits b 2 0, locked := bit b 3, peerSeen := bit b 4, pkg := leAt f 14 1
           mode := leAt f 15 1 % 2, dims := leAt f 16 2 % 4096, epoch := leAt f 18 2, rxExpect := leAt f 20 2 % 4096 }

/-- A frame put on the line by a link end: it carries E, NAK and one class's credit limit, and CCLASS moves on (R725,
R727). -/
def Link.emit (l : Link) (type cls seq ccount : Nat) (body : List Byte) : Link × List Byte :=
  let k := nth { txq := [], txCount := 0, txLimit := 128, txLeft := 0, rxCount := 0, rxLimit := 128, partly := [], frames := 0 } l.classes l.cclass.toNat
  let f := frameBytes { type := type, cls := cls, seq := seq, ack := l.rxSeq.toNat, nak := l.nakDue, cclass := l.cclass.toNat
                        clim := k.rxLimit.toNat, ccount := ccount } body
  ({ l with wire := f, cclass := l.cclass + 1, nakDue := false, nakSent := l.nakSent || l.nakDue }, f)

end Sys2Proof.Machine
end

