-- ==== Sys2Proof/Machine/Rand.lean ====
section
/-! DEFINITION. The index generator of R255 with its seed adjustment and keys (R257, R258): every random draw of the
machine is a pure function of its indices. -/

namespace Sys2Proof.Machine

/-- Rotation left within 32 bits. -/
def rotl32 (n s : Nat) : Nat := (n * 2 ^ s) % 2 ^ 32 + n % 2 ^ 32 / 2 ^ (32 - s)

/-- The four words of the generator's state. -/
structure DrawState where
  a : Nat
  b : Nat
  c : Nat
  d : Nat
  deriving DecidableEq, Repr

/-- One pass of the loop of R255. -/
def drawPass (s : DrawState) : DrawState :=
  let a := (s.a + s.b) % 2 ^ 32
  let d := rotl32 (s.d ^^^ a) 16
  let c := (s.c + d) % 2 ^ 32
  let b := rotl32 (s.b ^^^ c) 12
  let a := (a + b) % 2 ^ 32
  let d := rotl32 (d ^^^ a) 8
  let c := (c + d) % 2 ^ 32
  let b := rotl32 (b ^^^ c) 20
  { a := a, b := b, c := c, d := d }

/-- The 32-bit draw of a 64-bit seed, a stream, a round and a 24-bit location (R255). -/
def draw (seed stream round location : Nat) : Nat :=
  let s : DrawState :=
    { a := (seed % 2 ^ 32) ^^^ 0x5A3C96E1
      b := (seed / 2 ^ 32 % 2 ^ 32) ^^^ 0xC2B17D48
      c := (round % 2 ^ 32) ^^^ 0x3E9F0A67
      d := ((stream * 2 ^ 24 + location) % 2 ^ 32) ^^^ 0x8D46E21B }
  let r := drawPass (drawPass s)
  r.a ^^^ r.b ^^^ r.c ^^^ r.d

/-- The location word: die in [23:22], tile in [21:14], neuron in [13:2], draw in [1:0] (R255). -/
def drawLoc (die tile neuron k : Nat) : Nat := die * 2 ^ 22 + tile * 2 ^ 14 + neuron * 4 + k

/-- The seed of a unit in image package `ipkg` (R257). -/
def unitSeed (seed ipkg : Nat) : Nat := seed ^^^ (ipkg % 256 * 2 ^ 56)

/-- The seed of stream 3: the stream's index in the image is XORed into [55:48] as well (R257). -/
def streamSeed (seed ipkg idx : Nat) : Nat := unitSeed seed ipkg ^^^ (idx % 256 * 2 ^ 48)

end Sys2Proof.Machine
end

