-- ==== Sys2Proof/Machine/RegTable.lean ====
section
/-! DEFINITION. The registers of each kind of register page, from offset 0x100: name, access type, writable bits, reset
value and the classes a field is restricted to, as the register tables of the chapters list them. The common header
(R887) is part of the page itself. Later chapters' pages stand in Machine/RegTable2.lean. -/

namespace Sys2Proof.Machine

/-- Access types of R19. -/
inductive Acc
  | ro | rw | wo | w1c | w1s | rwl
  deriving DecidableEq, Repr

/-- Classes that may write a field, beyond the permission of its page (R797): any class the page permits, or the
classes the register table names. -/
inductive WriteClass
  | any | internal | operator | operatorInternal | hostOperator | test
  deriving DecidableEq, Repr

/-- One register, or one part of a register whose bits differ in access. -/
structure Reg where
  off : Nat
  name : String
  acc : Acc
  /-- The bits that a write may change or act on. -/
  mask : Nat := 0
  reset : Nat := 0
  cls : WriteClass := .any
  deriving DecidableEq, Repr

/-- A read-only register. -/
def roReg (off : Nat) (name : String) (reset : Nat := 0) : Reg := { off := off, name := name, acc := .ro, reset := reset }

/-- A read/write register. -/
def rwReg (off : Nat) (name : String) (mask : Nat) (reset : Nat := 0) : Reg :=
  { off := off, name := name, acc := .rw, mask := mask, reset := reset }

/-- A write-only register. -/
def woReg (off : Nat) (name : String) (mask : Nat) : Reg := { off := off, name := name, acc := .wo, mask := mask }

/-- `n` like registers, `stride` bytes apart. -/
def regArray (n stride : Nat) (r : Reg) : List Reg :=
  (upto n).map (fun i => { r with off := r.off + stride * i })

/-! Page codes (R901, R902). -/

def codeIDENT := 0x0101
def codeCROOK := 0x0102
def codeAUTH := 0x0103
def codePROFILE := 0x0104
def codeHEALTH := 0x0105
def codeSHEP := 0x0201
def codePLACE := 0x0202
def codeMUSTER := 0x0203
def codeSPIKE := 0x0204
def codeDENSE := 0x0205
def codeANNEAL := 0x0206
def codeXFER := 0x0207
def codeCOMMONS := 0x0301
def codeNVS := 0x0302
def codeSTREAM := 0x0303
def codeGATE := 0x0401
def codeLINK := 0x0402
def codeCSI := 0x0501
def codeAER := 0x0502
def codePOWER := 0x0601
def codePADS := 0x0602
def codeWAKE := 0x0603
def codeRTC := 0x0604
def codeTHERM := 0x0701
def codeSTACK := 0x0702
def codeDIE := 0x0703
def codeROUTER := 0x0801
def codeNCORE := 0x0802
def codeTCORE := 0x0803
def codePORT := 0x0804
def codeBANK := 0x0805
def codeQDBG := 0x0806

/-- ROUTER (R189). -/
def regsROUTER : List Reg :=
  [ rwReg 0x100 "SLOT_SEL" 0x7
  , roReg 0x104 "SLOT_ID", roReg 0x108 "SLOT_BIND", roReg 0x10C "SLOT_CLOSE_MASK", roReg 0x110 "SLOT_EXIT"
  , roReg 0x114 "SLOT_LAP_MAX" 0x40, roReg 0x118 "SLOT_FOLD" ]
  ++ regArray 6 4 (roReg 0x120 "SLOT_LIST")
  ++ [ roReg 0x140 "CTL_EXIT", rwReg 0x150 "DROVE_ADDR" 0x7FF, roReg 0x154 "DROVE_DATA"
  , roReg 0x160 "DISC_MALFORMED", roReg 0x164 "DISC_MISADDR", roReg 0x168 "DISC_STALE"
  , roReg 0x16C "DISC_UNAUTH", roReg 0x170 "DISC_FENCED", woReg 0x17C "COUNT_CLEAR" 0x1F ]

/-- QDBG (R191, R192). -/
def regsQDBG : List Reg :=
  [ { off := 0x100, name := "SNAP_CTRL", acc := .w1s, mask := 0x5 }
  , roReg 0x104 "SNAP_PASTURE", roReg 0x108 "SNAP_ROUND", roReg 0x10C "SNAP_PHASE" 0x5 ]
  ++ regArray 6 4 (roReg 0x110 "QOCC") ++ regArray 5 4 (roReg 0x130 "INOCC")
  ++ regArray 6 4 (roReg 0x150 "OUTPOS") ++ regArray 6 4 (roReg 0x170 "OUTWAIT")
  ++ [ woReg 0x1FC "HW_CLEAR" 0x1 ] ++ regArray 36 4 (roReg 0x200 "HEAD")

/-- NCORE (R235), with its tile-order (R155), learning (R270) and anneal (R342) registers. -/
def regsNCORE : List Reg :=
  [ roReg 0x100 "CORE_STATE" 1, roReg 0x104 "AWAKE_COUNT", roReg 0x108 "SWEPT_ROUND", roReg 0x10C "LAST_ROUND"
  , roReg 0x110 "LIST_LIMIT", roReg 0x120 "CNT_ADD", roReg 0x124 "CNT_UPDATE", roReg 0x128 "CNT_FIRE"
  , roReg 0x12C "CNT_SAT", roReg 0x130 "CNT_FOLD_LOST", roReg 0x134 "CNT_REST", roReg 0x138 "CNT_BAD_SEND"
  , roReg 0x13C "CNT_BAD_LIST", roReg 0x140 "CNT_UNCORR", woReg 0x17C "COUNT_CLEAR" 0x1FF
  , roReg 0x200 "LEARN_CTRL", roReg 0x204 "LEARN_PRE", roReg 0x208 "LEARN_MOD", roReg 0x20C "SEED_LO"
  , roReg 0x210 "SEED_HI", roReg 0x214 "IMAGE_POS"
  , { off := 0x218, name := "LEARN_STATUS", acc := .w1c, mask := 0x7 }
  , roReg 0x220 "CNT_VISIT", roReg 0x224 "CNT_W_CHANGE", roReg 0x228 "CNT_W_CLAMP", roReg 0x22C "CNT_FULL_SCAN"
  , roReg 0x230 "DIRTY_COUNT", woReg 0x27C "LCOUNT_CLEAR" 0xF
  , roReg 0x300 "ANNEAL_CFG", roReg 0x304 "TEMP", roReg 0x308 "TEMP_NEXT", roReg 0x30C "EXPORT_DEST"
  , roReg 0x310 "EXPORT_ADDR0", roReg 0x314 "EXPORT_ADDR1", roReg 0x318 "EXPORT_RANGE", roReg 0x31C "ROUND_DE"
  , roReg 0x380 "TORDER_STATUS", roReg 0x384 "TORDER_COUNT" ] ++ regArray 16 4 (roReg 0x390 "LSYNC")

/-- TCORE (R302), with its tile-order registers (R155). -/
def regsTCORE : List Reg :=
  [ roReg 0x100 "CORE_STATE" 1, roReg 0x104 "ROUND_DESC", roReg 0x108 "WIN0_BASE", roReg 0x10C "WIN0_SIZE"
  , roReg 0x110 "WIN1_BASE", roReg 0x114 "WIN1_SIZE", roReg 0x118 "WIN_COUNT0", roReg 0x11C "WIN_COUNT1"
  , roReg 0x120 "PASS_POS", roReg 0x130 "CNT_STEP", roReg 0x134 "CNT_PASS", roReg 0x138 "CNT_TALLY"
  , roReg 0x13C "CNT_MAC", roReg 0x140 "CNT_SAT", roReg 0x144 "CNT_WIN_ERR", roReg 0x148 "CNT_FOLD_LOST"
  , roReg 0x14C "CNT_UNCORR", woReg 0x17C "COUNT_CLEAR" 0xFF
  , roReg 0x380 "TORDER_STATUS", roReg 0x384 "TORDER_COUNT" ] ++ regArray 16 4 (roReg 0x390 "LSYNC")

/-- PORT (R916). -/
def regsPORT : List Reg :=
  [ rwReg 0x100 "EGR_SEL" 0xFFF, roReg 0x104 "EGR_WORD0", roReg 0x108 "EGR_WORD1", roReg 0x10C "EGR_OWNER"
  , roReg 0x110 "CNT_EGRESS", roReg 0x114 "CNT_EGRESS_NONE", woReg 0x17C "COUNT_CLEAR" 0x3 ]

/-- The bank registers of R546, at the offsets of the BANK page plus `b`. -/
def regsBankAt (b : Nat) : List Reg :=
  [ roReg (0x100 + b) "BANK_STATE", rwReg (0x104 + b) "SCRUB_CTRL" 0x07FF0001 0x003C0001
  , roReg (0x108 + b) "SCRUB_POS", rwReg (0x10C + b) "SHEAR_CTRL" 0xFFFF0001 0x00640001
  , roReg (0x110 + b) "SHEAR_POS", rwReg (0x114 + b) "CE_BURST" 0xFFFF 0x10, rwReg (0x118 + b) "REMAP_SEL" 0x3F
  , roReg (0x11C + b) "REMAP_ENTRY", roReg (0x120 + b) "SPARES", roReg (0x130 + b) "CNT_CE_CHECK"
  , roReg (0x134 + b) "CNT_UE", roReg (0x138 + b) "CNT_CE_PASS", roReg (0x13C + b) "CNT_SCRUB_PASS"
  , roReg (0x140 + b) "CNT_SHEAR_PASS", roReg (0x144 + b) "CNT_REMAP", woReg (0x17C + b) "COUNT_CLEAR" 0x3F ]

/-- COMMONS (R304, R546); CB_EVENT and CB_EVENT_EN at 0x2F0 and 0x2F4 are fields of the page. -/
def regsCOMMONS : List Reg :=
  [ rwReg 0x100 "MERGE_CTRL" 0x1 1, roReg 0x104 "MERGE_STATE", roReg 0x108 "STAGE_QUEUE"
  , roReg 0x110 "CNT_ARRAY_READ", roReg 0x114 "CNT_MERGE_HIT", roReg 0x118 "CNT_LINES_SENT"
  , roReg 0x11C "CNT_SLOT_WAIT", roReg 0x120 "CNT_WRITE_HIT", woReg 0x17C "COUNT_CLEAR" 0x1F ] ++ regsBankAt 0x100
  ++ [ { off := 0x2F0, name := "CB_EVENT", acc := .w1c, mask := 0x1F }, rwReg 0x2F4 "CB_EVENT_EN" 0x1F 0x1F ]

/-- ANNEAL_E (R340). -/
def regsANNEAL : List Reg :=
  [ rwReg 0x100 "LADDER_SEL" 0x3F, roReg 0x104 "LADDER_STATE", roReg 0x108 "LADDER_CFG", roReg 0x10C "KICK_CFG"
  , roReg 0x110 "START_ROUND", roReg 0x114 "EXCH_INDEX", roReg 0x118 "BEST_LO", roReg 0x11C "BEST_HI"
  , roReg 0x120 "BEST_EXCH", roReg 0x124 "STAG_COUNT", rwReg 0x140 "RUNG_SEL" 0x7F, roReg 0x144 "RUNG_INFO"
  , roReg 0x148 "RUNG_TRIED", roReg 0x14C "RUNG_SWAPPED", rwReg 0x150 "REPLICA_SEL" 0x7F
  , roReg 0x154 "REPLICA_E_LO", roReg 0x158 "REPLICA_E_HI", roReg 0x15C "REPLICA_REPORT"
  , roReg 0x160 "CNT_RUNG_SKEW", woReg 0x17C "COUNT_CLEAR" 0x1 ]

/-- NVS (R548). -/
def regsNVS : List Reg :=
  [ roReg 0x100 "NV_STATE", rwReg 0x104 "AREA_SEL" 0x3F, roReg 0x108 "AREA_RANGE", roReg 0x10C "AREA_STATE"
  , roReg 0x110 "AREA_GEN", { off := 0x120, name := "SHELTER_CTRL", acc := .w1s, mask := 1, cls := .operator }
  , roReg 0x124 "SHELTER_STATUS", roReg 0x128 "SHELTER_TIME", rwReg 0x130 "WEAR_SEL" 0x17FFF
  , roReg 0x134 "WEAR_COUNT", roReg 0x138 "WEAR_FLAGS", roReg 0x140 "CNT_PAGE_WRITE", roReg 0x144 "CNT_PAGE_READ"
  , roReg 0x148 "CNT_REREAD", roReg 0x14C "CNT_SUSPECT", roReg 0x150 "CNT_STALE", roReg 0x154 "CNT_COPY_FAIL"
  , roReg 0x158 "CNT_VERIFY_RETRY", roReg 0x15C "CNT_WORN", woReg 0x17C "COUNT_CLEAR" 0xFF ]

/-- IDENT (R914): every field is read only; the values are computed. -/
def regsIDENT : List Reg :=
  [ roReg 0x100 "SIGNATURE" 0x56524F54, roReg 0x104 "LAYOUT" 0x00210100, roReg 0x108 "PKG_INFO", roReg 0x10C "GRADE"
  , roReg 0x110 "DIR_COUNT" 0x26, roReg 0x120 "BOOT_STATE", roReg 0x140 "EVT_ANY" ]
  ++ regArray 8 4 (roReg 0x180 "SUM_BASE") ++ regArray 32 4 (roReg 0x200 "SUM_DIE")
  ++ regArray 512 4 (roReg 0x400 "DIR")

end Sys2Proof.Machine
end

