-- ==== Sys2Proof/Machine/RegTable2.lean ====
section
/-! DEFINITION. The register tables of the base-die pages of the later chapters, and the table of every page kind. -/

namespace Sys2Proof.Machine

/-- SHEP (R381). The context, scoreboard and index registers show structured state. -/
def regsSHEP : List Reg :=
  [ rwReg 0x100 "CTX_SELECT" 0xFFF, roReg 0x104 "CTX_STATE", woReg 0x108 "CTX_CTRL" 0xF
  , rwReg 0x10C "CTX_RING_LO" 0xFFFFFFC0, rwReg 0x110 "CTX_RING_HI" 0xFFFFFFFF, rwReg 0x114 "CTX_SIZES" 0x1F1F
  , rwReg 0x118 "CTX_CQ_LO" 0xFFFFFFF0, rwReg 0x11C "CTX_CQ_HI" 0xFFFFFFFF, rwReg 0x120 "CTX_SHADOW_LO" 0xFFFFFFF8
  , rwReg 0x124 "CTX_SHADOW_HI" 0xFFFFFFFF, rwReg 0x128 "CTX_SCHED" 0x03FFFF07 0x00401000
  , rwReg 0x12C "CTX_IRQ" 0x9FFFFFFF 0x800, rwReg 0x130 "CTX_SEQ" 0xFFFF, roReg 0x134 "CTX_PI", roReg 0x138 "CTX_CI"
  , roReg 0x13C "CTX_CQ_PI", roReg 0x140 "CTX_CQ_CI", roReg 0x144 "CTX_COUNTS", roReg 0x148 "CTX_VTIME_LO"
  , roReg 0x14C "CTX_VTIME_HI", roReg 0x160 "SB_STATE", roReg 0x164 "SB_STATE2" 0x200, rwReg 0x170 "SB_SELECT" 0x1FF
  , roReg 0x174 "SB_ENTRY", roReg 0x178 "SB_CMD", roReg 0x17C "SB_PROGRESS", roReg 0x180 "CNT_FETCH"
  , roReg 0x184 "CNT_COMPLETE", roReg 0x188 "CNT_DUPLICATE", roReg 0x18C "CNT_OOS", roReg 0x190 "CNT_DB_RANGE"
  , roReg 0x194 "CNT_CQ_WAIT", woReg 0x1FC "COUNT_CLEAR" 0x3F ]

/-- MUSTER (R384). -/
def regsMUSTER : List Reg :=
  [ rwReg 0x100 "OBJ_SELECT" 0x3FFF, rwReg 0x104 "OBJ_CFG" 0x83FF0003, roReg 0x108 "OBJ_VALUE", roReg 0x10C "OBJ_AUX"
  , woReg 0x110 "OBJ_OP" 0xFFFF0003, roReg 0x114 "OBJ_WAITERS", rwReg 0x120 "PAST_SELECT" 0x3FF
  , roReg 0x124 "PAST_ROUND", roReg 0x128 "PAST_STATE", roReg 0x12C "PAST_PERIOD", roReg 0x130 "PAST_OVERRUNS"
  , roReg 0x134 "PAST_SKIPPED", roReg 0x140 "CNT_SYNC_OP", roReg 0x144 "CNT_SYNC_BAD", woReg 0x17C "COUNT_CLEAR" 0x7 ]

/-- SPIKE_E (R386). -/
def regsSPIKE : List Reg :=
  [ roReg 0x100 "RUNNING", roReg 0x104 "CNT_COMMANDS", roReg 0x108 "CNT_ROUNDS_RUN", roReg 0x10C "CNT_ROUNDS_SKIPPED" ]

/-- DENSE_E (R386). -/
def regsDENSE : List Reg :=
  [ roReg 0x100 "FREE_TCORES", roReg 0x104 "PASS_QUEUE", roReg 0x108 "CNT_PASSES", roReg 0x10C "CNT_STAGE_LINES" ]

/-- XFER_E (R387). -/
def regsXFER : List Reg :=
  [ rwReg 0x100 "CHAN_SELECT" 0xF, roReg 0x104 "CHAN_STATE", roReg 0x108 "CHAN_PROGRESS", roReg 0x10C "POOL_STATE" 0x80
  , roReg 0x120 "CNT_BYTES_LO", roReg 0x124 "CNT_BYTES_HI", roReg 0x128 "CNT_POOL_WAIT", woReg 0x17C "COUNT_CLEAR" 0x3 ]

/-- PLACE (R492). -/
def regsPLACE : List Reg :=
  [ rwReg 0x100 "PAGE_AREA_LO" 0xFFFFFFC0, rwReg 0x104 "PAGE_AREA_HI" 0xFFFFFFFF, rwReg 0x108 "PAGE_AREA_SIZE" 0x1FFFFF
  , roReg 0x10C "PAGE_AREA_USED", rwReg 0x120 "PAST_SELECT" 0x3FF, roReg 0x124 "PAST_INFO", roReg 0x128 "PAST_TILES"
  , roReg 0x12C "PAST_MAP", roReg 0x130 "PAST_PAGE_SIZE", roReg 0x134 "PAST_SLICE", roReg 0x138 "PAST_DIES"
  , rwReg 0x140 "UNIT_SEL" 0x1FFF, roReg 0x144 "UNIT_STATE", roReg 0x150 "CORE_COUNTS", roReg 0x154 "RESIDENT"
  , roReg 0x160 "CNT_PLACE", roReg 0x164 "CNT_NO_PLACE", roReg 0x168 "CNT_SHIFT", roReg 0x16C "CNT_SLICE"
  , roReg 0x170 "CNT_PEER_DROP", roReg 0x174 "CNT_CLEAR", woReg 0x17C "COUNT_CLEAR" 0x3F ]

/-- CROOK (R829), MBOX_REQ as 64 registers. -/
def regsCROOK : List Reg :=
  [ roReg 0x100 "FW_VERSION", roReg 0x104 "FW_ROLLBACK", roReg 0x108 "FW_COPIES", roReg 0x10C "FW_VERSION_A"
  , roReg 0x110 "FW_VERSION_B", { off := 0x120, name := "MBOX_CTRL", acc := .w1s, mask := 3 }
  , roReg 0x124 "MBOX_STATUS", roReg 0x130 "CNT_FRAMES", roReg 0x134 "CNT_REFUSED", woReg 0x17C "COUNT_CLEAR" 3 ]
  ++ regArray 64 4 (rwReg 0x200 "MBOX_REQ" 0xFFFFFFFF) ++ regArray 64 4 (roReg 0x300 "MBOX_RSP")

/-- AUTH (R831). -/
def regsAUTH : List Reg :=
  [ roReg 0x100 "AUTH_STATE", { off := 0x104, name := "AUTH_OPTIONS", acc := .rwl, mask := 7, cls := .internal }
  , roReg 0x108 "SERIAL_LO", roReg 0x10C "SERIAL_HI", roReg 0x110 "DBG_CHALLENGE_LO", roReg 0x114 "DBG_CHALLENGE_HI"
  , roReg 0x118 "DBG_REMAIN", rwReg 0x120 "DBG_WIN_SEL" 0x3FF, { off := 0x124, name := "DBG_CTRL", acc := .w1s, mask := 1 }
  , roReg 0x130 "AUDIT_HEAD", roReg 0x134 "AUDIT_ACK", roReg 0x138 "AUDIT_LOST", roReg 0x140 "CNT_NO_AUTH"
  , roReg 0x144 "CNT_UNLOCK_FAIL", woReg 0x17C "COUNT_CLEAR" 3 ]

/-- PROFILE (R644). -/
def regsPROFILE : List Reg :=
  [ roReg 0x100 "ACTIVE", roReg 0x104 "NEXT" ] ++ regArray 4 4 (roReg 0x110 "PROF_STATE")
  ++ [ roReg 0x120 "APPLY_STATUS", { off := 0x130, name := "RESET_REQ", acc := .wo, mask := 0x703FF, cls := .operator }
  , roReg 0x134 "RESET_STATUS", roReg 0x140 "CNT_FALLBACK", roReg 0x144 "CNT_RESET", woReg 0x17C "COUNT_CLEAR" 3 ]

/-- HEALTH (R881). -/
def regsHEALTH : List Reg :=
  [ rwReg 0x100 "UNIT_SEL" 0x1FFF, roReg 0x104 "UNIT_VIEW", roReg 0x108 "UNIT_LAST_TEST", roReg 0x10C "UNIT_FAILS"
  , { off := 0x110, name := "UNIT_CMD", acc := .wo, mask := 3, cls := .operator }, roReg 0x114 "UNIT_CMD_STATUS"
  , rwReg 0x120 "TEST_INTERVAL" 0xFF 0x18, rwReg 0x124 "WATCH_INTERVAL" 0x7FF 0x3C, rwReg 0x128 "WATCH_PASSES" 0x1F 0x18
  , rwReg 0x12C "DEFER_LIMIT" 0xFF 0x18, rwReg 0x130 "DIS_SEL" 0xF, roReg 0x134 "DIS_ENTRY", roReg 0x138 "DIS_TIME"
  , rwReg 0x140 "PAST_SELECT" 0x3FF, rwReg 0x144 "PAST_CTRL" 0xFFFFF003 0x00040000, roReg 0x148 "DIGEST_ROUND"
  , roReg 0x14C "DIGEST_LO", roReg 0x150 "DIGEST_HI", roReg 0x154 "LOG_STATE", roReg 0x158 "RESTART_STATE"
  , rwReg 0x160 "TRACE_BASE_LO" 0xFFFFFFF0, rwReg 0x164 "TRACE_BASE_HI" 0xFFFFFFFF, rwReg 0x168 "TRACE_CFG" 0xC7FF001F
  , roReg 0x16C "TRACE_PI", rwReg 0x170 "TRACE_CI" 0xFFFFFFFF, roReg 0x180 "CNT_TESTS", roReg 0x184 "CNT_TEST_FAIL"
  , roReg 0x188 "CNT_SHIFT_TEST", roReg 0x18C "CNT_FORCED", roReg 0x190 "CNT_MISMATCH", roReg 0x194 "CNT_RESTART"
  , roReg 0x198 "CNT_TRACE_DROP", roReg 0x19C "CNT_DIS_OVERFLOW" ]
  ++ regArray 4 4 { off := 0x1B0, name := "DIGEST_IN", acc := .wo, mask := 0xFFFFFFFF, cls := .internal }
  ++ [ woReg 0x1FC "COUNT_CLEAR" 0xFF ]

/-- STREAM (R715). The registers from 0x104 to 0x134 show the selected context. -/
def regsSTREAM : List Reg :=
  [ rwReg 0x100 "CTX_SEL" 0x1F, roReg 0x104 "CTX_STATE", roReg 0x108 "CTX_FIFO", roReg 0x10C "CTX_FIFO_HWM"
  , roReg 0x110 "CTX_FRAME", roReg 0x118 "CNT_RX", roReg 0x11C "CNT_ENTERED", roReg 0x120 "CNT_DROP"
  , roReg 0x124 "CNT_UNMAPPED", roReg 0x128 "CNT_RANGE", roReg 0x12C "CNT_MALFORMED", roReg 0x130 "CNT_STOPPED"
  , roReg 0x134 "CNT_UE", roReg 0x140 "MAP_FREE" 0x1000, woReg 0x17C "COUNT_CLEAR" 0x1FF ]

/-- GATE (R681). The registers from 0x124 to 0x138 show the selected egress ring. -/
def regsGATE : List Reg :=
  [ roReg 0x100 "LINK_STATE", rwReg 0x104 "MWIN_PKG" 0xFF, roReg 0x108 "MWIN_STATUS"
  , { off := 0x10C, name := "HOME_PKG", acc := .rw, mask := 0xFF, cls := .operatorInternal }
  , rwReg 0x110 "EVT_VECTOR" 0x800007FF, rwReg 0x118 "REMOTE_DB_CTX" 0x1FFF, woReg 0x11C "REMOTE_DB_VAL" 0xFFFFFFFF
  , rwReg 0x120 "ERING_SEL" 0x3F, rwReg 0x124 "ERING_BASE_LO" 0xFFFFFFF0, rwReg 0x128 "ERING_BASE_HI" 0xFFFFFFFF
  , rwReg 0x12C "ERING_CFG" 0xC7FF001F, roReg 0x130 "ERING_PI", rwReg 0x134 "ERING_CI" 0xFFFFFFFF
  , roReg 0x138 "ERING_WAIT", roReg 0x140 "CNT_LINK_DOWN", roReg 0x144 "CNT_GATE_LOST", roReg 0x148 "CNT_HOST_DISCARD"
  , roReg 0x14C "CNT_EGRESS", roReg 0x150 "CNT_EGRESS_LOST", roReg 0x154 "CNT_DMA_ERR", roReg 0x158 "CNT_MWIN_READ"
  , woReg 0x17C "COUNT_CLEAR" 0x7F ]

/-- LINK0–LINK5 (R754). 0x180–0x190 are machine registers, held on the page of LINK0. -/
def regsLINK : List Reg :=
  [ rwReg 0x100 "LINK_CTRL" 0x7 1, roReg 0x104 "LINK_STATE", rwReg 0x108 "LINK_TIMERS" 0xFFFFFFFF 0x00C8000A
  , rwReg 0x10C "LINK_WHISTLE" 0xFF01 0x1400, roReg 0x110 "TX_SEQ", roReg 0x114 "RX_SEQ"
  , roReg 0x118 "CREDITS" 0x80808080, roReg 0x120 "CNT_TX_FRAMES", roReg 0x124 "CNT_RX_FRAMES", roReg 0x128 "CNT_CRC"
  , roReg 0x12C "CNT_SEQ_DISCARD", roReg 0x130 "CNT_REPLAY", roReg 0x134 "CNT_REPLAY_FRAMES", roReg 0x138 "CNT_FEC_CORR"
  , roReg 0x13C "CNT_FEC_UNCORR", roReg 0x140 "CNT_DOWN", roReg 0x144 "CNT_HOLD_EXPIRE", roReg 0x148 "CNT_PATH_LOST"
  , roReg 0x14C "CNT_FENCED", roReg 0x150 "CNT_SYNC_LOST", roReg 0x154 "CNT_MISROUTE", roReg 0x158 "CNT_WAKE"
  , woReg 0x17C "COUNT_CLEAR" 0x7FFF
  , { off := 0x180, name := "TORUS_DIM", acc := .rwl, mask := 0xFFF, reset := 0x111, cls := .operatorInternal }
  , { off := 0x184, name := "TORUS_POS", acc := .rwl, mask := 0x777, cls := .operatorInternal }
  , rwReg 0x188 "LSMAP_SEL" 0xFF, roReg 0x18C "LSMAP", roReg 0x190 "LSMAP_VER" ]

/-- CSI0–CSI3 (R712). -/
def regsCSI : List Reg :=
  [ rwReg 0x100 "CSI_CFG" 0x7 4, roReg 0x104 "CSI_STATE", roReg 0x110 "CNT_ECC_CE", roReg 0x114 "CNT_ECC_UE"
  , roReg 0x118 "CNT_CRC", roReg 0x11C "CNT_VCX", roReg 0x120 "CNT_BAD_DT", roReg 0x124 "CNT_OTHER_DT"
  , roReg 0x128 "CNT_UNBOUND", roReg 0x12C "CNT_FRAME_ERR", roReg 0x130 "CNT_SOT", woReg 0x17C "COUNT_CLEAR" 0x1FF ]

/-- AER0–AER1 (R714). -/
def regsAER : List Reg :=
  [ roReg 0x100 "AER_STATE", roReg 0x104 "CNT_HANDSHAKE", roReg 0x108 "CNT_UNBOUND", woReg 0x17C "COUNT_CLEAR" 3 ]

/-- POWER (R611). -/
def regsPOWER : List Reg :=
  [ rwReg 0x100 "DOM_SEL" 0x3FF, roReg 0x104 "DOM_STATE"
  , { off := 0x108, name := "DOM_REQ", acc := .wo, mask := 3, cls := .operatorInternal }
  , rwReg 0x10C "DRAIN_LIMIT" 0x1FFFF 0x3E8, rwReg 0x110 "AUTO_CTRL" 3 3, rwReg 0x114 "IDLE_TIMES" 0xFFFFFFFF 0x00640064
  , { off := 0x120, name := "CAP", acc := .rw, mask := 0x1FF, cls := .operator }, roReg 0x124 "PKG_POWER" ]
  ++ regArray 4 4 (roReg 0x128 "DIE_POWER")
  ++ [ roReg 0x140 "CNT_DRAIN_TIMEOUT", roReg 0x144 "CNT_REFUSED", roReg 0x148 "CNT_ASLEEP", roReg 0x14C "CNT_ASLEEP_DROP"
  , roReg 0x150 "CNT_CAP_STEPS", woReg 0x17C "COUNT_CLEAR" 0x1F ]

/-- PADS (R613). -/
def regsPADS : List Reg :=
  [ { off := 0x100, name := "RELEASE", acc := .w1s, mask := 7 } ] ++ regArray 3 4 (roReg 0x104 "GROUP_STATE" 1)
  ++ regArray 3 4 { off := 0x120, name := "LATCH_SET", acc := .rw, mask := 3, cls := .operatorInternal }

/-- WAKE (R615). 0x114 and 0x118 show the selected source and slot. -/
def regsWAKE : List Reg :=
  [ rwReg 0x100 "SRC_EN" 0xFFFF, rwReg 0x104 "WAKE_ON_ACTIVITY" 0x3F, roReg 0x108 "PENDING", roReg 0x10C "LAST"
  , rwReg 0x110 "ROUTE_SEL" 0x7F, rwReg 0x114 "ROUTE_ENTRY" 0x0103FFFF, roReg 0x118 "CNT_WAKE"
  , roReg 0x11C "CNT_WHISTLE_SHORT", woReg 0x17C "COUNT_CLEAR" 3 ]

/-- RTC (R617). -/
def regsRTC : List Reg :=
  [ roReg 0x100 "TIME_LO", roReg 0x104 "TIME_HI", roReg 0x108 "TIME_MS", roReg 0x10C "RTC_STATUS"
  , rwReg 0x110 "SET_LO" 0xFFFFFFFF, rwReg 0x114 "SET_HI" 0xFFFFFFFF
  , { off := 0x118, name := "SET_CTRL", acc := .w1s, mask := 1, cls := .operator }
  , rwReg 0x120 "ALARM0_LO" 0xFFFFFFFF, rwReg 0x124 "ALARM0_HI" 0xFFFFFFFF, rwReg 0x128 "ALARM1_LO" 0xFFFFFFFF
  , rwReg 0x12C "ALARM1_HI" 0xFFFFFFFF, rwReg 0x130 "ALARM_CTRL" 0x103, rwReg 0x134 "ALARM0_PERIOD" 0xFFFFFFFF ]

/-- THERM (R576). -/
def regsTHERM : List Reg :=
  regArray 16 4 (roReg 0x100 "SENSOR")
  ++ [ { off := 0x140, name := "THROTTLE_START", acc := .rwl, mask := 0x7F, reset := 0x5F }
  , { off := 0x144, name := "HOLD_TEMP", acc := .rwl, mask := 0x7F, reset := 0x69 }
  , { off := 0x148, name := "RESUME_TEMP", acc := .rwl, mask := 0x7F, reset := 0x64 }, roReg 0x14C "TRIP_TEMP" 0x73
  , { off := 0x150, name := "HYST", acc := .rwl, mask := 7, reset := 2 } ]
  ++ regArray 4 4 (roReg 0x160 "DIE_THERM")
  ++ [ { off := 0x170, name := "TRIP_CLEAR", acc := .wo, mask := 0xF, cls := .operator }, roReg 0x180 "CNT_THROTTLE"
  , roReg 0x184 "CNT_HOLD", roReg 0x188 "CNT_TRIP", woReg 0x1FC "COUNT_CLEAR" 7 ]

/-- STACK (R574). 0x114–0x12C show the selected link and direction. -/
def regsSTACK : List Reg :=
  [ roReg 0x100 "HS_STATE", roReg 0x104 "BASE_ID" 0x1F01, rwReg 0x108 "LANE_CHECK_CTRL" 0x3FFF0001 0x00640001
  , rwReg 0x10C "LANE_CE_LIMIT" 0xFFFF 0x20, rwReg 0x110 "VL_SELECT" 0x7F, roReg 0x114 "VL_STATE"
  , roReg 0x118 "VL_SPARE_MAP" 0x7F7F7F7F, roReg 0x11C "VL_FAILED_LO", roReg 0x120 "VL_FAILED_MID"
  , roReg 0x124 "VL_FAILED_HI", roReg 0x128 "VL_LAST_CHECK", roReg 0x12C "VL_CE_LANE", roReg 0x140 "CNT_CHECKS"
  , roReg 0x144 "CNT_LANE_FAIL", roReg 0x148 "CNT_HALF", roReg 0x14C "CNT_FENCE", roReg 0x150 "CNT_GAP_WAIT"
  , woReg 0x17C "COUNT_CLEAR" 0x1F ]

/-- DIE0–DIE3 (R578). -/
def regsDIE : List Reg :=
  [ roReg 0x100 "DIE_ID", roReg 0x104 "DIE_STATE", roReg 0x108 "VOLT_TARGET", roReg 0x10C "VOLT_APPLIED" ]
  ++ regArray 4 4 (roReg 0x120 "DIE_SENSOR")
  ++ [ roReg 0x130 "CNT_STEPS", roReg 0x134 "CNT_STEP_WAIT", woReg 0x17C "COUNT_CLEAR" 3 ]

/-- One row per page kind: its code, its registers, the reset value of BLK_EVENT_EN and the defined events, as the
chapters' register and event tables give them. -/
def pageKinds : List (Nat × List Reg × Nat × Nat) :=
  [ (codeROUTER, regsROUTER, 0x1D, 0x1F), (codeNCORE, regsNCORE, 0x3D, 0x7F), (codeTCORE, regsTCORE, 0x1E, 0x1F)
  , (codePORT, regsPORT, 0x1, 0x1), (codeBANK, regsBankAt 0, 0x1F, 0x1F), (codeQDBG, regsQDBG, 0, 0)
  , (codeCOMMONS, regsCOMMONS, 0x3, 0x3), (codeANNEAL, regsANNEAL, 0xE, 0xF), (codeNVS, regsNVS, 0x7B, 0x7F)
  , (codeIDENT, regsIDENT, 0, 0), (codeSHEP, regsSHEP, 0x7D, 0x7F), (codeMUSTER, regsMUSTER, 0xE, 0xF)
  , (codeSPIKE, regsSPIKE, 0, 0), (codeDENSE, regsDENSE, 0, 0), (codeXFER, regsXFER, 0, 0)
  , (codePLACE, regsPLACE, 0x3B, 0x3F), (codeCROOK, regsCROOK, 0x7, 0x7), (codeAUTH, regsAUTH, 0x7F, 0x7F)
  , (codePROFILE, regsPROFILE, 0xF, 0xF), (codeHEALTH, regsHEALTH, 0x1FF, 0x1FF), (codeSTREAM, regsSTREAM, 0xF, 0xF)
  , (codeGATE, regsGATE, 0x7F, 0x7F), (codeLINK, regsLINK, 0x1EB, 0x1FF), (codeCSI, regsCSI, 0x3F, 0x3F)
  , (codeAER, regsAER, 0, 0), (codePOWER, regsPOWER, 0x17, 0x1F), (codePADS, regsPADS, 1, 1)
  , (codeWAKE, regsWAKE, 0x2, 0x3), (codeRTC, regsRTC, 0xF, 0xF), (codeTHERM, regsTHERM, 0xE, 0xF)
  , (codeSTACK, regsSTACK, 0x1E, 0x1F), (codeDIE, regsDIE, 0x2, 0x3) ]

/-- The row of a page kind; an absent page has no registers and no events (R886). -/
def pageKind (c : Nat) : List Reg × Nat × Nat :=
  match pageKinds.find? (fun r => r.1 == c) with
  | some r => r.2
  | none => ([], 0, 0)

/-- The registers of a page of identity code `c`. -/
def regsOf (c : Nat) : List Reg := (pageKind c).1

/-- The reset value of BLK_EVENT_EN of a page of code `c`. -/
def eventEnReset (c : Nat) : Nat := (pageKind c).2.1

/-- The events a page of code `c` can raise: the defined bits of BLK_EVENT. -/
def eventMask (c : Nat) : Nat := (pageKind c).2.2

/-- The base-die blocks in page order: page, code, number among its kind, and the domain it lies in (R901). -/
def directory : List (Nat × Nat × Nat × Nat) :=
  [ (0, codeIDENT, 0, 38), (1, codeCROOK, 0, 38), (2, codeAUTH, 0, 38), (3, codePROFILE, 0, 38), (4, codeHEALTH, 0, 42)
  , (8, codeSHEP, 0, 42), (9, codePLACE, 0, 42), (10, codeMUSTER, 0, 42), (11, codeSPIKE, 0, 42)
  , (12, codeDENSE, 0, 42), (13, codeANNEAL, 0, 42), (14, codeXFER, 0, 42), (16, codeCOMMONS, 0, 46), (17, codeNVS, 0, 98)
  , (18, codeSTREAM, 0, 298), (24, codeGATE, 0, 102), (25, codeLINK, 0, 106), (26, codeLINK, 1, 110)
  , (27, codeLINK, 2, 162), (28, codeLINK, 3, 166), (29, codeLINK, 4, 170), (30, codeLINK, 5, 174)
  , (32, codeCSI, 0, 226), (33, codeCSI, 1, 230), (34, codeCSI, 2, 234), (35, codeCSI, 3, 238), (36, codeAER, 0, 290)
  , (37, codeAER, 1, 294), (40, codePOWER, 0, 38), (41, codePADS, 0, 34), (42, codeWAKE, 0, 34), (43, codeRTC, 0, 34)
  , (48, codeTHERM, 0, 38), (49, codeSTACK, 0, 38), (50, codeDIE, 0, 38), (51, codeDIE, 1, 38), (52, codeDIE, 2, 38)
  , (53, codeDIE, 3, 38) ]

/-- The code of base-die page `n`; 0 for an absent page (R886). -/
def baseCode (n : Nat) : Nat :=
  match directory.find? (fun r => r.1 == n) with
  | some r => r.2.1
  | none => 0

/-! Page numbers of R901. -/

def pgIDENT := 0
def pgCROOK := 1
def pgAUTH := 2
def pgPROFILE := 3
def pgHEALTH := 4
def pgSHEP := 8
def pgPLACE := 9
def pgMUSTER := 10
def pgSPIKE := 11
def pgDENSE := 12
def pgANNEAL := 13
def pgXFER := 14
def pgCOMMONS := 16
def pgNVS := 17
def pgSTREAM := 18
def pgGATE := 24
def pgLINK := 25
def pgCSI := 32
def pgAER := 36
def pgPOWER := 40
def pgPADS := 41
def pgWAKE := 42
def pgRTC := 43
def pgTHERM := 48
def pgSTACK := 49
def pgDIE := 50

end Sys2Proof.Machine
end

