-- ==== Sys2Proof/Machine/Pages.lean ====
section
/-! DEFINITION. Operations on one register page: reading and writing a stored register, counters, raising an event,
recording a fault (R23, R893, R895–R897). -/

namespace Sys2Proof.Machine

/-- The reset value of register `off` of a page of code `c`. -/
def regReset (c off : Nat) : W32 :=
  match (regsOf c).find? (fun r => r.off == off && r.acc != Acc.wo) with
  | some r => BitVec.ofNat 32 r.reset
  | none => 0

/-- A page of code `c` at reset: the header of R887 and every register at its reset value. -/
def Page.init (c : Nat) : Page :=
  { code := c, ev := 0, en := BitVec.ofNat 32 (eventEnReset c), fault := 0, further := 0, fclass := 0, faddr := 0
    ce := 0, lock := false, refused := false, lastClass := 0, ev2 := 0
    en2 := if c = codeCOMMONS then 0x1F else 0, regs := [] }

/-- The stored value of register `off`. -/
def Page.rd (p : Page) (off : Nat) : Nat := (mapGet (regReset p.code) p.regs off).toNat

/-- Register `off` set to `v` (modulo 2^32). -/
def Page.wr (p : Page) (off v : Nat) : Page :=
  { p with regs := mapSet (regReset p.code) p.regs off (BitVec.ofNat 32 v) }

/-- Bits [hi:lo] of register `off`. -/
def Page.fld (p : Page) (off hi lo : Nat) : Nat := bits (p.rd off) hi lo

/-- Bits [hi:lo] of register `off` set to `v`. -/
def Page.setFld (p : Page) (off hi lo v : Nat) : Page := p.wr off (setBits (p.rd off) hi lo v)

/-- A saturating counter raised by `k`. -/
def Page.cntSat (p : Page) (off k : Nat) : Page := p.wr off (satAdd 32 (p.rd off) k)

/-- A wrapping counter raised by `k`. -/
def Page.cntWrap (p : Page) (off k : Nat) : Page := p.wr off (p.rd off + k)

/-- Event bit `i` set (R893). -/
def Page.raise (p : Page) (i : Nat) : Page := { p with ev := p.ev ||| BitVec.ofNat 32 (2 ^ i) }

/-- Event bit `i` of the second event register set (CB_EVENT, R547). -/
def Page.raise2 (p : Page) (i : Nat) : Page := { p with ev2 := p.ev2 ||| BitVec.ofNat 32 (2 ^ i) }

/-- A fault of status `st` recorded: the first sets CODE, CLASS and the address; a further one counts (R895, R896). -/
def Page.record (p : Page) (st addr cls : Nat) : Page :=
  if p.fault = 0 then
    { p with fault := BitVec.ofNat 8 st, faddr := BitVec.ofNat 32 addr, fclass := BitVec.ofNat 4 cls }
  else { p with further := BitVec.ofNat 8 (satAdd 8 p.further.toNat 1) }

/-- A refused access of class `cls`: NO_AUTHORITY recorded, REFUSED and LAST_CLASS set (R25, R898, R912). -/
def Page.refuse (p : Page) (addr cls : Nat) : Page :=
  let q := p.record 0x12 addr cls
  { q with refused := true, lastClass := BitVec.ofNat 4 cls }

/-- One corrected error counted in BLK_COUNT_CE, saturating (R897). -/
def Page.corrected (p : Page) : Page := { p with ce := BitVec.ofNat 32 (satAdd 32 p.ce.toNat 1) }

/-- An event of the page is pending (R893, R905). -/
def Page.pending (p : Page) : Bool := (p.ev &&& p.en) != 0 || (p.ev2 &&& p.en2) != 0

/-- The counters of a COUNT_CLEAR register at `off` of a page of code `c`: bit k clears the counter at base + 4·k,
for k below the count given (the register tables of the chapters). Registers whose clearing follows another rule are
handled by the COUNT_CLEAR meaning itself. -/
def countClearBase (c off : Nat) : Option (Nat × Nat) :=
  if c = codeROUTER && off == 0x17C then some (0x160, 5)
  else if c = codeNCORE && off == 0x17C then some (0x120, 9)
  else if c = codeNCORE && off == 0x27C then some (0x220, 4)
  else if c = codeTCORE && off == 0x17C then some (0x130, 8)
  else if c = codePORT && off == 0x17C then some (0x110, 2)
  else if c = codeBANK && off == 0x17C then some (0x130, 6)
  else if c = codeCOMMONS && off == 0x27C then some (0x230, 6)
  else if c = codeCOMMONS && off == 0x17C then some (0x110, 5)
  else if c = codeNVS && off == 0x17C then some (0x140, 8)
  else if c = codeSHEP && off == 0x1FC then some (0x180, 6)
  else if c = codePLACE && off == 0x17C then some (0x160, 6)
  else if c = codeCROOK && off == 0x17C then some (0x130, 2)
  else if c = codeAUTH && off == 0x17C then some (0x140, 2)
  else if c = codePROFILE && off == 0x17C then some (0x140, 2)
  else if c = codeHEALTH && off == 0x1FC then some (0x180, 8)
  else if c = codeGATE && off == 0x17C then some (0x140, 7)
  else if c = codeLINK && off == 0x17C then some (0x120, 15)
  else if c = codeCSI && off == 0x17C then some (0x110, 9)
  else if c = codeAER && off == 0x17C then some (0x104, 2)
  else if c = codePOWER && off == 0x17C then some (0x140, 5)
  else if c = codeTHERM && off == 0x1FC then some (0x180, 3)
  else if c = codeSTACK && off == 0x17C then some (0x140, 5)
  else if c = codeDIE && off == 0x17C then some (0x130, 2)
  else if c = codeMUSTER && off == 0x17C then some (0x140, 2)
  else if c = codeANNEAL && off == 0x17C then some (0x160, 1)
  else none

end Sys2Proof.Machine
end

