-- ==== Sys2Proof/Machine/BankOps.lean ====
section
/-! DEFINITION. The operations on a memory and on a bank of coded words: reading, writing, partial writes, correction,
scrubbing and the remap table (R495, R496, R503–R509, R512, R514, R970). -/

namespace Sys2Proof.Machine

/-! ### Plain memories -/

/-- What an unlisted address reads as. -/
def memDefault : Nat → Byte := fun _ => 0

/-- The byte at address `a`. -/
def memRead (m : Memory) (a : Nat) : Byte := mapGet memDefault m a

/-- Byte `b` written at address `a`, keeping the canonical form. -/
def memWrite (m : Memory) (a : Nat) (b : Byte) : Memory := mapSet memDefault m a b

/-- The canonical form of a memory: addresses strictly rising and no byte equal to the default. -/
abbrev Memory.wf (m : Memory) : Bool := mapWf memDefault m

/-- The `n` bytes from address `a`. -/
def memReadN (m : Memory) (a : Nat) : Nat → List Byte
  | 0 => []
  | n + 1 => memRead m a :: memReadN m (a + 1) n

/-- Bytes written from address `a` up, in rising order. -/
def memWriteN (m : Memory) (a : Nat) : List Byte → Memory
  | [] => m
  | b :: l => memWriteN (memWrite m a b) (a + 1) l

/-- The little-endian number of `n` bytes at address `a`. -/
def memLe (m : Memory) (a n : Nat) : Nat := leNat (memReadN m a n)

/-- The `n` low bytes of `v` written little-endian at address `a`. -/
def memPutLe (m : Memory) (a n v : Nat) : Memory := memWriteN m a (natLe n v)

/-! ### Coded words -/

/-- Data and check byte of the stored word `w`, in one pass over the cells. -/
def wordRaw : Memory → Nat → Nat × Nat
  | [], _ => (0, 0)
  | (a, b) :: m, w =>
    if a < 9 * w then wordRaw m w
    else if a < 9 * w + 8 then
      let r := wordRaw m w
      (r.1 + b.toNat * 256 ^ (a - 9 * w), r.2)
    else if a = 9 * w + 8 then (0, b.toNat)
    else (0, 0)

/-- Stored word `w` set to data `d` and check byte `k`. -/
def wordPut (m : Memory) (w d k : Nat) : Memory :=
  memWrite (memWriteN m (9 * w) (natLe 8 d)) (9 * w + 8) (BitVec.ofNat 8 k)

/-- The words of a memory with a listed cell, rising and without repeats: every other word is 0. -/
def listedWords : Memory → List Nat
  | [] => []
  | (a, _) :: m =>
    match listedWords m with
    | [] => [a / 9]
    | w :: l => if w = a / 9 then w :: l else a / 9 :: w :: l

/-! ### Banks -/

/-- A bank with the page that holds its registers. `off` is 0 on a BANK page and 0x100 on the COMMONS page; `plain`
marks the Crook bank and the stream buffers, which have no bank registers (R495, R546). -/
structure BankCtx where
  b : Bank
  pg : Page
  off : Nat
  words : Nat
  plain : Bool

/-- A bank event: BLK_EVENT on a BANK page, CB_EVENT on the COMMONS page, none on a plain bank (R547). -/
def BankCtx.raise (c : BankCtx) (i : Nat) : BankCtx :=
  if c.plain then c else if c.off = 0 then { c with pg := c.pg.raise i } else { c with pg := c.pg.raise2 i }

/-- The index of the spare that stands in for region `r`, if any. -/
def spareFor : List Spare → Nat → Nat → Option Nat
  | [], _, _ => none
  | s :: l, i, r => if (s.used || s.shadow) && s.region.toNat == r && !s.bad then some i else spareFor l (i + 1) r

/-- The array word that holds bank word `w` (R514, R520). -/
def BankCtx.phys (c : BankCtx) (w : Nat) : Nat :=
  match spareFor c.b.spares 0 (w / 128) with
  | some k => c.words + 128 * k + w % 128
  | none => w

/-- The byte offset that BLK_FAULT_ADDR records for array word `w` (R506): the bank's own offset, the matching offset
of the region a spare stands in for, or an offset past the bank for a free spare. -/
def BankCtx.faultOffset (c : BankCtx) (w : Nat) : Nat :=
  if w < c.words then 8 * w
  else
    let k := (w - c.words) / 128
    match c.b.spares[k]? with
    | some s => if s.used || s.shadow then 1024 * s.region.toNat + 8 * ((w - c.words) % 128) else 8 * w
    | none => 8 * w

/-- A data correction counted: BLK_COUNT_CE, CNT_CE_PASS and CE_BURST (R504, R509). -/
def BankCtx.countCe (c : BankCtx) : BankCtx :=
  let pg := c.pg.corrected
  if c.plain then { c with pg := pg }
  else
    let pg := pg.cntSat (0x138 + c.off) 1
    let c := { c with pg := pg }
    if !c.b.burst && pg.fld (0x114 + c.off) 15 0 ≤ pg.rd (0x138 + c.off) then
      { c with b := { c.b with burst := true } }.raise 1
    else c

/-- An uncorrectable word met: CNT_UE, UNCORRECTED, and BLK_FAULT with the word's offset (R506). -/
def BankCtx.countUe (c : BankCtx) (w : Nat) : BankCtx :=
  let c := if c.plain then c else { c with pg := c.pg.cntSat (0x134 + c.off) 1 }
  let c := c.raise 0
  { c with pg := c.pg.record 0x40 (c.faultOffset w) 0 }

/-- Array word `w` read with correction: none when uncorrectable (R503–R506). -/
def BankCtx.readPhys (c : BankCtx) (w : Nat) : BankCtx × Option Nat :=
  let r := wordRaw c.b.mem w
  if r = (0, 0) then (c, some 0)
  else match eccClass r.1 r.2 with
    | .clean => (c, some r.1)
    | .check => (c, some r.1)
    | .data j =>
      let d := flipBit r.1 j
      ({ c with b := { c.b with mem := wordPut c.b.mem w d (eccCheck d) } }.countCe, some d)
    | .uncorrectable => (c.countUe w, none)

/-- Bank word `w` read. -/
def BankCtx.read (c : BankCtx) (w : Nat) : BankCtx × Option Nat := c.readPhys (c.phys w)

/-- Bank word `w` written whole, with fresh check bits. -/
def BankCtx.write (c : BankCtx) (w d : Nat) : BankCtx :=
  { c with b := { c.b with mem := wordPut c.b.mem (c.phys w) (d % 2 ^ 64) (eccCheck (d % 2 ^ 64)) } }

/-- `n` bytes of value `v` written at byte offset `a`, within one word: a read of the word, then one write of the
merged word; an uncorrectable word is not written, and the answer is false (R970). -/
def BankCtx.writePart (c : BankCtx) (a n v : Nat) : BankCtx × Bool :=
  match c.read (a / 8) with
  | (c, some d) => (c.write (a / 8) (setBits d (8 * (a % 8) + 8 * n - 1) (8 * (a % 8)) v), true)
  | (c, none) => (c, false)

/-- `n` bytes at byte offset `a` read byte by byte; an uncorrectable word gives zeros and answers false. -/
def BankCtx.readBytes (c : BankCtx) (a : Nat) : Nat → BankCtx × List Byte × Bool
  | 0 => (c, [], true)
  | n + 1 =>
    match c.readBytes a n with
    | (c, l, ok) =>
      let r := wordRaw c.b.mem (c.phys ((a + n) / 8))
      let fresh := n == 0 || (a + n) % 8 == 0
      match eccClass r.1 r.2 with
      | .uncorrectable =>
        (if fresh then c.countUe (c.phys ((a + n) / 8)) else c, l ++ [0], false)
      | _ =>
        let x := c.read ((a + n) / 8)
        match x with
        | (c, some d) => (c, l ++ [BitVec.ofNat 8 (d >>> (8 * ((a + n) % 8)))], ok)
        | (c, none) => (c, l ++ [0], false)

/-- `n` whole words from word `w`; none where uncorrectable. -/
def BankCtx.readWords (c : BankCtx) (w : Nat) : Nat → BankCtx × List (Option Nat)
  | 0 => (c, [])
  | n + 1 =>
    let x := c.read w
    let y := x.1.readWords (w + 1) n
    (y.1, x.2 :: y.2)

/-- Whole words written from word `w` up. -/
def BankCtx.writeWords (c : BankCtx) (w : Nat) : List Nat → BankCtx
  | [] => c
  | d :: l => (c.write w d).writeWords (w + 1) l

/-- Every word written as 0 with valid check bits, bad and used spares keeping their table entries; the scrub pass
restarts at position 0 and the shearing order at region 0 (R512). -/
def BankCtx.init (c : BankCtx) : BankCtx :=
  let b := { c.b with mem := [], burst := false, urgent := none }
  if c.plain then { c with b := b }
  else { c with b := b, pg := ((c.pg.wr (0x108 + c.off) 0).wr (0x110 + c.off) 0).wr (0x138 + c.off) 0 }

/-- Spares that are free: not used, not a shadow, not bad. -/
def freeSpare : List Spare → Nat → Option Nat
  | [], _ => none
  | s :: l, i => if !s.used && !s.shadow && !s.bad then some i else freeSpare l (i + 1)

/-- How many spares are free. -/
def freeCount (l : List Spare) : Nat := (l.filter (fun s => !s.used && !s.shadow && !s.bad)).length

/-- A spare table entry that is free. -/
def Spare.free : Spare := { region := 0, used := false, shadow := false, bad := false }

/-- A bank at reset with `n` spare regions. -/
def Bank.init (n : Nat) : Bank :=
  { mem := [], spares := List.replicate n Spare.free, burst := false, urgent := none, fenced := false, retainAt := 0 }

/-- A scrubber's visit to array word `w` (R505, R507): a data correction is written back, a check-bit error rewritten
and counted in CNT_CE_CHECK, an uncorrectable word left and reported. The answer says whether it was uncorrectable. -/
def BankCtx.scrubWord (c : BankCtx) (w : Nat) : BankCtx × Bool :=
  let r := wordRaw c.b.mem w
  match eccClass r.1 r.2 with
  | .clean => (c, false)
  | .check =>
    let c := { c with b := { c.b with mem := wordPut c.b.mem w r.1 (eccCheck r.1) } }
    (if c.plain then c else { c with pg := c.pg.cntSat (0x130 + c.off) 1 }, false)
  | .data j =>
    let d := flipBit r.1 j
    ({ c with b := { c.b with mem := wordPut c.b.mem w d (eccCheck d) } }.countCe, false)
  | .uncorrectable => (c.countUe w, true)

end Sys2Proof.Machine
end

