-- ==== Sys2Proof/Machine/Work.lean ====
section
/-! DEFINITION. A tile at work: its default state, the core's access to its own bank, the outbound queue and the
overflow fold, and the control messages the core sends (R149, R166, R167, R184, R187). -/

namespace Sys2Proof.Machine

/-- A drove entry storage word at reset. -/
def droveDefault : Nat → Flit := fun _ => 0

/-- An accumulator at reset (R142). -/
def tallyDefault : Nat → Int := fun _ => 0

/-- An empty slot. -/
def Slot.empty : Slot :=
  { valid := false, running := false, pasture := 0, bindOut := 0, bindIn := 0, closeMask := List.replicate 6 0
    exitX := 0, exitY := 0, lapMax := 64, foldBase := 0, foldSize := 0
    lists := List.replicate 6 { base := 0, len := 0 } }

/-- A router output with nothing bound. -/
def OutPos.idle : OutPos :=
  { slot := none, pos := 0, inLap := false, n := 0, waitOn := none, owesClose := false, atLap := false, done := false
    stopped := false }

/-- A router at reset (R188). -/
def Router.init : Router :=
  { drove := [], slots := List.replicate 8 Slot.empty, inputs := List.replicate 5 []
    outs := List.replicate 6 OutPos.idle, vfeed := { events := [], paces := [], closes := none }, laps := 0
    skipping := List.replicate 5 false }

/-- Empty queues. -/
def TileQueues.init : TileQueues :=
  { axon := [], outbound := [], foldHead := 0, foldCount := 0, foldBase := 0, foldSize := 0, data := [], command := []
    sync := [], high := List.replicate 6 0, outwait := List.replicate 6 0 }

/-- A neuron core at reset (R233, R269). -/
def NeuronCore.init : NeuronCore :=
  { tally := [], satFlag := false, marks := [], modM := 0, traceFired := false, recount := false, clamped := false }

/-- The code of the CORE page of a tile kind. -/
def coreCode : TileKind → Nat
  | .neuron => codeNCORE
  | .tensor => codeTCORE
  | .port => codePORT

/-- A tile of a kind at reset. A port tile has no BANK page (R885). -/
def Tile.init (k : TileKind) : Tile :=
  { pRouter := Page.init codeROUTER, pCore := Page.init (coreCode k)
    pBank := Page.init (if k = .port then 0 else codeBANK), pQdbg := Page.init codeQDBG
    rt := Router.init, q := TileQueues.init, dbg := { frozen := false, stallHeld := false, snap := [] }
    orders := { lsync := List.replicate 16 0, current := none }, nc := NeuronCore.init, tc := { chain := none }
    bank := Bank.init (if k = .tensor then 8 else if k = .neuron then 4 else 0), digest := 0xFFFFFFFF, egress := [] }

/-- The tile of key die·256 + t at reset. -/
def tileDefault (key : Nat) : Tile := Tile.init (tileKind (key % 256))

/-- A core at work on its tile: the tile, the control messages sent so far, whether a fault met makes the pasture hold
with UNCORRECTED at its next muster, and whether a breach makes it hold with BAD_OPERAND (R232, R299, R300). -/
structure Work where
  t : Tile
  tx : List (List Nat) := []
  hold : Bool := false
  breach : Bool := false

/-- The bank of a tile with its page. -/
def Tile.bankCtx (t : Tile) : BankCtx :=
  { b := t.bank, pg := t.pBank, off := 0, words := if t.pCore.code = codeTCORE then 131072 else 65536, plain := false }

/-- The tile with its bank and BANK page replaced. -/
def Tile.putBank (t : Tile) (c : BankCtx) : Tile := { t with bank := c.b, pBank := c.pg }

/-- The core reads word `w` of its own bank; a data correction counts in the core's BLK_COUNT_CE as well (R897). -/
def Work.read (k : Work) (w : Nat) : Work × Option Nat :=
  let r := k.t.bankCtx.read w
  let t := k.t.putBank r.1
  let t := if r.1.pg.ce = k.t.pBank.ce then t else { t with pCore := t.pCore.corrected }
  ({ k with t := t }, r.2)

/-- The core writes a whole word of its own bank. -/
def Work.write (k : Work) (w d : Nat) : Work := { k with t := k.t.putBank (k.t.bankCtx.write w d) }

/-- The core writes `n` bytes within one word (R970); false when the word is uncorrectable. -/
def Work.writePart (k : Work) (a n v : Nat) : Work × Bool :=
  let r := k.t.bankCtx.writePart a n v
  let t := k.t.putBank r.1
  let t := if r.1.pg.ce = k.t.pBank.ce then t else { t with pCore := t.pCore.corrected }
  ({ k with t := t }, r.2)

/-- The core page changed by `f`. -/
def Work.core (k : Work) (f : Page → Page) : Work := { k with t := { k.t with pCore := f k.t.pCore } }

/-- A control message sent. -/
def Work.send (k : Work) (m : List Nat) : Work := { k with tx := k.tx ++ [m] }

/-- `n` consecutive words read from word `w`. -/
def Work.reads (k : Work) (w : Nat) : Nat → Work × List (Option Nat)
  | 0 => (k, [])
  | n + 1 =>
    let x := k.read w
    let y := x.1.reads (w + 1) n
    (y.1, x.2 :: y.2)

/-! ### Outbound queue and overflow fold -/

/-- Flits in the outbound queue. -/
def outFlits (q : TileQueues) : Nat := (q.outbound.map (fun m => m.1.length)).sum

/-- The high-water mark of queue `i` raised to occupancy `n` (R191). -/
def raiseHigh (q : TileQueues) (i n : Nat) : TileQueues :=
  { q with high := listSet q.high i (BitVec.ofNat 16 (max n (nth 0 q.high i).toNat)) }

/-- The word of the bank that holds fold flit `i`, counted from the oldest. -/
def foldWord (q : TileQueues) (i : Nat) : Nat := (q.foldBase / 8) + (q.foldHead + i) % (q.foldSize / 8)

/-- The flits of a message, by their data words, placed at the tail of the fold. -/
def foldPut (k : Work) : List Nat → Work
  | [] => k
  | d :: l =>
    let k' := k.write (foldWord k.t.q k.t.q.foldCount) d
    foldPut { k' with t := { k'.t with q := { k'.t.q with foldCount := k'.t.q.foldCount + 1 } } } l

/-- A message that a core emits is hashed into the round digest, lost or not, with PKG, DIE, X and Y of its header
zeroed (R835). -/
def Work.hash (k : Work) : List Nat → Work
  | [] => k
  | h :: l =>
    let bytes := natLe 8 (setBits h 59 42 0) ++ l.flatMap (natLe 8)
    { k with t := { k.t with digest := BitVec.ofNat 32 (crcBytes k.t.digest.toNat bytes) } }

/-- A core emits a data-plane message: to the outbound queue while it has room and the fold is empty, else to the fold,
else it is lost, counted in the counter at `lost` and raising event `ev` (R166, R187, R300). -/
def Work.emit (k : Work) (lost ev : Nat) (m : List Nat) : Work :=
  let k := k.hash m
  let q := k.t.q
  if q.foldCount = 0 && outFlits q + m.length ≤ 128 then
    let q := { q with outbound := q.outbound ++ [(m.map mkFlit, 0)] }
    { k with t := { k.t with q := raiseHigh q 1 (outFlits q) } }
  else if q.foldCount + m.length ≤ q.foldSize / 8 then
    let k := foldPut k m
    { k with t := { k.t with q := raiseHigh k.t.q 2 k.t.q.foldCount } }
  else k.core (fun p => (p.cntSat lost 1).raise ev)

/-- The oldest flit leaves the fold. -/
def foldDrop (q : TileQueues) (n : Nat) : TileQueues :=
  { q with foldHead := if q.foldSize / 8 = 0 then 0 else (q.foldHead + n) % (q.foldSize / 8), foldCount := q.foldCount - n }

/-- The fold passes its oldest message into the outbound queue: none when the fold is empty or the queue has no room.
A message with an uncorrectable flit is discarded and makes the pasture hold (R167, R184). -/
def foldMoveOne (k : Work) : Option Work :=
  let q := k.t.q
  if q.foldCount = 0 then none
  else
    let r := k.read (foldWord q 0)
    match r.2 with
    | none => some { r.1 with t := { r.1.t with q := foldDrop r.1.t.q 1 }, hold := true }
    | some h =>
      let n := if (Hdr.of h).kind = kFLOCK then 2 else 1
      if 128 < outFlits q + n then none
      else if n = 1 then
        let q := foldDrop q 1
        let q := { q with outbound := q.outbound ++ [([mkFlit h], 0)] }
        some { r.1 with t := { r.1.t with q := raiseHigh q 1 (outFlits q) } }
      else
        let r2 := r.1.read (foldWord q 1)
        let q := foldDrop q 2
        match r2.2 with
        | none => some { r2.1 with t := { r2.1.t with q := q }, hold := true }
        | some m =>
          let q := { q with outbound := q.outbound ++ [([mkFlit h, mkFlit m], 0)] }
          some { r2.1 with t := { r2.1.t with q := raiseHigh q 1 (outFlits q) } }

/-- At the start of a lap the fold passes messages into the outbound queue until the queue has no room for the next or
the fold is empty (R167). -/
def foldMove (k : Work) : Work := iterOpt foldMoveOne (k.t.q.foldCount + 1) k

end Sys2Proof.Machine
end

