-- ==== Sys2Proof/Machine/NeuronData.lean ====
section
/-! DEFINITION. What a neuron core stores and its fixed-point functions: the neuron record, the breed record, leak,
spin and noise (R195, R198, R214, R216, R218), and the bank places of a neuron core (R497, R237). -/

namespace Sys2Proof.Machine

/-! Byte offsets of R497 and R237. -/

def offParams := 0x67000
def offRules := 0x67200
def offLearnHdr := 0x67280
def offDirty := 0x67400
def offAxons := 0x68000
def offSends := 0x6C000
def offRecords := 0x70000

/-- A neuron record (R195). -/
structure Neuron where
  v : Int
  u : Int
  thrOff : Int
  stamp : Nat
  post : Nat
  refrac : Nat
  breed : Nat
  live : Bool
  fired : Bool
  probe : Bool
  /-- The reserved bits, [87] and [127:88], kept as they stand. -/
  rest : Nat
  deriving DecidableEq, Repr

/-- The record held in two bank words. -/
def Neuron.of (w0 w1 : Nat) : Neuron :=
  { v := sext 16 (bits w0 15 0), u := sext 16 (bits w0 31 16), thrOff := sext 16 (bits w0 47 32), stamp := bits w0 63 48
    post := bits w1 7 0, refrac := bits w1 15 8, breed := bits w1 19 16
    live := bit w1 20, fired := bit w1 21, probe := bit w1 22, rest := bits w1 63 23 }

/-- The low word of a record. -/
def Neuron.word0 (n : Neuron) : Nat :=
  unsext 16 n.v + unsext 16 n.u * 2 ^ 16 + unsext 16 n.thrOff * 2 ^ 32 + n.stamp % 65536 * 2 ^ 48

/-- The high word of a record. -/
def Neuron.word1 (n : Neuron) : Nat :=
  n.post % 256 + n.refrac % 256 * 2 ^ 8 + n.breed % 16 * 2 ^ 16 + b2n n.live * 2 ^ 20 + b2n n.fired * 2 ^ 21
    + b2n n.probe * 2 ^ 22 + n.rest * 2 ^ 23

/-- A breed record (R198, R241). -/
structure Breed where
  kind : Nat
  resetMode : Bool
  inShift : Nat
  refractory : Nat
  decayV : Nat
  decayU : Nat
  threshold : Int
  vReset : Int
  vMin : Int
  bias : Int
  noiseAmp : Nat
  uJump : Int
  resA : Int
  resB : Int
  postDecay : Nat
  postJump : Nat
  traceEn : Bool
  deriving DecidableEq, Repr

/-- The breed held in four bank words. -/
def Breed.of (a b c d : Nat) : Breed :=
  { kind := bits a 2 0, resetMode := bit a 3, inShift := bits a 7 4, refractory := bits a 15 8, decayV := bits a 31 16
    decayU := bits a 47 32, threshold := sext 16 (bits a 63 48)
    vReset := sext 16 (bits b 15 0), vMin := sext 16 (bits b 31 16), bias := sext 16 (bits b 47 32)
    noiseAmp := bits b 63 48, uJump := sext 16 (bits c 15 0), resA := sext 16 (bits c 47 32)
    resB := sext 16 (bits c 63 48), postDecay := bits d 15 0, postJump := bits d 23 16, traceEn := bit d 24 }

/-! Breed kinds of R199. -/

def bADAPTIVE := 1
def bRESONATE := 2
def bSTOCHASTIC := 3
def bRELAY := 4

/-- A breed is awake when its BIAS or NOISE_AMP is non-zero (R200). -/
def Breed.awake (b : Breed) : Bool := b.bias != 0 || b.noiseAmp != 0

/-- `rnd32(a)` = (a + 2^31) asr 32 (R214). -/
def rnd32 (a : Int) : Int := asr (a + 2 ^ 31) 32

/-- The factor p of R214 after the loop, with q the running square. -/
def leakLoop : Nat → Nat → Int → Int → Int
  | 0, _, p, _ => p
  | f + 1, k, p, q =>
    if k = 0 then p
    else
      let p := if k % 2 = 1 then rnd32 (p * q) else p
      let k := k / 2
      leakLoop f k p (if k = 0 then q else rnd32 (q * q))

/-- `leak(x, d, k)` (R214). -/
def leak (x : Int) (d k : Nat) : Int :=
  if d = 0 then x else sat16 (rne (x * leakLoop 17 k (2 ^ 32) ((d : Int) * 65536)) 32)

/-- A complex number in Q1.31. -/
structure Cplx where
  re : Int
  im : Int

/-- A complex product with each part formed exactly and rounded by (a + 2^30) asr 31 (R216). -/
def Cplx.mul (p q : Cplx) : Cplx :=
  { re := asr (p.re * q.re - p.im * q.im + 2 ^ 30) 31, im := asr (p.re * q.im + p.im * q.re + 2 ^ 30) 31 }

/-- c^k by the loop of R214 in complex arithmetic (R216). -/
def spinLoop : Nat → Nat → Cplx → Cplx → Cplx
  | 0, _, p, _ => p
  | f + 1, k, p, q =>
    if k = 0 then p
    else
      let p := if k % 2 = 1 then p.mul q else p
      let k := k / 2
      spinLoop f k p (if k = 0 then q else q.mul q)

/-- `spin(v, u, A, B, k)` (R216). -/
def spin (v u a b : Int) (k : Nat) : Int × Int :=
  let p := spinLoop 17 k { re := 2 ^ 31, im := 0 } { re := a * 65536, im := b * 65536 }
  (sat16 (rne (v * p.re - u * p.im) 31), sat16 (rne (v * p.im + u * p.re) 31))

/-- `noise(n)` of a draw and an amplitude: (m × AMP) asr 15 (R218). -/
def noiseOf (r amp : Nat) : Int := asr (sext 16 (bits r 31 16) * (amp : Int)) 15

/-- What an update leaves: the record, whether it fired, whether it was refractory, the field f = v − θ before the
firing test (R312), and whether a sum was clamped (R338). -/
structure Updated where
  n : Neuron
  fire : Bool
  refr : Bool
  field : Int
  clamped : Bool

/-- One neuron's update in INTEGRATE of round `n`, with accumulator `tally0` and noise value `noise` (R213, R243).
`learn` is LEARN_CTRL.EN. -/
def updateNeuron (b : Breed) (nr : Neuron) (n : Nat) (tally0 noise : Int) (learn : Bool) : Updated :=
  let k := subMod 65536 n nr.stamp
  let refr := nr.refrac ≥ k && nr.refrac > 0
  let refrac := nr.refrac - k
  let x0 := asr tally0 b.inShift
  let x := if refr then 0 else sat16 x0
  let post := if learn && b.traceEn then (leak nr.post b.postDecay k).toNat else nr.post
  if b.kind = bRELAY then
    let v := sat16 (x + b.bias)
    let fire := !refr && decide (v ≥ b.threshold + nr.thrOff)
    let post := if fire && learn && b.traceEn then min 255 (post + b.postJump) else post
    { n := { nr with v := 0, refrac := if fire then b.refractory else refrac, fired := fire, stamp := n % 65536, post := post }
      fire := fire, refr := refr, field := v - (b.threshold + nr.thrOff)
      clamped := sat16 x0 != x0 || v != x + b.bias }
  else
    let vu := if b.kind = bRESONATE then spin nr.v nr.u b.resA b.resB k else (leak nr.v b.decayV k, nr.u)
    let u := if b.kind = bADAPTIVE then leak vu.2 b.decayU k else vu.2
    let v := max (sat16 (vu.1 + x + b.bias)) b.vMin
    let theta := b.threshold + nr.thrOff + (if b.kind = bADAPTIVE then u else 0)
    let test := if b.kind = bSTOCHASTIC then v + noise else v
    let fire := !refr && decide (test ≥ theta)
    let v1 := if fire then (if b.resetMode then sat16 (v - theta) else b.vReset) else v
    let u1 :=
      if fire && b.kind = bADAPTIVE then sat16 (u + b.uJump)
      else if fire && b.kind = bRESONATE && !b.resetMode then 0 else u
    let post := if fire && learn && b.traceEn then min 255 (post + b.postJump) else post
    { n := { nr with v := v1, u := u1, refrac := if fire then b.refractory else refrac, fired := fire
                     stamp := n % 65536, post := post }
      fire := fire, refr := refr, field := v - theta
      clamped := sat16 x0 != x0 || sat16 (vu.1 + x + b.bias) != vu.1 + x + b.bias }

/-- A reset to rest in round `n` (R211, R254). -/
def Neuron.toRest (nr : Neuron) (n : Nat) : Neuron :=
  { nr with v := 0, u := 0, refrac := 0, fired := false, stamp := n % 65536, post := 0 }

/-- A refresh of age `a` in round `n` (R209, R253). -/
def Neuron.refresh (b : Breed) (nr : Neuron) (n a : Nat) (learn : Bool) : Neuron :=
  let vu := if b.kind = bRESONATE then spin nr.v nr.u b.resA b.resB a else (leak nr.v b.decayV a, nr.u)
  let u := if b.kind = bADAPTIVE then leak vu.2 b.decayU a else vu.2
  { nr with v := vu.1, u := u, refrac := nr.refrac - a, stamp := n % 65536
            post := if learn then (leak nr.post b.postDecay a).toNat else nr.post }

/-- The age of a 16-bit stamp in round `n` for a core last swept in round `swept` (R209): n − F, F the full stamp. -/
def stampAge (swept stamp n : Nat) : Nat :=
  let s := sext 16 (subMod 65536 stamp (swept % 65536))
  (((n : Int) - ((swept : Int) + s)) % (2 ^ 32 : Int)).toNat

end Sys2Proof.Machine
end

