-- ==== Sys2Proof/Machine/Neuron.lean ====
section
/-! DEFINITION. The neuron core at work: synapse expansion, tallies, INTEGRATE with its stamp sweep, firing and sending,
probes, anneal sums and exports (R109, R114–R119, R196–R236, R314, R316). -/

namespace Sys2Proof.Machine

/-! ### Small parts -/

/-- Event bits of NCORE (R236). -/
def evFoldLost := 0
def evSaturated := 1
def evBadSend := 2
def evBadList := 3
def evBadBreed := 4
def evUncorr := 5
def evRest := 6

/-- A core fault with its counter and event (R232). -/
def Work.count (k : Work) (cnt ev : Nat) : Work := k.core (fun p => (p.cntSat cnt 1).raise ev)

/-- An uncorrectable word met by the core; the pasture holds (R232). -/
def Work.uncorr (k : Work) : Work := { k.count 0x140 evUncorr with hold := true }

/-- A list fault (R232). -/
def Work.badList (k : Work) : Work := k.count 0x13C evBadList

/-- LEARN_CTRL.EN. -/
def Work.learnEn (k : Work) : Bool := bit (k.t.pCore.rd 0x200) 0

/-- LIST_LIMIT. -/
def Work.listLimit (k : Work) : Nat := k.t.pCore.fld 0x110 18 0

/-- The 32-bit word at byte offset `a`, a multiple of 4. -/
def Work.read32 (k : Work) (a : Nat) : Work × Option Nat :=
  let r := k.read (a / 8)
  (r.1, r.2.map (fun d => if a % 8 < 4 then bits d 31 0 else bits d 63 32))

/-- A contribution `c` added into accumulator `a` of delay bank `b`, saturating, with its counts (R116, R117, R204). -/
def Work.addTally (k : Work) (b a : Nat) (c : Int) : Work :=
  let key := b * 4096 + a
  let s := mapGet tallyDefault k.t.nc.tally key + c
  let v := clampI (-8388608) 8388607 s
  let k := k.core (fun p => p.cntWrap 0x120 1)
  let k := { k with t := { k.t with nc := { k.t.nc with tally := mapSet tallyDefault k.t.nc.tally key v } } }
  if v = s then k
  else
    let k := if k.t.nc.satFlag then k else k.count 0x12C evSaturated
    { k with t := { k.t with nc := { k.t.nc with satFlag := true, clamped := true } } }

/-! ### Synapse expansion (R201–R206, R244, R245) -/

/-- Expansion in progress: the core, and the bank word read last with its value. -/
structure Expand where
  k : Work
  cache : Option (Nat × Option Nat)

/-- The value of bank word `w`, read once while it stays the word in use; an uncorrectable word counts once (R232). -/
def Expand.word (e : Expand) (w : Nat) : Expand × Option Nat :=
  match e.cache with
  | some (w', v) =>
    if w' = w then (e, v)
    else
      let r := e.k.read w
      ({ k := if r.2.isNone then r.1.uncorr else r.1, cache := some (w, r.2) }, r.2)
  | none =>
    let r := e.k.read w
    ({ k := if r.2.isNone then r.1.uncorr else r.1, cache := some (w, r.2) }, r.2)

/-- The `n` ≤ 4 bytes at byte offset `a`; none when a word that holds one of them is uncorrectable. -/
def Expand.bytes (e : Expand) (a n : Nat) : Expand × Option Nat :=
  let r := e.word (a / 8)
  if (a + n - 1) / 8 = a / 8 then (r.1, r.2.map (fun d => (d >>> (8 * (a % 8))) % 2 ^ (8 * n)))
  else
    let s := r.1.word (a / 8 + 1)
    match r.2, s.2 with
    | some d, some d' => (s.1, some (((d + d' * 2 ^ 64) >>> (8 * (a % 8))) % 2 ^ (8 * n)))
    | _, _ => (s.1, none)

/-- The synapses of a list from byte offset `a`, `n` of them, of a format and an S16 shift, up to the list limit. The
answer says whether all of them lay below the limit. -/
def expandList (fmt shift limit : Nat) : Nat → Nat → Expand → Expand × Bool
  | 0, _, e => (e, true)
  | n + 1, a, e =>
    let sz := fmt + 2
    if limit < a + sz then (e, false)
    else
      let r := e.bytes a sz
      let e := match r.2 with
        | none => r.1
        | some w =>
          if fmt = 0 then { r.1 with k := r.1.k.addTally 0 (bits w 11 0) (sext 4 (bits w 15 12) * (2 ^ shift : Nat)) }
          else { r.1 with k := r.1.k.addTally (bits w 13 12) (bits w 11 0) (sext 8 (bits w 23 16)) }
      expandList fmt shift limit n (a + sz) e

/-- Expansion of a descriptor `d` and its chain, at most `f` descriptors; the answer's flag says whether an S32 list was
expanded (R205, R232, R244). -/
def expandChain : Nat → Nat → Work → Bool → Work × Bool
  | 0, _, k, s => (k, s)
  | f + 1, d, k, s =>
    let fmt := bits d 30 29
    let base := bits d 18 0
    let len := bits d 28 19
    if fmt = 3 then (k.badList, s)
    else
      let start := if fmt = 0 then base - base % 8 else base
      let stop := start + len * (fmt + 2)
      let limit := k.listLimit
      let skip := fmt = 2 && base % 4 != 0
      let r := if skip then (k.badList, true)
        else
          let e := expandList fmt (base % 8) limit len start { k := k, cache := none }
          (e.1.k, e.2)
      let s := s || (fmt = 2 && !skip)
      let next := (stop + 3) / 4 * 4
      let past := bit d 31 && limit ≤ next
      let k := if r.2 && !past then r.1 else r.1.badList
      if !bit d 31 || past then (k, s)
      else if f = 0 then (k.badList, s)
      else
        let x := k.read32 next
        match x.2 with
        | none => (x.1.uncorr, s)
        | some d' => expandChain f d' x.1 s

/-- A marked axon joins the marks, once, in rising order (R244, R265). -/
def markAxon (a : Nat) : List Nat → List Nat
  | [] => [a]
  | b :: l => if a < b then a :: b :: l else if a = b then b :: l else b :: markAxon a l

/-- The core takes an AXON entry: the modulator, the expansion and the mark (R109, R244, R245). -/
def Work.expandAxon (k : Work) (tag payload : Nat) : Work :=
  let ctrl := k.t.pCore.rd 0x200
  let k :=
    if bit ctrl 1 && bits ctrl 23 12 == tag then
      let add := if payload = 0 then sext 16 (k.t.pCore.fld 0x208 15 0) else sext 16 payload
      { k with t := { k.t with nc := { k.t.nc with modM := sat16 (k.t.nc.modM + add) } } }
    else k
  let x := k.read32 (offAxons + 4 * tag)
  match x.2 with
  | none => x.1.uncorr
  | some d =>
    let r := expandChain 16 d x.1 false
    if r.2 && r.1.learnEn then
      { r.1 with t := { r.1.t with nc := { r.1.t.nc with marks := markAxon tag r.1.t.nc.marks } } }
    else r.1

/-- The core takes a TALLY entry (R114). -/
def Work.takeTally (k : Work) (tag payload : Nat) : Work := k.addTally 0 tag (sext 16 payload)

/-- The core takes the oldest entry of its inbound AXON queue, whole (R119). -/
def Work.takeEntry (k : Work) : Option Work :=
  match k.t.q.axon with
  | [] => none
  | f :: l =>
    let k := { k with t := { k.t with q := { k.t.q with axon := l } } }
    match (readFlit f).2 with
    | none => some { k with hold := true }
    | some w =>
      let h := Hdr.of w
      some (if h.kind = kTALLY then k.takeTally h.tag h.payload else k.expandAxon h.tag h.payload)

/-- The core empties its inbound AXON queue, first in, first out (R119). -/
def Work.drainAxons (k : Work) : Work := iterOpt Work.takeEntry (k.t.q.axon.length + 1) k

/-! ### Breeds and records -/

/-- A pass of the core over its neurons: the breeds read so far, each read once, with the fault of a bad one counted
once (R232). -/
structure Pass where
  k : Work
  breeds : List (Nat × Option Breed)
  dE : Int := 0

/-- Breed `b`, none when its record is uncorrectable or, with `check`, its KIND reserved. -/
def Pass.breedOf (check : Bool) (p : Pass) (b : Nat) : Pass × Option Breed :=
  match p.breeds.find? (fun e => e.1 == b) with
  | some e => (p, e.2)
  | none =>
    let r := p.k.reads (offParams / 8 + 4 * b) 4
    match r.2 with
    | [some w0, some w1, some w2, some w3] =>
      let br := Breed.of w0 w1 w2 w3
      if check && 5 ≤ br.kind then
        ({ p with k := r.1.count 0x13C evBadBreed, breeds := (b, none) :: p.breeds }, none)
      else ({ p with k := r.1, breeds := (b, some br) :: p.breeds }, some br)
    | _ => ({ p with k := r.1.uncorr, breeds := (b, none) :: p.breeds }, none)

/-- Breed `b` as INTEGRATE and the sweep read it. -/
def Pass.breed (p : Pass) (b : Nat) : Pass × Option Breed := p.breedOf true b

/-- Neuron record `i`: none when uncorrectable. -/
def Work.neuron (k : Work) (i : Nat) : Work × Option Neuron :=
  let r := k.reads (offRecords / 8 + 2 * i) 2
  match r.2 with
  | [some a, some b] => (r.1, some (Neuron.of a b))
  | _ => (r.1, none)

/-- Neuron record `i` written. -/
def Work.putNeuron (k : Work) (i : Nat) (n : Neuron) : Work :=
  (k.write (offRecords / 8 + 2 * i) n.word0).write (offRecords / 8 + 2 * i + 1) n.word1

/-- The bank words that hold something: listed words, each named by its place in the bank. -/
def Work.bankWords (k : Work) : List Nat :=
  let c := k.t.bankCtx
  (listedWords k.t.bank.mem).filterMap (fun w =>
    if w < c.words then (if c.phys w = w then some w else none)
    else match k.t.bank.spares[(w - c.words) / 128]? with
      | some s => if s.used || s.shadow then some (128 * s.region.toNat + (w - c.words) % 128) else none
      | none => none)

/-- A number joins a rising list without repeats. -/
def insertNat (a : Nat) : List Nat → List Nat := markAxon a

/-- The neurons whose record is not all zero, rising: every other neuron has LIVE 0 (R196). -/
def Work.storedNeurons (k : Work) : List Nat :=
  k.bankWords.foldr (fun w l => if offRecords / 8 ≤ w && w < offRecords / 8 + 8192
    then insertNat ((w - offRecords / 8) / 2) l else l) []

/-- The neurons whose bank-0 accumulator is not 0, rising. -/
def touchedNeurons (nc : NeuronCore) : List Nat := (nc.tally.map Prod.fst).filter (· < 4096)

/-! ### Firing and sending (R220–R223) -/

/-- A send record's header is legal: KIND AXON or FLOCK, and QCLASS, STAMP and PAYLOAD 0 (R221). -/
def sendLegal (h : Hdr) : Bool :=
  (h.kind = kAXON || h.kind = kFLOCK) && h.qclass = 0 && h.stamp = 0 && h.payload = 0

/-- The send records from byte offset `a`, `n` of them, emitted with stamp `st` (R221, R222, R232). -/
def sendList (st limit : Nat) : Nat → Nat → Work → Work
  | 0, _, k => k
  | n + 1, a, k =>
    if limit < a + 8 then k.badList
    else
      let r := k.read (a / 8)
      match r.2 with
      | none => r.1.uncorr
      | some w =>
        let h := Hdr.of w
        let out := { h with origin := 0, stamp := st }
        if h.kind = kFLOCK then
          if limit < a + 16 then r.1.badList
          else if !sendLegal h then sendList st limit n (a + 16) (r.1.count 0x138 evBadSend)
          else
            let m := r.1.read (a / 8 + 1)
            sendList st limit n (a + 16)
              (match m.2 with
               | none => m.1.uncorr
               | some mask => m.1.emit 0x130 evFoldLost [out.word, mask])
        else if !sendLegal h then sendList st limit n (a + 8) (r.1.count 0x138 evBadSend)
        else sendList st limit n (a + 8) (r.1.emit 0x130 evFoldLost [out.word])

/-- Neuron `i` fires in round `n`: its send list goes out (R220, R222). -/
def Work.fire (k : Work) (i n : Nat) : Work :=
  let r := k.read32 (offSends + 4 * i)
  match r.2 with
  | none => r.1.uncorr
  | some e => sendList ((n + 1) % 256) r.1.listLimit (bits e 23 16) (8 * bits e 15 0) r.1

/-! ### INTEGRATE (R207–R209, R213) -/

/-- The noise value of neuron `i` in round `n` (R218): the anneal temperature takes the place of NOISE_AMP in a
replica. -/
def Work.noise (k : Work) (b : Breed) (i n : Nat) : Int :=
  let pos := k.t.pCore.rd 0x214
  let seed := unitSeed (k.t.pCore.rd 0x20C + k.t.pCore.rd 0x210 * 2 ^ 32) (bits pos 17 10)
  let r := draw seed 0 n (drawLoc (bits pos 9 8) (bits pos 7 0) i 0)
  noiseOf r (if bit (k.t.pCore.rd 0x300) 0 then k.t.pCore.fld 0x304 15 0 else b.noiseAmp)

/-- Neuron `i` is considered in INTEGRATE of round `n` of package `pkg`: updated when LIVE and touched or awake
(R196, R200, R207, R213, R222, R223, R243, R316). -/
def integrateOne (pkg n : Nat) (p : Pass) (i : Nat) : Pass :=
  let r := p.k.neuron i
  match r.2 with
  | none => { p with k := r.1.uncorr }
  | some nr =>
    let p := { p with k := r.1 }
    if !nr.live then p
    else
      let b := p.breed nr.breed
      match b.2 with
      | none => b.1
      | some br =>
        let p := b.1
        let acc := mapGet tallyDefault p.k.t.nc.tally i
        if acc = 0 && !br.awake then p
        else
          let noise := if br.kind = bSTOCHASTIC then p.k.noise br i n else 0
          let u := updateNeuron br nr n acc noise p.k.learnEn
          let k := p.k.putNeuron i u.n
          let k := k.core (fun pg => let q := pg.cntWrap 0x124 1; if u.fire then q.cntWrap 0x128 1 else q)
          let nc := k.t.nc
          let k := { k with t := { k.t with nc :=
            { nc with traceFired := nc.traceFired || (u.fire && br.traceEn), clamped := nc.clamped || u.clamped } } }
          let k := if u.fire then k.fire i n else k
          let k :=
            if nr.probe then
              k.send (traceMsg pkg (n % 256) 1
                (n * 2 ^ 32 + i * 2 ^ 20 + unsext 16 u.n.v * 16 + b2n u.fire * 8 + b2n u.refr * 4))
            else k
          { p with k := k, dE := p.dE - ((b2n u.fire : Int) - (b2n nr.fired : Int)) * u.field }

/-- A sweep's visit to neuron `i`: reset to rest, refresh, or nothing, by the age of its stamp (R209, R253). -/
def sweepOne (n swept : Nat) (p : Pass) (i : Nat) : Pass :=
  let r := p.k.neuron i
  match r.2 with
  | none => { p with k := r.1.uncorr }
  | some nr =>
    let p := { p with k := r.1 }
    if !nr.live then p
    else
      let age := stampAge swept nr.stamp n
      if age < 32768 then p
      else
        let b := p.breed nr.breed
        let rest (p : Pass) : Pass := { p with k := (p.k.putNeuron i (nr.toRest n)).count 0x134 evRest }
        match b.2 with
        | none => rest b.1
        | some br =>
          if br.awake then b.1
          else if 65535 < age then rest b.1
          else { b.1 with k := b.1.k.putNeuron i (nr.refresh br n age b.1.k.learnEn) }

/-- Breed `b` as the count of awake neurons reads it: R232 counts a faulty breed in an INTEGRATE pass or a sweep only. -/
def Pass.breedSeen (p : Pass) (b : Nat) : Pass × Option Breed :=
  match p.breeds.find? (fun e => e.1 == b) with
  | some e => (p, e.2)
  | none =>
    let r := p.k.reads (offParams / 8 + 4 * b) 4
    let br := match r.2 with | [some w0, some w1, some w2, some w3] => some (Breed.of w0 w1 w2 w3) | _ => none
    ({ p with k := r.1, breeds := (b, br) :: p.breeds }, br)

/-- AWAKE_COUNT recomputed: LIVE neurons whose breed is awake (R200, R225, R235). -/
def Work.recountAwake (k : Work) : Work :=
  let step (s : Pass × Nat) (i : Nat) : Pass × Nat :=
    let r := s.1.k.neuron i
    match r.2 with
    | none => ({ s.1 with k := r.1 }, s.2)
    | some nr =>
      if !nr.live then ({ s.1 with k := r.1 }, s.2)
      else
        let b := ({ s.1 with k := r.1 } : Pass).breedSeen nr.breed
        (b.1, match b.2 with | some br => s.2 + b2n br.awake | none => s.2)
  let r := k.storedNeurons.foldl step ({ k := k, breeds := [] }, 0)
  let k := r.1.k
  { k.core (fun p => p.wr 0x104 r.2) with t := { (k.core (fun p => p.wr 0x104 r.2)).t with nc := { k.t.nc with recount := false } } }

/-! ### Exports of an anneal core (R314) -/

/-- The INT4 value exported for neuron `i` in round `n`: its state for a spin of class n mod C, else 0. -/
def Work.exportBit (k : Work) (cls i : Nat) : Work × Nat :=
  let r := k.neuron i
  match r.2 with
  | none => (r.1.uncorr, 0)
  | some nr => (r.1, if nr.live && nr.breed == cls && nr.fired then 1 else 0)

/-- `n` exported values from neuron `i`, packed two per byte, as a number. -/
def exportPack (cls : Nat) : Nat → Nat → Work → Work × Nat
  | 0, _, k => (k, 0)
  | n + 1, i, k =>
    let r := k.exportBit cls i
    let s := exportPack cls n (i + 1) r.1
    (s.1, r.2 + 16 * s.2)

/-- The export writes: 480 neurons a write, at rising addresses (R314). -/
def exportWrites (cls n : Nat) : Nat → Nat → Nat → Nat → Work → Work
  | 0, _, _, _, k => k
  | f + 1, i, left, addr, k =>
    if left = 0 then k
    else
      let c := min 480 left
      let r := exportPack cls c i k
      let words := (upto (ceilDiv c 16)).map (fun j => bits r.2 (64 * j + 63) (64 * j))
      let d := r.1.t.pCore.rd 0x30C
      let m := dataWrite (bits d 17 10) (bits d 1 0) (bits d 5 2) (bits d 9 6) 0 (n % 256) addr words
      exportWrites cls n f (i + c) (left - c) (addr + 240) (r.1.send m)

/-- The anneal part of INTEGRATE: ROUND_DE, the EXCHANGE and the exports (R314, R316). -/
def Work.annealEnd (k : Work) (pkg n : Nat) (dE : Int) : Work :=
  let cfg := k.t.pCore.rd 0x300
  if !bit cfg 0 then k
  else
    let k := k.core (fun p => p.wr 0x31C (unsext 32 dE))
    let k :=
      if dE = 0 then k
      else k.send
        [({ kind := kEXCHANGE, pkg := pkg, qclass := 3, tag := baseTag 10, stamp := n % 256
            payload := bits cfg 16 10 : Hdr }).word,
         unsext 32 dE * 2 ^ 32 + bits cfg 9 4 * 2 ^ 18 + k.t.pCore.fld 0x304 22 16 * 2 ^ 10]
    let c := bits cfg 3 1
    if bit cfg 17 && c != 0 then
      let rg := k.t.pCore.rd 0x318
      exportWrites (n % c) n 9 (bits rg 11 0) (bits rg 24 12)
        (k.t.pCore.fld (if n % 2 = 0 then 0x314 else 0x310) 19 0) k
    else k

/-- The round digest starts: a CRC over the round number (R835). -/
def Work.digestStart (k : Work) (n : Nat) : Work :=
  { k with t := { k.t with digest := BitVec.ofNat 32 (crcBytes crcInit (natLe 4 n)) } }

/-- Every accumulator of bank 0 is cleared (R118). -/
def clearBank0 (m : Map Int) : Map Int := mapDrop (· < 4096) m

/-- INTEGRATE of round `n` on a neuron core of package `pkg`, after the sweep of R209 where it is due. `sweepPre` is
the pre-trace part of a sweep (R253). -/
def Work.integrate (k : Work) (pkg n : Nat) (sweepPre : Nat → Work → Work) : Work :=
  let k := k.digestStart n
  let swept := k.t.pCore.rd 0x108
  let k :=
    if 32768 ≤ subMod (2 ^ 32) n swept then
      let p := k.storedNeurons.foldl (sweepOne n swept) { k := k, breeds := [] }
      (sweepPre swept p.k).core (fun pg => pg.wr 0x108 n)
    else k
  let cand := (touchedNeurons k.t.nc).foldr insertNat (if k.t.pCore.rd 0x104 = 0 then [] else k.storedNeurons)
  let p := cand.foldl (integrateOne pkg n) { k := k, breeds := [] }
  let k := { p.k with t := { p.k.t with nc := { p.k.t.nc with tally := clearBank0 p.k.t.nc.tally } } }
  (k.annealEnd pkg n p.dE).core (fun pg => pg.wr 0x10C n)

/-- The delay banks rotate: bank 1 becomes bank 0, and so on, and a cleared bank becomes bank 3 (R118). -/
def rotateBanks (m : Map Int) : Map Int :=
  (m.filter (fun e => 4096 ≤ e.1)).map (fun e => (e.1 - 4096, e.2))

end Sys2Proof.Machine
end

