-- ==== Sys2Proof/Machine/Learn.lean ====
section
/-! DEFINITION. Local learning on a neuron core: the LEARN phase, the pre-trace part of a sweep and the LONG_IDLE reset
(R237–R254, R267, R268, R973). -/

namespace Sys2Proof.Machine

/-- A rule set (R239). -/
structure RuleSet where
  mode : Nat
  shift : Nat
  mShift : Nat
  aLtp : Int
  aLtd : Int
  aPre : Int
  aPost : Int
  wMin : Int
  wMax : Int
  eDecay : Nat
  deriving DecidableEq, Repr

/-- The rule set held in the first two of its bank words. -/
def RuleSet.of (a b : Nat) : RuleSet :=
  { mode := bits a 1 0, shift := bits a 7 4, mShift := bits a 11 8
    aLtp := sext 8 (bits a 39 32), aLtd := sext 8 (bits a 47 40), aPre := sext 8 (bits a 55 48)
    aPost := sext 8 (bits a 63 56), wMin := sext 8 (bits b 7 0), wMax := sext 8 (bits b 15 8), eDecay := bits b 31 16 }

/-- `sround(v, s)` with draw nibble `r4` (R249). -/
def sround (v : Int) (s : Nat) (r4 : Nat) : Int :=
  let i := asr v s
  let f := (v - i * (2 ^ s : Nat)).toNat
  let f4 := if 4 ≤ s then f / 2 ^ (s - 4) else f * 2 ^ (4 - s)
  if r4 < f4 then i + 1 else i

/-- The draw nibble of the synapse at byte offset `a` in round `n` (R258). -/
def Work.synNibble (k : Work) (a n : Nat) : Nat :=
  let pos := k.t.pCore.rd 0x214
  let seed := unitSeed (k.t.pCore.rd 0x20C + k.t.pCore.rd 0x210 * 2 ^ 32) (bits pos 17 10)
  let j := a / 4
  let r := draw seed 1 n (bits pos 9 8 * 2 ^ 22 + bits pos 7 0 * 2 ^ 14 + j / 8 % 2 ^ 14)
  bits r (4 * (j % 8) + 3) (4 * (j % 8))

/-- LEARN at work: the neuron pass with its breed cache, the rule sets read so far, and whether an uncorrectable rule
set has stopped LEARN for the round (R267). -/
structure Learning where
  p : Pass
  rules : List (Nat × RuleSet)
  n : Nat
  m : Int
  stopped : Bool

/-- Rule set `i` read. -/
def Work.ruleSet (k : Work) (i : Nat) : Work × Option RuleSet :=
  let r := k.reads (offRules / 8 + 4 * i) 4
  match r.2 with
  | [some a, some b, some _, some _] => (r.1, some (RuleSet.of a b))
  | _ => (r.1.uncorr, none)

/-- Rule set `i` as a synapse of it meets it: from the sets `rs` read already, or read, and counted where it is
uncorrectable (R267, R973). -/
def Work.ruleOf (k : Work) (rs : List (Nat × RuleSet)) (i : Nat) : Work × List (Nat × RuleSet) × Option RuleSet :=
  match rs.lookup i with
  | some r => (k, rs, some r)
  | none =>
    let x := k.ruleSet i
    match x.2 with
    | some r => (x.1, (i, r) :: rs, some r)
    | none => (x.1, rs, none)

/-- PRE_DECAY and PRE_JUMP of the learning header, none where the header is uncorrectable (R238). -/
def Work.learnHeader (k : Work) : Work × Option (Nat × Nat) :=
  let r := k.reads (offLearnHdr / 8) 4
  match r.2 with
  | [some a, some _, some _, some _] => (r.1, some (bits a 15 0, bits a 23 16))
  | _ => (r.1.uncorr, none)

/-- PRE_COUNT, at most 4,096. -/
def Work.preCount (k : Work) : Nat := min 4096 (k.t.pCore.fld 0x204 31 19)

/-- The byte offset of pre-trace entry `a`. -/
def Work.preAddr (k : Work) (a : Nat) : Nat := (k.t.pCore.fld 0x204 18 2 * 4 + 4 * a) % 2 ^ 19

/-- A LEARN_STATUS bit set (R271). -/
def Work.learnStatus (k : Work) (i : Nat) : Work :=
  k.core (fun p => p.wr 0x218 (p.rd 0x218 ||| 2 ^ i))

/-- The dirty-map bits set, counted into DIRTY_COUNT (R270). -/
def Work.recountDirty (k : Work) : Work :=
  let c := k.t.bankCtx
  let total := ((upto 8).map (fun i => popcount 64 (wordRaw c.b.mem (c.phys (offDirty / 8 + i))).1)).sum
  k.core (fun p => p.wr 0x230 total)

/-- The dirty bit of the region that holds byte offset `a` is set; an uncorrectable dirty-map word is written with every
bit set (R251, R973). -/
def Work.setDirty (k : Work) (a : Nat) : Work :=
  let i := a / 1024
  let w := offDirty / 8 + i / 64
  let r := k.read w
  match r.2 with
  | some d => if bit d (i % 64) then r.1 else (r.1.write w (d ||| 2 ^ (i % 64))).recountDirty
  | none => ((r.1.count 0x140 evUncorr).write w (2 ^ 64 - 1)).recountDirty

/-- The chain of a descriptor as the S32 lists that are visited: start and count of each, in chain order, with the
faults of LEARN that end it early. The last answer is false when a continuation descriptor is uncorrectable. -/
def s32Chain : Nat → Nat → Work → List (Nat × Nat) → Work × List (Nat × Nat) × Bool
  | 0, _, k, l => (k, l, true)
  | f + 1, d, k, l =>
    let fmt := bits d 30 29
    let base := bits d 18 0
    let len := bits d 28 19
    if fmt = 3 then (k, l, true)
    else
      let start := if fmt = 0 then base - base % 8 else base
      let stop := start + len * (fmt + 2)
      let limit := k.listLimit
      let fit := if limit ≤ start then 0 else min len ((limit - start) / 4)
      let l := if fmt = 2 && base % 4 == 0 then l ++ [(start, fit)] else l
      let next := (stop + 3) / 4 * 4
      if !bit d 31 || limit ≤ next || f = 0 then (k, l, true)
      else
        let x := k.read32 next
        match x.2 with
        | none => (x.1.uncorr, l, false)
        | some d' => s32Chain f d' x.1 l

/-- A synapse word's fields replaced: weight and eligibility patterns. -/
def synapseWord (w : Nat) (weight elig : Int) : Nat :=
  setBits (setBits w 23 16 (unsext 8 weight)) 31 24 (unsext 8 elig)

/-- clampW with its count (R248, R270). -/
def clampWeight (r : RuleSet) (w : Int) : Int × Bool :=
  let c := min (max w r.wMin) r.wMax
  (c, c != w)

/-- `visit_synapse` at byte offset `a`, with word `w` (R248, R267, R268). -/
def visitSynapse (s : Learning) (a w pTrace x k : Nat) : Learning :=
  let x0 := s.p.k.ruleOf s.rules (bits w 15 14)
  match x0.2.2 with
  | none => { s with p := { s.p with k := x0.1 }, stopped := true }
  | some r =>
    let s := { s with p := { s.p with k := x0.1.core (fun pg => pg.cntWrap 0x220 1) }, rules := x0.2.1 }
    if r.mode = 0 then s
    else if r.mode = 3 then { s with p := { s.p with k := s.p.k.learnStatus 2 } }
    else
      let j := s.p.k.neuron (bits w 11 0)
      match j.2 with
      | none => { s with p := { s.p with k := j.1.uncorr } }
      | some nr =>
        if !nr.live then { s with p := { s.p with k := j.1 } }
        else
          let b := ({ s.p with k := j.1 } : Pass).breedOf false nr.breed
          match b.2 with
          | none => { s with p := b.1 }
          | some br =>
            let kk := b.1.k
            let same := nr.stamp == s.n % 65536
            let y : Int := if br.traceEn && same && nr.fired then 1 else 0
            let q : Int :=
              if !br.traceEn then 0
              else if same then (nr.post : Int)
              else leak nr.post br.postDecay (subMod 65536 s.n nr.stamp)
            let xi : Int := (x : Int)
            let d := r.aLtp * pTrace * y - r.aLtd * q * xi + 256 * (r.aPre * xi + r.aPost * y)
            let w0 := sext 8 (bits w 23 16)
            let e0 := sext 8 (bits w 31 24)
            let r4 := kk.synNibble a s.n
            let e1 := if r.mode = 2 then clampI (-128) 127 (leak e0 r.eDecay k + rne d r.shift) else e0
            let wc :=
              if r.mode = 1 then clampWeight r (w0 + sround d r.shift r4)
              else if s.m = 0 then (w0, false)
              else clampWeight r (w0 + sround (s.m * e1) r.mShift r4)
            let kk := kk.core (fun pg =>
              let pg := if wc.1 = w0 then pg else pg.cntWrap 0x224 1
              if wc.2 then pg.cntSat 0x228 1 else pg)
            let kk := if wc.2 then kk.learnStatus 0 else kk
            let w' := synapseWord w wc.1 e1
            let kk := if w' = w then kk else (kk.writePart a 4 w').1
            let kk := if wc.1 = w0 then kk else kk.setDirty a
            { s with p := { b.1 with k := kk } }

/-- The synapses of one S32 list visited in order; an uncorrectable word is skipped and counted once (R267). -/
def visitList (pTrace x k : Nat) : Nat → Nat → Option Nat → Learning → Learning
  | 0, _, _, s => s
  | n + 1, a, badWord, s =>
    if s.stopped then s
    else if badWord = some (a / 8) then visitList pTrace x k n (a + 4) badWord s
    else
      let r := s.p.k.read32 a
      match r.2 with
      | none => visitList pTrace x k n (a + 4) (some (a / 8)) { s with p := { s.p with k := r.1.uncorr } }
      | some w => visitList pTrace x k n (a + 4) badWord (visitSynapse { s with p := { s.p with k := r.1 } } a w pTrace x k)

/-- A visit to axon `a` (R247, R267). -/
def visitAxon (preDecay preJump : Nat) (marked : Bool) (s : Learning) (a : Nat) : Learning :=
  let pa := s.p.k.preAddr a
  let r := s.p.k.read32 pa
  if s.stopped then s
  else match r.2 with
  | none => { s with p := { s.p with k := r.1.uncorr } }
  | some e =>
    let t := r.1.read32 (offAxons + 4 * a)
    match t.2 with
    | none => { s with p := { s.p with k := t.1.uncorr } }
    | some d =>
      let k := subMod 65536 s.n (bits e 23 8)
      let p0 := (leak (bits e 7 0) preDecay k).toNat
      let x := b2n marked
      let pT := if marked then min 255 (p0 + preJump) else p0
      let c := s32Chain 16 d t.1 []
      let s := c.2.1.foldl (fun s l => visitList pT x k l.2 l.1 none s) { s with p := { s.p with k := c.1 } }
      if s.stopped then s
      else
        let kk := (s.p.k.writePart pa 4 (setBits (setBits e 7 0 pT) 23 8 (s.n % 65536))).1
        { s with p := { s.p with k := kk } }

/-- LEARN of round `n` (R246, R267, R268): which axons are visited, the visits, and the end of the modulator and the
marks. -/
def Work.learn (k : Work) (n : Nat) : Work :=
  let fin (k : Work) : Work :=
    let k := if bit (k.t.pCore.rd 0x200) 1 || k.learnEn then
      k.core (fun p => p.setFld 0x208 31 16 (unsext 16 k.t.nc.modM)) else k
    { k with t := { k.t with nc := { k.t.nc with marks := [], modM := 0, traceFired := false } } }
  if !k.learnEn then fin k
  else
    let full := k.t.nc.traceFired || k.t.nc.modM != 0
    let due := if full then upto k.preCount else k.t.nc.marks.filter (· < k.preCount)
    let k := if k.t.nc.marks.any (fun a => k.preCount ≤ a) then k.learnStatus 1 else k
    let k := if full then k.core (fun p => p.cntSat 0x22C 1) else k
    if due.isEmpty then fin k
    else
      let h := k.learnHeader
      match h.2 with
      | none => fin h.1
      | some hdr =>
        let s : Learning := { p := { k := h.1, breeds := [] }, rules := [], n := n, m := k.t.nc.modM, stopped := false }
        let marks := k.t.nc.marks
        let s := due.foldl (fun s a => visitAxon hdr.1 hdr.2 (marks.contains a) s a) s
        fin s.p.k

/-! ### The pre-trace part of a sweep and LONG_IDLE (R253, R254, R973) -/

/-- Eligibility work in progress: the rule sets read so far, and the uncorrectable synapse word met last. -/
structure EligWork where
  k : Work
  rules : List (Nat × RuleSet)
  badWord : Option Nat

/-- The eligibility of the synapse at `a` changed by `f` of it and its rule set; the word is written when it changes. An
uncorrectable word is met once, and with an uncorrectable rule set nothing changes (R973). -/
def eligOne (f : Int → RuleSet → Int) (s : EligWork) (a : Nat) : EligWork :=
  if s.badWord = some (a / 8) then s
  else
    let r := s.k.read32 a
    match r.2 with
    | none => { s with k := r.1.uncorr, badWord := some (a / 8) }
    | some w =>
      let x := r.1.ruleOf s.rules (bits w 15 14)
      match x.2.2 with
      | none => { s with k := x.1 }
      | some rs =>
        let w' := setBits w 31 24 (unsext 8 (f (sext 8 (bits w 31 24)) rs))
        { s with k := if w' = w then x.1 else (x.1.writePart a 4 w').1, rules := x.2.1 }

/-- The eligibilities of every S32 synapse of axon `a`'s chain changed by `f`; the answer is false when the axon entry
or a continuation descriptor is uncorrectable (R973). -/
def eligAxon (f : Int → RuleSet → Int) (s : EligWork) (a : Nat) : EligWork × Bool :=
  let t := s.k.read32 (offAxons + 4 * a)
  match t.2 with
  | none => ({ s with k := t.1.uncorr }, false)
  | some d =>
    let c := s32Chain 16 d t.1 []
    (c.2.1.foldl (fun s l => (upto l.2).foldl (fun s i => eligOne f s (l.1 + 4 * i)) s) { s with k := c.1 }, c.2.2)

/-- A sweep's work on pre-trace entry `a` (R253, R973). -/
def sweepPreOne (n swept preDecay : Nat) (s : EligWork) (a : Nat) : EligWork :=
  let pa := s.k.preAddr a
  let r := s.k.read32 pa
  let s1 := { s with k := r.1 }
  match r.2 with
  | none => { s with k := r.1.uncorr }
  | some e =>
    let age := stampAge swept (bits e 23 8) n
    if age < 32768 then s1
    else
      let x := if 65535 < age then eligAxon (fun _ _ => 0) s1 a
        else eligAxon (fun v rs => leak v rs.eDecay age) s1 a
      let tr := if 65535 < age then 0 else (leak (bits e 7 0) preDecay age).toNat
      if x.2 then { x.1 with k := (x.1.k.writePart pa 4 (setBits (setBits e 7 0 tr) 23 8 (n % 65536))).1 }
      else x.1

/-- The pre-trace part of the stamp sweep in round `n` (R253); nothing on a core whose LEARN_CTRL.EN is 0. -/
def sweepPre (n swept : Nat) (k : Work) : Work :=
  if !k.learnEn || k.preCount = 0 then k
  else
    let h := k.learnHeader
    match h.2 with
    | none => h.1
    | some hdr =>
      ((upto k.preCount).foldl (sweepPreOne n swept hdr.1) { k := h.1, rules := [], badWord := none }).k

/-- Pre-trace entry `a` written without being read. A bank word that also holds bytes outside the table, and is
uncorrectable, takes 0 in them, which is counted; a word of two entries is written whole (R254, R973). -/
def Work.putPre (k : Work) (a n : Nat) : Work :=
  let pa := k.preAddr a
  let v := n % 65536 * 256
  if pa % 8 = 0 && a + 1 < k.preCount then k.write (pa / 8) (v + v * 2 ^ 32)
  else
    let r := k.writePart pa 4 v
    if r.2 then r.1
    else r.1.uncorr.write (pa / 8) (if pa % 8 < 4 then v else v * 2 ^ 32)

/-- The LONG_IDLE reset at the start of round `n` (R210, R211, R254). -/
def Work.longIdle (k : Work) (n : Nat) : Work :=
  let step (k : Work) (i : Nat) : Work :=
    let r := k.neuron i
    match r.2 with
    | none => r.1.uncorr
    | some nr => if nr.live then (r.1.putNeuron i (nr.toRest n)).count 0x134 evRest else r.1
  let k := k.storedNeurons.foldl step k
  let k := k.core (fun p => p.wr 0x108 n)
  if !k.learnEn then k
  else
    let k := (upto k.preCount).foldl (fun k a => k.putPre a n) k
    ((upto k.preCount).foldl (fun s a => (eligAxon (fun _ _ => 0) s a).1) { k := k, rules := [], badWord := none }).k

/-- INTEGRATE on a neuron core with its learning sweep. -/
def Work.integrateNeuron (k : Work) (pkg n : Nat) : Work := k.integrate pkg n (sweepPre n)

end Sys2Proof.Machine
end

