-- ==== Sys2Proof/Machine/Status.lean ====
section
/-! DEFINITION. The status codes (R28), their classes (R26) and the choice among several failures (R29). -/

namespace Sys2Proof.Machine

def stOK := 0x00
def stSATURATED := 0x01
def stDEGRADED := 0x02
def stHELD := 0x08
def stBAD_OPCODE := 0x10
def stBAD_OPERAND := 0x11
def stNO_AUTHORITY := 0x12
def stDUPLICATE := 0x13
def stOUT_OF_SEQUENCE := 0x14
def stNO_PLACE := 0x20
def stBUSY_PASTURE := 0x21
def stASLEEP := 0x22
def stDRAINING := 0x23
def stDRAIN_TIMEOUT := 0x24
def stGATE_LOST := 0x30
def stPATH_LOST := 0x31
def stUNCORRECTED := 0x40
def stNV_COPY_FAIL := 0x41
def stDIGEST_MISMATCH := 0x42
def stFENCED := 0x43
def stSTALLED := 0x44
def stTHERMAL_HOLD := 0x50
def stPOWER_STORM := 0x51
def stABORTED := 0x60
def stINTERNAL := 0xFF

/-- The class of a code by its range, in the order of R26. -/
def statusClass (s : Nat) : Nat :=
  if s < 0x08 then 0 else if s < 0x10 then 1 else if s < 0x20 then 2 else if s < 0x30 then 3
  else if s < 0x40 then 4 else if s < 0x50 then 5 else if s < 0x60 then 6 else if s < 0x70 then 7 else 8

/-- The code that stands when `a` and `b` both apply: the lowest code of the highest class (R29). Among success codes
one that says more than OK stands. -/
def worse (a b : Nat) : Nat :=
  if statusClass a = statusClass b then
    (if statusClass a = 0 then (if a = 0 then b else if b = 0 then a else min a b) else min a b)
  else if statusClass a < statusClass b then b else a

end Sys2Proof.Machine
end

