-- ==== Sys2Proof/Machine/Tensor.lean ====
section
/-! DEFINITION. The tensor core at work: pass descriptors and their rules, exact accumulation, output conversion, TALLY
emission, input windows and chains (R272–R288, R293, R299, R300). -/

namespace Sys2Proof.Machine

/-- Event bits of TCORE (R303). -/
def evTSat := 0
def evWinErr := 1
def evBadDesc := 2
def evTUncorr := 3
def evTFoldLost := 4

/-- The descriptor area of a tensor bank (R499). -/
def offDesc := 0xFF000

/-- A pass descriptor (R274). -/
structure Desc where
  inFmt : Nat
  wFmt : Nat
  outMode : Nat
  relu : Bool
  biasEn : Bool
  emitZero : Bool
  win : Nat
  last : Bool
  k : Nat
  n : Nat
  b : Nat
  inWait : Nat
  inOff : Nat
  inStride : Nat
  wAddr : Nat
  biasAddr : Nat
  outAddr : Nat
  outStride : Nat
  scale : Nat
  shift : Nat
  /-- Every reserved bit is 0 and no field holds a reserved value. -/
  clean : Bool
  deriving DecidableEq, Repr

/-- The descriptor of sixteen 32-bit words. -/
def Desc.of (w : List Nat) : Desc :=
  let g (i : Nat) : Nat := nth 0 w i
  { inFmt := bits (g 0) 1 0, wFmt := bits (g 0) 3 2, outMode := bits (g 0) 5 4, relu := bit (g 0) 6
    biasEn := bit (g 0) 7, emitZero := bit (g 0) 8, win := bits (g 0) 9 9, last := bit (g 0) 10
    k := bits (g 1) 12 0, n := bits (g 1) 28 16, b := bits (g 2) 8 0, inWait := bits (g 2) 31 16
    inOff := bits (g 3) 19 0, inStride := bits (g 4) 19 0, wAddr := bits (g 5) 19 0, biasAddr := bits (g 6) 19 0
    outAddr := bits (g 7) 19 0, outStride := bits (g 8) 19 0, scale := bits (g 9) 15 0, shift := bits (g 9) 20 16
    clean := bits (g 0) 31 11 = 0 && bits (g 0) 1 0 < 3 && bits (g 0) 3 2 < 2 && bits (g 0) 5 4 < 3
      && bits (g 1) 15 13 = 0 && bits (g 1) 31 29 = 0 && bits (g 2) 15 9 = 0
      && (upto 6).all (fun i => bits (g (3 + i)) 31 20 == 0) && bits (g 9) 31 21 = 0
      && (upto 6).all (fun i => g (10 + i) == 0) }

/-- Bytes of one input vector of `k` elements (R276). -/
def vecBytes (fmt k : Nat) : Nat := if fmt = 0 then k else if fmt = 1 then ceilDiv k 2 else ceilDiv k 8

/-- Bytes of one weight block (R277). -/
def blockBytes (wFmt : Nat) : Nat := if wFmt = 0 then 2048 else 1024

/-- A descriptor keeps the rules of R274 and R499, for an input window of `size` bytes, general area `area`, in a round
chain or not (R284, R299). -/
def Desc.legal (d : Desc) (round : Bool) (size area : Nat) : Bool :=
  d.clean && 32 ≤ d.k && d.k ≤ 4096 && d.k % 32 = 0 && 1 ≤ d.n && d.n ≤ 4096 && 1 ≤ d.b && d.b ≤ 256
    && (!round || d.b = 1) && (d.outMode != 2 || (round && d.b = 1))
    && d.wAddr % 64 = 0 && d.biasAddr % 4 = 0 && d.outAddr % 4 = 0
    && size != 0 && d.inOff + (d.b - 1) * d.inStride + vecBytes d.inFmt d.k ≤ size
    && d.wAddr + ceilDiv d.n 64 * (d.k / 32) * blockBytes d.wFmt ≤ area
    && (!d.biasEn || d.biasAddr + 4 * d.n ≤ area)
    && d.outAddr + (d.b - 1) * (if d.outMode = 2 then 0 else d.outStride) + (if d.outMode = 0 then d.n else 4 * d.n) ≤ area

/-- A tensor-core fault with its counter and event. -/
def Work.tUncorr (k : Work) : Work := k.core (fun p => (p.cntSat 0x14C 1).raise evTUncorr)

/-- The words from byte offset `a` that cover `n` bytes, read as bytes from `a`; an uncorrectable word counts and reads
as 0. The last answer counts them (R299). -/
def Work.readZero (k : Work) (a n : Nat) : Work × List Byte × Nat :=
  let w0 := a / 8
  let cnt := if n = 0 then 0 else (a + n - 1) / 8 - w0 + 1
  let r := k.reads w0 cnt
  let bad := (r.2.filter Option.isNone).length
  let k := iter Work.tUncorr bad r.1
  (k, slice (r.2.flatMap (fun d => natLe 8 (d.getD 0))) (a % 8) n, bad)

/-- Input element `i` of a vector's bytes (R273, R276). -/
def inElem (fmt : Nat) (l : List Byte) (i : Nat) : Int :=
  if fmt = 0 then sext 8 (nth 0 l i).toNat
  else if fmt = 1 then sext 4 (bits (nth 0 l (i / 2)).toNat (4 * (i % 2) + 3) (4 * (i % 2)))
  else if bit (nth 0 l (i / 8)).toNat (i % 8) then 1 else -1

/-- Weight element (k, o) of the weight area's bytes (R277). -/
def wElem (wFmt kk : Nat) (l : List Byte) (k o : Nat) : Int :=
  let blk := (o / 64) * (kk / 32) + k / 32
  let e := (k % 32) * 64 + o % 64
  if wFmt = 0 then sext 8 (nth 0 l (blk * 2048 + e)).toNat
  else sext 4 (bits (nth 0 l (blk * 1024 + e / 2)).toNat (4 * (e % 2) + 3) (4 * (e % 2)))

/-- The exact accumulator of output `o` for one vector (R279). -/
def accOf (d : Desc) (x w : List Byte) (bias : Int) (o : Nat) : Int :=
  (upto d.k).foldl (fun s i => s + inElem d.inFmt x i * wElem d.wFmt d.k w i o) bias

/-- Output conversion: the value and whether it was clamped (R280, R282). -/
def convert (d : Desc) (acc : Int) : Int × Bool :=
  if d.outMode = 1 then
    let y := clampI (-2147483648) 2147483647 acc
    (y, y != acc)
  else
    let y := rne (acc * (d.scale : Int)) d.shift
    let y := if d.relu && y < 0 then 0 else y
    let z := if d.outMode = 0 then clampI (-128) 127 y else sat16 y
    (z, z != y)

/-- A clamped output counted (R282). -/
def Work.outSat (k : Work) : Work :=
  let k := k.core (fun p => (p.cntSat 0x140 1).raise evTSat)
  { k with t := { k.t with nc := { k.t.nc with clamped := true, satFlag := true } } }

/-- `n` bytes of a value written at byte offset `a`, byte by byte within their words (R970). -/
def Work.writeBytes (k : Work) (a : Nat) : Nat → Nat → Work
  | 0, _ => k
  | n + 1, v => ((k.writePart a 1 (v % 256)).1).writeBytes (a + 1) n (v / 256)

/-- Output `o` of a TALLY pass in round `n` (R284, R285, R299); the two entries of an uncorrectable map word meet it
once. -/
def Work.emitTally (k : Work) (d : Desc) (n o : Nat) (y : Int) : Work :=
  let a := d.outAddr + 4 * o
  let r := k.read (a / 8)
  match r.2 with
  | none => { (if a % 8 < 4 || o = 0 then r.1.tUncorr else r.1) with hold := true }
  | some w =>
    let e := if a % 8 < 4 then bits w 31 0 else bits w 63 32
    if bit e 30 then r.1.core (fun p => p.raise evBadDesc)
    else if !bit e 31 || (y = 0 && !d.emitZero) then r.1
    else
      let h : Hdr := { kind := kTALLY, pkg := bits e 29 22, die := bits e 21 20, x := bits e 19 16, y := bits e 15 12
                       tag := bits e 11 0, stamp := (n + 1) % 256, payload := unsext 16 y }
      (r.1.core (fun p => p.cntWrap 0x138 1)).emit 0x148 evTFoldLost [h.word]

/-- One vector of a pass: every output formed, converted and stored or sent. The answer counts the uncorrectable words
met and says whether an output was clamped. -/
def passVector (d : Desc) (n base : Nat) (w : List Byte) (bias : List Byte) (s : Work × Nat × Bool) (b : Nat) :
    Work × Nat × Bool :=
  let x := s.1.readZero (base + d.inOff + b * d.inStride) (vecBytes d.inFmt d.k)
  (upto d.n).foldl (fun s o =>
    let bo : Int := if d.biasEn then sext 32 (leAt bias (4 * o) 4) else 0
    let y := convert d (accOf d x.2.1 w bo o)
    let k := if y.2 then s.1.outSat else s.1
    let k :=
      if d.outMode = 0 then k.writeBytes (d.outAddr + b * d.outStride + o) 1 (unsext 8 y.1)
      else if d.outMode = 1 then k.writeBytes (d.outAddr + b * d.outStride + 4 * o) 4 (unsext 32 y.1)
      else k.emitTally d n o y.1
    (k, s.2.1, s.2.2 || y.2)) (x.1, s.2.1 + x.2.2, s.2.2)

/-- A pass run whole from a window at `base`, in round `n` of a round chain: the core and the status of the pass. -/
def runPass (d : Desc) (n base : Nat) (k : Work) : Work × Nat :=
  let w := k.readZero d.wAddr (ceilDiv d.n 64 * (d.k / 32) * blockBytes d.wFmt)
  let bs := if d.biasEn then w.1.readZero d.biasAddr (4 * d.n) else (w.1, [], 0)
  let held := bs.1.hold
  let r := (upto d.b).foldl (passVector d n base w.2.1 bs.2.1) ({ bs.1 with hold := false }, w.2.2 + bs.2.2, false)
  let steps := d.b * ceilDiv d.n 64 * (d.k / 32)
  let k := r.1.core (fun p => ((p.cntWrap 0x130 steps).cntWrap 0x134 1).cntWrap 0x13C steps)
  let bad := r.2.1 != 0 || k.hold
  ({ k with hold := held || bad }, if bad then stUNCORRECTED else if r.2.2 then stSATURATED else stOK)

/-- Descriptor `i` of the bank: none when a word is uncorrectable. -/
def Work.desc (k : Work) (i : Nat) : Work × Option Desc :=
  let r := k.reads (offDesc / 8 + 8 * i) 8
  if r.2.any Option.isNone then (r.1, none)
  else (r.1, some (Desc.of (r.2.flatMap (fun d => [bits (d.getD 0) 31 0, bits (d.getD 0) 63 32]))))

/-- The general area's end: the fold base (R499). -/
def Work.area (k : Work) : Nat := if k.t.q.foldSize = 0 then offDesc else offDesc - k.t.q.foldSize

/-- Where a chain stands after a run: ended with its status, or waiting on its window at a descriptor. -/
inductive ChainEnd
  | ended (status : Nat)
  | waits (c : Chain)

/-- A chain run from the descriptor it stands at, until it ends or waits (R275, R286, R287, R299, R300). A round chain
uses window n mod 2 and marks its faults as holds. -/
def runChainFrom : Nat → Chain → Work → Work × ChainEnd
  | 0, c, k => (k, .ended c.status.toNat)
  | f + 1, c, k =>
    let i := c.desc.toNat
    let round := c.round.isSome
    let n := match c.round with | some r => r.toNat | none => 0
    let k := k.core (fun p => p.wr 0x120 i)
    let r := k.desc i
    match r.2 with
    | none => ({ r.1.tUncorr with hold := r.1.hold || round }, .ended (worse c.status.toNat stUNCORRECTED))
    | some d =>
      let k := r.1
      let win := if round then n % 2 else d.win
      let base := k.t.pCore.fld (0x108 + 8 * win) 19 0
      let size := k.t.pCore.fld (0x10C + 8 * win) 19 0
      let next (k : Work) (st : Nat) : Work × ChainEnd :=
        let st := worse c.status.toNat st
        if d.last then (k, .ended st)
        else if i = 63 then
          ({ k.core (fun p => p.raise evBadDesc) with breach := k.breach || round }, .ended (worse st stBAD_OPERAND))
        else runChainFrom f { c with desc := BitVec.ofNat 6 (i + 1), waiting := false, status := BitVec.ofNat 8 st } k
      if !d.legal round size k.area then
        next { k.core (fun p => p.raise evBadDesc) with breach := k.breach || round } stBAD_OPERAND
      else
        let cnt := k.t.pCore.fld (0x118 + 4 * win) 15 0
        if cnt < d.inWait then (k, .waits { c with waiting := true })
        else
          let k := k.core (fun p => p.wr (0x118 + 4 * win) (cnt - d.inWait))
          let held := k.hold
          let p := runPass d n base { k with hold := false }
          next { p.1 with hold := held || (round && p.1.hold) } p.2

/-- The window of the descriptor that a waiting chain stands at, with its IN_WAIT. -/
def Work.waitWindow (k : Work) (c : Chain) : Nat × Nat :=
  match (k.desc c.desc.toNat).2 with
  | some d => (match c.round with | some r => r.toNat % 2 | none => d.win, d.inWait)
  | none => (0, 0)

/-- A completed DATA bank write of `n` bytes at offset `a` counted into the input windows (R287, R299). -/
def Work.countWindow (k : Work) (a n : Nat) : Work :=
  let one (k : Work) (i : Nat) : Work :=
    let base := k.t.pCore.fld (0x108 + 8 * i) 19 0
    let size := k.t.pCore.fld (0x10C + 8 * i) 19 0
    if size = 0 || a + n ≤ base || base + size ≤ a then k
    else if base ≤ a && a + n ≤ base + size then
      let c := k.t.pCore.fld (0x118 + 4 * i) 15 0
      if c = 65535 then k.core (fun p => (p.cntSat 0x144 1).raise evWinErr)
      else k.core (fun p => p.wr (0x118 + 4 * i) (c + 1))
    else k.core (fun p => (p.cntSat 0x144 1).raise evWinErr)
  one (one k 0) 1

/-- The round chain of INTEGRATE of round `n` starts, when ROUND_DESC.EN is 1 (R286). -/
def Work.startRoundChain (k : Work) (n : Nat) : Work × Option ChainEnd :=
  let k := k.digestStart n
  let rd := k.t.pCore.rd 0x104
  if !bit rd 8 then (k, none)
  else
    let r := runChainFrom 64
      { desc := BitVec.ofNat 6 rd, waiting := false, entry := none, round := some (BitVec.ofNat 32 n), status := 0 } k
    (r.1, some r.2)

end Sys2Proof.Machine
end

