-- ==== Sys2Proof/Machine/Mesh.lean ====
section
/-! DEFINITION. The router step: routes, multicast, take-in checks, the pace of one drove entry, close joins and laps, on
the mesh of one package (R138–R140, R156–R169, R171, R175, R177, R183, R184). -/

namespace Sys2Proof.Machine

/-- What the mesh needs to know of the rest of the package while it moves messages: this package's number, the round of
each pasture, whether a core's domain serves, and whether a tile's core belongs to a pasture (R467). -/
structure MeshEnv where
  pkg : Nat
  roundOf : Nat → Nat
  coreServes : Nat → Bool
  /-- The core of a tile belongs to a pasture. -/
  owns : Nat → Nat → Bool

/-- The mesh at work: the tiles, what left through a port V as (tile, pasture, data words), the pastures that are to
hold with UNCORRECTED at their next muster, those stopped by a drove entry that cannot be read, and control messages
the cores sent. -/
structure Mesh where
  env : MeshEnv
  tiles : Map Tile
  toBase : List (Nat × Nat × List Nat) := []
  holds : List Nat := []
  droveBad : List Nat := []
  tx : List (Nat × List Nat) := []
  progress : List Nat := []

/-- Tile `key`. -/
def Mesh.tile (m : Mesh) (key : Nat) : Tile := mapGet tileDefault m.tiles key

/-- Tile `key` replaced. -/
def Mesh.put (m : Mesh) (key : Nat) (t : Tile) : Mesh := { m with tiles := mapSet tileDefault m.tiles key t }

/-- Router page bits of R190. -/
def evDiscard := 0
def evStale := 1
def evPaceExcess := 2
def evRUncorr := 3
def evRFenced := 4

/-! ### Drove entries (R156) -/

/-- A drove entry. -/
structure Drove where
  input : Nat
  closeOnCount : Bool
  lapMark : Bool
  isEnd : Bool
  max : Nat
  deriving DecidableEq, Repr

/-- The entry of a 32-bit word. -/
def Drove.of (w : Nat) : Drove :=
  { input := bits w 31 28, closeOnCount := bit w 27, lapMark := bit w 26, isEnd := bit w 25, max := bits w 15 0 }

/-- The drove entry stored at `pos`: a correctable error is corrected and counted, an uncorrectable one gives none
(R184, R190). -/
def Tile.drove (t : Tile) (pos : Nat) : Tile × Option Drove :=
  let r := readFlit (mapGet droveDefault t.rt.drove (pos % 2048))
  match r.1, r.2 with
  | .clean, some d => (t, some (Drove.of (d % 2 ^ 32)))
  | _, some d =>
    ({ t with pRouter := t.pRouter.corrected
              rt := { t.rt with drove := mapSet droveDefault t.rt.drove (pos % 2048) (mkFlit d) } },
     some (Drove.of (d % 2 ^ 32)))
  | _, none => ({ t with pRouter := t.pRouter.raise evRUncorr }, none)

/-! ### Routes (R158, R164) -/

/-- The output toward tile column `tx` and row `ty` from `cx`, `cy`: E or W until the column matches, then S or N;
none at the target. Outputs are numbered N 0, E 1, S 2, W 3, L 4, V 5. -/
def stepToward (cx cy tx ty : Nat) : Option Nat :=
  if cx < tx then some 1 else if tx < cx then some 3
  else if cy < ty then some 2 else if ty < cy then some 0 else none

/-- The output of a data-plane message other than FLOCK at tile `t` of die `d` in package `pkg`, for a slot with the
given exit port tile (R158). -/
def routeOut (pkg d t exitX exitY : Nat) (h : Hdr) : Nat :=
  let here := h.pkg = pkg && h.die = d
  let tx := if here then h.x else exitX
  let ty := if here then h.y else exitY
  match stepToward (tileX t) (tileY t) tx ty with
  | some o => o
  | none => if tileKind t = .port then 5 else 4

/-- The marked tiles of a FLOCK, as column and row (R111). -/
def flockTiles (h : Hdr) (mask : Nat) : List (Nat × Nat) :=
  ((upto 64).filter (fun i => bit mask i)).map (fun i => (h.x + i % 8, h.y + i / 8))

/-- A FLOCK keeps the rules of R112. -/
def flockLegal (h : Hdr) (mask : Nat) : Bool :=
  h.x % 4 = 0 && h.x ≤ 12 && h.y % 4 = 0 && h.y ≤ 12 && mask != 0
    && (flockTiles h mask).all (fun p => p.1 ≤ 15 && p.2 ≤ 15 && tileKind (tileOf p.1 p.2) == .neuron)

/-- The outputs of a FLOCK at tile `t` that arrived on port `p` (R164). -/
def flockOuts (t p : Nat) (h : Hdr) (mask : Nat) : BitVec 6 :=
  let cx := tileX t
  let cy := tileY t
  let l := flockTiles h mask
  let row := p = 4 || p = 1 || p = 3
  let e := row && p != 1 && l.any (fun q => cx < q.1)
  let w := row && p != 3 && l.any (fun q => q.1 < cx)
  let n := (row || p = 2) && l.any (fun q => q.1 == cx && q.2 < cy)
  let s := (row || p = 0) && l.any (fun q => q.1 == cx && cy < q.2)
  let own := l.any (fun q => q.1 == cx && q.2 == cy)
  BitVec.ofNat 6 (b2n n + 2 * b2n e + 4 * b2n s + 8 * b2n w + 16 * b2n own)

/-- The outputs of a message at tile `key` that arrived on port `p`, under a slot (R158, R164). -/
def outputsOf (pkg key p : Nat) (s : Slot) (flits : List Flit) : BitVec 6 :=
  match flits with
  | [] => 0
  | f :: l =>
    match (readFlit f).2 with
    | none => 0
    | some w =>
      let h := Hdr.of w
      if h.kind = kFLOCK then
        match l with
        | [] => 0
        | g :: _ => flockOuts (key % 256) p h ((readFlit g).2.getD 0)
      else BitVec.ofNat 6 (2 ^ routeOut pkg (key / 256) (key % 256) s.exitX.toNat s.exitY.toNat h)

/-- The neighbour of tile `key` on output `o` of N, E, S, W, with the port it arrives on; none at a mesh edge (R32). -/
def neighbour (key o : Nat) : Option (Nat × Nat) :=
  let x := tileX (key % 256)
  let y := tileY (key % 256)
  let d := key / 256
  if o = 0 then (if y = 0 then none else some (tileKey d (tileOf x (y - 1)), 2))
  else if o = 1 then (if x = 15 then none else some (tileKey d (tileOf (x + 1) y), 3))
  else if o = 2 then (if y = 15 then none else some (tileKey d (tileOf x (y + 1)), 0))
  else if o = 3 then (if x = 0 then none else some (tileKey d (tileOf (x - 1) y), 1))
  else none

/-- The index of port `p` among the input buffers N, E, S, W, V. -/
def inIdx (p : Nat) : Nat := if p = 5 then 4 else p

/-! ### Discards (R138, R139, R971) -/

/-- The classes of R138 in the order of its table. -/
inductive Discard
  | malformed | misaddressed | stale | unauthorised | fenced
  deriving DecidableEq, Repr

/-- A message of header word `w` discarded by a router: its class's counter, BLK_FAULT, BLK_FAULT_ADDR and the event
(R138, R139, R190). -/
def routerDiscard (p : Page) (c : Discard) (w : Nat) : Page :=
  let h := Hdr.of w
  match c with
  | .malformed =>
    let q := p.cntSat 0x160 1
    (if p.fault = 0 then q.raise evDiscard else q).record stBAD_OPERAND (bits w 63 32) h.origin
  | .misaddressed =>
    let q := p.cntSat 0x164 1
    (if p.fault = 0 then q.raise evDiscard else q).record stBAD_OPERAND (bits w 63 32) h.origin
  | .stale => (p.cntSat 0x168 1).raise evStale
  | .unauthorised =>
    let q := p.cntSat 0x16C 1
    (if p.fault = 0 then q.raise evDiscard else q).record stNO_AUTHORITY (bits w 63 32) h.origin
  | .fenced => (p.cntSat 0x170 1).raise evRFenced

/-- The class, if any, in which port L of tile `key` discards a data-plane message of pasture `p` (R103, R108, R138,
R467, R971). -/
def deliverClass (env : MeshEnv) (key p : Nat) (h : Hdr) : Option Discard :=
  if kindClass h.kind != some h.qclass || 5 ≤ h.origin then some .malformed
  else if h.pkg != env.pkg || h.die != key / 256 || tileOf h.x h.y != key % 256
      || !(h.kind = kAXON || h.kind = kTALLY) || tileKind (key % 256) != .neuron then some .misaddressed
  else if h.stamp != env.roundOf p % 256 then some .stale
  else if 3 ≤ h.origin then some .unauthorised
  else if !env.owns p key then some .fenced
  else none

/-- The core drains its inbound AXON queue while its domain serves (R119, R590). -/
def Mesh.serve (m : Mesh) (key p : Nat) : Mesh :=
  if m.env.coreServes key then
    let k := Work.drainAxons { t := m.tile key }
    let m := m.put key k.t
    { m with tx := m.tx ++ k.tx.map (fun w => (p + 1, w)), holds := if k.hold then p :: m.holds else m.holds }
  else m

/-- A data-plane message of one flit delivered through port L of tile `key` for pasture `p`: checked, then placed in the
inbound AXON queue and served (R109, R114, R138). -/
def Mesh.deliver (m : Mesh) (key p w : Nat) : Mesh :=
  let t := m.tile key
  match deliverClass m.env key p (Hdr.of w) with
  | some c => m.put key { t with pRouter := routerDiscard t.pRouter c w }
  | none =>
    let q := { t.q with axon := t.q.axon ++ [mkFlit w] }
    (m.put key { t with q := raiseHigh q 0 q.axon.length }).serve key p

/-! ### Taking a message in (R95, R113, R140) -/

/-- What a router makes of the flits of a message it takes in: corrected data words with the count of corrections, or
none with whether the header itself was uncorrectable. -/
def takeFlits : List Flit → Nat → List Nat × Nat × Bool
  | [], c => ([], c, true)
  | f :: l, c =>
    match readFlit f with
    | (.clean, some d) => let r := takeFlits l c; (d :: r.1, r.2.1, r.2.2)
    | (_, some d) => let r := takeFlits l (c + 1); (d :: r.1, r.2.1, r.2.2)
    | (_, none) => ([], c, false)

/-- A FLOCK that the router of tile `key`, in package `pkg`, discards at take-in (R112, R113). -/
def flockBad (pkg key : Nat) (ws : List Nat) : Bool :=
  match ws with
  | w :: mask :: _ =>
    let h := Hdr.of w
    h.kind = kFLOCK && (h.pkg != pkg || h.die != key / 256 || !flockLegal h mask || h.qclass != 0 || 5 ≤ h.origin)
  | _ => false

/-- The flits of a message arrive at input `port` of tile `key`, for pasture `p`. -/
def Mesh.takeIn (m : Mesh) (key port p : Nat) (flits : List Flit) : Mesh :=
  let t := m.tile key
  let i := inIdx port
  if nth false t.rt.skipping i then m
  else
    let r := takeFlits flits 0
    let pg := iter Page.corrected r.2.1 t.pRouter
    if !r.2.2 then
      let rt := if r.1.isEmpty then { t.rt with skipping := listSet t.rt.skipping i true } else t.rt
      let m := m.put key { t with pRouter := pg.raise evRUncorr, rt := rt }
      { m with holds := p :: m.holds }
    else if flockBad m.env.pkg key r.1 || (port = 5 && (Hdr.of (nth 0 r.1 0)).kind = kFLOCK) then
      m.put key { t with pRouter := routerDiscard pg .malformed (nth 0 r.1 0) }
    else if !t.rt.slots.any (fun s => s.valid && s.bindIn.getLsbD port) then
      m.put key { t with pRouter := routerDiscard pg .fenced (nth 0 r.1 0) }
    else
      m.put key { t with pRouter := pg, rt := { t.rt with
        inputs := listSet t.rt.inputs i (nth [] t.rt.inputs i ++ [.msg (r.1.map mkFlit) 0]) } }

/-! ### Buffers -/

/-- Data flits of a buffer. -/
def bufFlits : List Item → Nat
  | [] => 0
  | .msg f _ :: l => f.length + bufFlits l
  | .close :: l => bufFlits l

/-- Pending closes of a buffer. -/
def bufCloses : List Item → Nat
  | [] => 0
  | .msg _ _ :: l => bufCloses l
  | .close :: l => 1 + bufCloses l

/-- The running slot that binds input `i` of the tile. -/
def boundSlot (t : Tile) (p : Nat) : Option Slot :=
  t.rt.slots.find? (fun s => s.valid && s.running && s.bindIn.getLsbD p)

/-- A close at the head of an input whose close mask is empty is removed at once (R162). -/
def dropFree : Nat → BitVec 6 → List Item → List Item
  | 0, _, l => l
  | n + 1, mask, .close :: l => if mask = 0 then dropFree n mask l else .close :: l
  | _, _, l => l

/-- Input `port` of the tile with closes of an empty close mask removed from its head. -/
def Tile.settleInput (t : Tile) (port : Nat) : Tile :=
  match boundSlot t port with
  | none => t
  | some s =>
    let i := inIdx port
    let l := nth [] t.rt.inputs i
    { t with rt := { t.rt with inputs := listSet t.rt.inputs i (dropFree (l.length + 1) (nth 0 s.closeMask port) l) } }

/-- The V side feeds its next pace into an empty V buffer: events up to the pace's limit, then its close (R64). An input
fed by a rack-link channel passes what has come and ends its pace only with the channel's close, or its count (R729). -/
def Tile.feedV (t : Tile) (p : Nat) : Tile :=
  if (nth [] t.rt.inputs 4).isEmpty then
    match t.rt.vfeed.paces with
    | [] => t
    | (lim, close) :: ps =>
      let mine := t.rt.vfeed.events.filter (fun e => e.1.val == p)
      let cnt := if lim = 0 then mine.length else min lim mine.length
      let rest := t.rt.vfeed.events.filter (fun e => e.1.val != p) ++ mine.drop cnt
      let ends := match t.rt.vfeed.closes with
        | none => true
        | some n => if close then n != 0 else cnt = lim
      let paces := if ends then ps else if close then (lim, close) :: ps else (lim - cnt, close) :: ps
      let closes := if ends && close then t.rt.vfeed.closes.map (fun n => n - 1) else t.rt.vfeed.closes
      let items := (mine.take cnt).map (fun e => Item.msg e.2 0) ++ (if close && ends then [Item.close] else [])
      { t with rt := { t.rt with vfeed := { events := rest, paces := paces, closes := closes }, inputs := listSet t.rt.inputs 4 items } }
  else t

/-! ### The pace (R161, R162) -/

/-- Output `o` of tile `key` set by `f`. -/
def Mesh.out (m : Mesh) (key o : Nat) (f : OutPos → OutPos) : Mesh :=
  let t := m.tile key
  m.put key { t with rt := { t.rt with outs := listSet t.rt.outs o (f (nth OutPos.idle t.rt.outs o)) } }

/-- The output waits; waiting for an acknowledge counts once in OUTWAIT (R191). -/
def Mesh.wait (m : Mesh) (key o : Nat) (w : WaitOn) : Mesh :=
  let t := m.tile key
  let was := (nth OutPos.idle t.rt.outs o).waitOn
  let m := m.out key o (fun p => { p with waitOn := some w })
  if w = .ack && was != some .ack then
    let t := m.tile key
    let c := BitVec.ofNat 32 (satAdd 32 (nth 0 t.q.outwait o).toNat 1)
    m.put key { t with q := { t.q with outwait := listSet t.q.outwait o c } }
  else m

/-- The downstream of output `o` has room for `n` more flits: 4 data flits a buffer, 64 in an inbound AXON queue
(R144, R145, R149). -/
def Mesh.room (m : Mesh) (key o n : Nat) : Bool :=
  if o = 4 then (m.tile key).q.axon.length + 1 ≤ 64
  else match neighbour key o with
    | some q => bufFlits (nth [] (m.tile q.1).rt.inputs (inIdx q.2)) + n ≤ 4
    | none => true

/-- A message passes output `o` of tile `key` under pasture `p` (R95, R165): to the neighbour's input, into the own core
as an AXON of one flit, or through port V to the base die. -/
def Mesh.passOut (m : Mesh) (key o p : Nat) (flits : List Flit) : Mesh :=
  let ws := flits.map (fun f => ((readFlit f).2).getD 0)
  let m := { m with progress := p :: m.progress }
  if o = 4 then
    let h := Hdr.of (nth 0 ws 0)
    let w := if h.kind = kFLOCK then
        ({ h with kind := kAXON, x := tileX (key % 256), y := tileY (key % 256) } : Hdr).word
      else nth 0 ws 0
    m.deliver key p w
  else match neighbour key o with
    | some q => m.takeIn q.1 q.2 p flits
    | none => { m with toBase := m.toBase ++ [(key, p, ws)] }

/-- Output `o` is recorded as having passed the head of input `port`; the message leaves when all its outputs have
(R163). -/
def Mesh.markPassed (m : Mesh) (key port o : Nat) (outs : BitVec 6) : Mesh :=
  let t := m.tile key
  let i := inIdx port
  match nth [] t.rt.inputs i with
  | .msg f pd :: l =>
    let pd := pd ||| BitVec.ofNat 6 (2 ^ o)
    let l := if pd &&& outs = outs then l else .msg f pd :: l
    m.put key (({ t with rt := { t.rt with inputs := listSet t.rt.inputs i l } } : Tile).settleInput port)
  | _ => m

/-- The oldest outbound message routed to output `o` and not yet passed by it: its place and its flits (R160). -/
def oldestFor (pkg key o : Nat) (s : Slot) : List (List Flit × BitVec 6) → Nat → Option (Nat × List Flit × BitVec 6)
  | [], _ => none
  | (f, pd) :: l, i =>
    let outs := outputsOf pkg key 4 s f
    if outs.getLsbD o && !pd.getLsbD o then some (i, f, outs) else oldestFor pkg key o s l (i + 1)

/-- The outbound queue after output `o` passed message `i`. -/
def outboundPassed (i o : Nat) (outs : BitVec 6) (l : List (List Flit × BitVec 6)) : List (List Flit × BitVec 6) :=
  match l[i]? with
  | none => l
  | some (f, pd) =>
    let pd := pd ||| BitVec.ofNat 6 (2 ^ o)
    if pd &&& outs = outs then l.take i ++ l.drop (i + 1) else listSet l i (f, pd)

/-- Malformed FLOCKs leave the outbound queue as the router of their own core takes them in (R113). -/
def Mesh.purge (m : Mesh) (key : Nat) : Mesh :=
  let t := m.tile key
  let bad (e : List Flit × BitVec 6) : Bool := flockBad m.env.pkg key (e.1.map (fun f => (readFlit f).2.getD 0))
  let gone := t.q.outbound.filter bad
  if gone.isEmpty then m
  else
    let pg := gone.foldl (fun p e => routerDiscard p .malformed ((readFlit (nth 0 e.1 0)).2.getD 0)) t.pRouter
    m.put key { t with pRouter := pg, q := { t.q with outbound := t.q.outbound.filter (fun e => !bad e) } }

/-- The output moves to the entry at `pos`: an entry marked LAP_MARK makes it wait for its tile's lap (R167). -/
def Mesh.enter (m : Mesh) (key o pos : Nat) : Mesh :=
  let r := (m.tile key).drove pos
  let m := m.put key r.1
  m.out key o (fun p => { p with pos := BitVec.ofNat 11 pos, n := 0, waitOn := none, owesClose := false
                                 atLap := match r.2 with | some e => e.lapMark | none => false })

/-- The close of a finished pace is made when the downstream has fewer than 4 pending closes (R60, R145); then the output
moves on, or reports to the lap vote after its END entry (R65). -/
def Mesh.finishPace (m : Mesh) (key o : Nat) : Mesh :=
  let t := m.tile key
  let ps := nth OutPos.idle t.rt.outs o
  let after (m : Mesh) : Mesh :=
    let r := (m.tile key).drove ps.pos.toNat
    match r.2 with
    | none => m.out key o (fun p => { p with stopped := true })
    | some e =>
      if e.isEnd then m.out key o (fun p => { p with owesClose := false, done := true, waitOn := some .vote })
      else m.enter key o (ps.pos.toNat + 1)
  match neighbour key o with
  | none => if o = 5 then after { m with toBase := m.toBase ++ [(key, (match ps.slot with | some i => (nth Slot.empty t.rt.slots i.val).pasture.val | none => 0), [])] } else after m
  | some q =>
    if o = 4 then after m
    else
      let d := m.tile q.1
      let i := inIdx q.2
      let l := nth [] d.rt.inputs i
      if 4 ≤ bufCloses l then (m.out key o (fun p => { p with owesClose := true })).wait key o .ack
      else
        let d := { d with rt := { d.rt with inputs := listSet d.rt.inputs i (l ++ [Item.close])
                                            skipping := listSet d.rt.skipping i false } }
        after (m.put q.1 (d.settleInput q.2))

/-- An output of the tile stands in a close-terminated entry that names input `port` (R162). -/
def standsAt (t : Tile) (port o : Nat) : Bool :=
  let p := nth OutPos.idle t.rt.outs o
  p.slot.isSome && !p.stopped && !p.done && !p.atLap && !p.owesClose &&
    (match (t.drove p.pos.toNat).2 with
     | some e => e.input == port && !e.closeOnCount
     | none => false)

/-- The close at the head of input `port` of tile `key` is removed once every output of its close mask stands at it;
each of those outputs then ends its pace (R162, R175). None while the join is not complete. -/
def Mesh.join (m : Mesh) (key port : Nat) : Option Mesh :=
  let t := m.tile key
  match boundSlot t port with
  | none => none
  | some s =>
    let i := inIdx port
    let mask := nth 0 s.closeMask port
    match nth [] t.rt.inputs i with
    | .close :: l =>
      let outs := (upto 6).filter (fun o => mask.getLsbD o)
      if outs.all (standsAt t port) then
        let t := ({ t with rt := { t.rt with inputs := listSet t.rt.inputs i l } } : Tile).settleInput port
        some (outs.foldl (fun m o => m.finishPace key o) (m.put key t))
      else none
    | _ => none

/-- What one output does next within its drove entry: none when it cannot go on (R161). -/
def Mesh.stepOut (key o : Nat) (m : Mesh) : Option Mesh :=
  let m := m.purge key
  let t := m.tile key
  let ps := nth OutPos.idle t.rt.outs o
  match ps.slot with
  | none => none
  | some si =>
    if ps.stopped || ps.done || ps.atLap then none
    else if ps.owesClose then
      let m' := m.finishPace key o
      if (nth OutPos.idle (m'.tile key).rt.outs o).owesClose then none else some m'
    else
      let s := nth Slot.empty t.rt.slots si.val
      let p := s.pasture.val
      let r := t.drove ps.pos.toNat
      match r.2 with
      | none =>
        let m := (m.put key r.1).out key o (fun q => { q with stopped := true })
        some { m with droveBad := p :: m.droveBad }
      | some e =>
        let lim := if e.input = 4 && ps.inLap then s.lapMax.toNat else e.max
        if e.closeOnCount && ps.n = lim then some (m.finishPace key o)
        else if e.input = 4 then
          match oldestFor m.env.pkg key o s t.q.outbound 0 with
          | none => some (m.finishPace key o)
          | some (i, f, outs) =>
            if m.room key o f.length then
              let m := m.put key { t with q := { t.q with outbound := outboundPassed i o outs t.q.outbound } }
              let m := m.out key o (fun q => { q with n := q.n + 1, waitOn := none })
              some (m.passOut key o p f)
            else if ps.waitOn = some .ack then none
            else some (m.wait key o .ack)
        else
          let t := if e.input = 5 then t.feedV p else t
          let m := m.put key t
          match nth [] t.rt.inputs (inIdx e.input) with
          | .msg f pd :: _ =>
            let outs := outputsOf m.env.pkg key e.input s f
            if outs.getLsbD o && !pd.getLsbD o then
              if !e.closeOnCount && lim != 0 && ps.n = lim then
                let t := m.tile key
                let m := m.put key { t with pRouter := t.pRouter.raise evPaceExcess }
                some (m.out key o (fun q => { q with stopped := true, waitOn := some .excess }))
              else if m.room key o f.length then
                let m := m.markPassed key e.input o outs
                let m := m.out key o (fun q => { q with n := q.n + 1, waitOn := none })
                some (m.passOut key o p f)
              else if ps.waitOn = some .ack then none
              else some (m.wait key o .ack)
            else if ps.waitOn = some .headOther then none
            else some (m.wait key o .headOther)
          | .close :: _ =>
            if e.closeOnCount then (if ps.waitOn = some .headOther then none else some (m.wait key o .headOther))
            else match m.join key e.input with
              | some m => some m
              | none => if ps.waitOn = some .join then none else some (m.wait key o .join)
          | [] => if ps.waitOn = some .message then none else some (m.wait key o .message)

/-- The output runs the drove entry it stands at, as far as it can go: to the end of its pace or to a wait. -/
def Mesh.runEntry (m : Mesh) (key o : Nat) : Mesh :=
  let start := (nth OutPos.idle (m.tile key).rt.outs o).pos
  iterOpt (fun m =>
    if (nth OutPos.idle (m.tile key).rt.outs o).pos = start then Mesh.stepOut key o m else none) 65600 m

/-- Every output of tile `key` runs on through its entries until each waits. -/
def Mesh.runTile (m : Mesh) (key : Nat) : Mesh :=
  iterOpt (fun m =>
    let m' := (upto 6).foldl (fun m o => m.runEntry key o) m
    if m'.tiles = m.tiles then none else some m') 4096 m

/-! ### Rounds and laps on a tile (R64, R167) -/

/-- The paces that the V side makes in a section: one for each V entry of the first output of V's close mask that names
V there, or of the first output naming V when the mask is empty (R64). -/
def vPaces (t : Tile) (s : Slot) (lap : Bool) : List (Nat × Bool) :=
  let mask := nth 0 s.closeMask 5
  let entries (o : Nat) : List Drove :=
    let l := nth { base := 0, len := 0 } s.lists o
    ((upto l.len).filterMap (fun i => (t.drove (l.base + i)).2))
  let section_ (o : Nat) : List Drove :=
    let es := entries o
    let pre := es.takeWhile (fun e => !e.lapMark)
    (if lap then es.drop pre.length else pre).filter (fun e => e.input == 5)
  let outs := (upto 6).filter (fun o => (mask = 0 || mask.getLsbD o) && !(section_ o).isEmpty)
  match outs with
  | [] => []
  | o :: _ => (section_ o).map (fun e => (e.max, !e.closeOnCount))

/-- The outputs of slot `si` of tile `key` start the round at the first entry of their lists (R161). -/
def Mesh.startRound (m : Mesh) (key si : Nat) : Mesh :=
  let t := m.tile key
  let s := nth Slot.empty t.rt.slots si
  let t := { t with rt := { t.rt with laps := 0, vfeed := { t.rt.vfeed with paces := vPaces t s false } } }
  let m := m.put key t
  (upto 6).foldl (fun m o =>
    let l := nth { base := 0, len := 0 } s.lists o
    if l.len = 0 || !s.bindOut.getLsbD o then m
    else
      let m := m.out key o (fun _ => { OutPos.idle with slot := some (Fin.ofNat 8 si) })
      m.enter key o l.base) m

/-- The outputs of slot `si` on the tile. -/
def slotOuts (t : Tile) (si : Nat) : List (Nat × OutPos) :=
  (upto 6).filterMap (fun o =>
    let p := nth OutPos.idle t.rt.outs o
    if p.slot = some (Fin.ofNat 8 si) then some (o, p) else none)

/-- A lap starts on tile `key` for slot `si` when every output with a list waits at its LAP_MARK: the fold moves, then the
lap section runs (R167). The answer says whether it started. -/
def Mesh.startLap (m : Mesh) (key si : Nat) (core : Bool) : Mesh × Bool :=
  let t := m.tile key
  let outs := slotOuts t si
  if outs.isEmpty || !outs.all (fun e => e.2.atLap) then (m, false)
  else
    let s := nth Slot.empty t.rt.slots si
    let k := if core then foldMove { t := t } else ({ t := t } : Work)
    let t := { k.t with rt := { k.t.rt with
      laps := BitVec.ofNat 16 (satAdd 16 k.t.rt.laps.toNat 1)
      vfeed := { k.t.rt.vfeed with paces := vPaces k.t s true }
      outs := k.t.rt.outs.map (fun (p : OutPos) =>
        if p.slot = some (Fin.ofNat 8 si) then { p with atLap := false, inLap := true, n := 0, waitOn := none } else p) } }
    let m := m.put key t
    ({ m with holds := if k.hold then s.pasture.val :: m.holds else m.holds }, true)

/-- Every output of slot `si` has passed its END entry, or the tile has no list for the pasture (R65). -/
def tileVoted (t : Tile) (si : Nat) : Bool := (slotOuts t si).all (fun e => e.2.done)

/-- The tile reports pending to the lap vote of pasture `p` (R168); `core` says that its core is the pasture's. -/
def tilePending (t : Tile) (core : Bool) (p : Nat) : Bool :=
  core && (!t.q.outbound.isEmpty || t.q.foldCount != 0) || t.rt.vfeed.events.any (fun e => e.1.val == p)

/-- The outputs of slot `si` start again at their LAP_MARK entries (R65). -/
def Mesh.toLapMark (m : Mesh) (key si : Nat) : Mesh :=
  let s := nth Slot.empty (m.tile key).rt.slots si
  (slotOuts (m.tile key) si).foldl (fun m e =>
    let l := nth { base := 0, len := 0 } s.lists e.1
    match (upto l.len).find? (fun i =>
        match ((m.tile key).drove (l.base + i)).2 with | some d => d.lapMark | none => false) with
    | none => m
    | some i => (m.out key e.1 (fun p => { p with done := false })).enter key e.1 (l.base + i)) m

/-- The outputs of slot `si` stop until the next round. -/
def Mesh.stopRound (m : Mesh) (key si : Nat) : Mesh :=
  let t := m.tile key
  m.put key { t with rt := { t.rt with
    outs := t.rt.outs.map (fun p => if p.slot = some (Fin.ofNat 8 si) then OutPos.idle else p) } }

end Sys2Proof.Machine
end

