-- ==== Sys2Proof/Machine/Init.lean ====
section
/-! DEFINITION. The values at reset of the parts of the state, and what an unlisted key of each map reads as. -/

namespace Sys2Proof.Machine

/-! ### Domain numbers (R582, R583) -/

/-- The number of base domain `b`. -/
def baseDomain (b : Nat) : Nat := 256 * (b / 16) + 64 * (b % 16 / 4) + 4 * (b % 4) + 34

/-- The port index of a port tile (R550). -/
def portIndex (t : Nat) : Nat := 4 * (tileY t / 4) + tileX t / 4

/-- The port tile of port index `p` (R582). -/
def portTile (p : Nat) : Nat := 64 * (p / 4) + 4 * (p % 4) + 34

/-- What a domain number names. -/
inductive DomKind
  | bank
  | base (b : Nat)
  | nothing
  deriving DecidableEq, Repr

/-- The kind of domain number `n` (R582, R583). -/
def domKind (n : Nat) : DomKind :=
  if 1024 ≤ n then .nothing
  else if tileKind (n % 256) = .port then
    let b := 16 * (n / 256) + portIndex (n % 256)
    if b ≤ 18 || (20 ≤ b && b ≤ 23) then .base b else .nothing
  else .bank

def domAON := 34
def domCROOK := 38
def domCONTROL := 42
def domCOMMONS := 46
def domNV := 98
def domGATE := 102
def domSTREAM := 298

/-- The domain of link `k`, CSI receiver `k`, AER port `k` and regulator `d`. -/
def domLINK (k : Nat) : Nat := baseDomain (6 + k)
def domCSI (k : Nat) : Nat := baseDomain (12 + k)
def domAER (k : Nat) : Nat := baseDomain (16 + k)
def domREG (d : Nat) : Nat := baseDomain (20 + d)

/-- A base domain may take a state (R583). -/
def baseDomHas (b : Nat) (s : DomState) : Bool :=
  if b ≤ 1 then s == .on else if b = 2 || b = 3 then true else s != .retain

/-- A domain before anything has changed it: AON, CROOK and CONTROL ON, every other OFF (R610). -/
def domDefault (n : Nat) : DomRec :=
  { state := if n = domAON || n = domCROOK || n = domCONTROL then .on else .off
    draining := false, waking := false, current := none, prev := .off, drainFrom := 0, queued := [], wakeAfter := false
    lastStatus := 0, drainTime := 0 }

/-- CORE and ROUTER domains are OFF until their die's regulator is ON (R590, R591, R593). -/
def selfDomDefault : Nat → DomState := fun _ => .off

/-! ### Queue contexts, scoreboard, sync objects (R380–R384) -/

/-- A queue context at reset. -/
def Ctx.init : Ctx :=
  { state := .disabled, pi := 0, ci := 0, cqPi := 0, cqCi := 0, ring := 0, cqRing := 0, shadow := 0, logSq := 0, logCq := 0
    priority := 0, weight := 16, inflight := 64, vector := 0, modCount := 1, modDelay := 0, irqEn := false, seqNext := 0
    dupLast := 0, dups := 0, dbErrors := 0, vtime := 0, wasEligible := false, counted := 0, cqWaiting := false }

/-- The operator context as the Crook enables it: rings of 64 records, the command ring at the start of the Crook bank and
the completion ring at 0x1000 (R803, assumption 18). -/
def Ctx.operator : Ctx := { Ctx.init with state := .active, cqRing := 0x1000, logSq := 6, logCq := 6 }

def ctxDefault : Nat → Ctx := fun _ => Ctx.init

/-- A FREE scoreboard entry. -/
def SbEntry.init : SbEntry :=
  { state := .free, source := .share, words := List.replicate 8 0, w0Met := false, w1Met := false, fetchNo := 0
    readyNo := 0, readyAt := 0, progress := 0, status := 0, result := 0, parts := 0, done := 0, waitedPool := false
    testFlags := 0, woke := false, aborting := false, submit := none }

def sbDefault : Nat → SbEntry := fun _ => SbEntry.init

/-- A sync object of type NONE. -/
def SyncObj.init : SyncObj :=
  { type := 0, poisoned := false, owned := false, owner := 0, value := 0, arrived := 0, expected := 0 }

def objDefault : Nat → SyncObj := fun _ => SyncObj.init

/-! ### Pastures and units (R448, R449, R491) -/

/-- No muster or vote item has come or gone. -/
def Span.init : Span :=
  { arrives := [], votes := [], sentArrive := false, sentVote := false, done := none, woke := false, result := none }

/-- A free pasture identifier. -/
def Past.init : Past :=
  { presence := .free, kind := 0, flags := 0, stallLimit := 0, sliceRounds := 0, seed := 0, packages := 1, nvFirst := 0
    nvPages := 0, sections := [], extents := [], peers := [], pkgMap := [], imgPkg := 0, dies := [], tiles := []
    pageAddr := 0, pageLen := 0, inPageArea := false, round := 0, phase := .none, skippedRun := 0, skippedTotal := 0
    overruns := 0, paced := false, period := 0, anchor := 0, anchorRound := 0, anchored := false, tickDue := false
    parked := false, gapWaited := false, longIdle := false, quiet := false, run := none, nextRun := none, abortRun := false
    abortNext := false, passedOver := [], hold := none
    pendingHold := none, faultHold := none, pendingFault := none, thermal := false, storm := false, maintenance := false
    restoreFailed := false, stalled := false, stallMapRead := false, droveBad := false, progressAt := 0, inject := [], entered := []
    ckpts := [], shifts := [], ring := none, log := none, logEnable := false, autoRestart := false
    digestCap := 64, digestRound := 0, digest := 0, partials := [], inputs := [], digests := [], restarts := [], restartStatus := 0, restartRound := 0, roundsSinceCkpt := 0, sliceRan := 0
    residentSince := 0, boundary := none, span := Span.init }

def pastDefault : Nat → Past := fun _ => Past.init

/-- The kind number of a unit key, its die and its tile. -/
def unitKind (u : Nat) : Nat := u / 1024 % 8
def unitDie (u : Nat) : Nat := u % 4
def unitTile (u : Nat) : Nat := u / 4 % 256

/-- The key of a unit (the layout of UNIT_SEL). -/
def unitKey (kind die tile : Nat) : Nat := die + 4 * tile + 1024 * kind

/-- A unit kind suits a tile kind (R458, R552). -/
def unitExists (u : Nat) : Bool :=
  match unitKind u, tileKind (unitTile u) with
  | 0, .neuron => true
  | 1, .tensor => true
  | 2, _ => true
  | 3, .neuron => true
  | 3, .tensor => true
  | 4, .port => true
  | _, _ => false

/-- A unit before the boot has built the unit table: IN_SERVICE where it exists, OFF where no such unit exists. -/
def unitDefault (u : Nat) : UnitRec :=
  let s := if unitExists u then UnitState.inService else .off
  { crook := s, shepherd := s, clearing := false, testing := false, due := false, deferred := false, deferredAt := 0
    forced := false, watch := 0, fails := 0, lastTest := 0, lastFailed := 0 }

/-- The number of a unit state (R458). -/
def unitNum : UnitState → Nat
  | .off => 0
  | .fenced => 1
  | .watch => 2
  | .spare => 3
  | .inService => 4

/-- The applied state of a unit: the lower of the two views (R458, R867). -/
def UnitRec.applied (u : UnitRec) : UnitState := if unitNum u.crook ≤ unitNum u.shepherd then u.crook else u.shepherd

/-! ### The anneal engine, the merge buffer -/

/-- A ladder slot that holds no ladder. -/
def Ladder.init : Ladder :=
  { valid := false, running := false, root := false, freeMode := false, inexact := false, pasture := 0, colours := 0
    exchSweeps := 0, kickBase := 0, kick := 0, s0 := 0, exchIndex := 0, best := 0, bestReplica := 0, bestExch := 0
    bestSet := false, stag := 0, rungs := [], replicas := [], target := none, roundLimit := 0, stagExch := 0, entry := none
    stopping := none }

def ladderDefault : Nat → Ladder := fun _ => Ladder.init
def mergeDefault : Nat → MergeSlot := fun _ => { line := none, lastUse := 0 }

/-! ### The stack (R573, R574) -/

/-- A direction of a vertical link without failures. -/
def VDir.init : VDir := { failed := 0, spares := List.replicate 4 0x7F, half := false, rails := 0 }

def vlinkDefault : Nat → VLink := fun _ =>
  { up := VDir.init, down := VDir.init, lastCheck := 0, due := false, ce := [], tests := [] }

/-- A compute die before its handshake. -/
def DieRec.init : DieRec :=
  { state := .off, hs := 0, target := 0, applied := 0, ceiling := 900, capVolt := 900, power := 0, step := none
    thermal := .normal, temp := none, regFault := false, waiters := [] }

/-! ### RTC, latches, gate, streams, links, the Crook -/

def Rtc.init : Rtc :=
  { time := 0, timeHi := 0, valid := false, internal := false, locked := false, alarm0 := 0, alarm1 := 0
    fired0 := false, fired1 := false }

/-- After a power-on reset a hurdle latch holds its output disabled (R610). -/
def Latch.init : Latch := { latched := true, value := false, enable := false }

def msixDefault : Nat → MsixEntry := fun _ => { addr := 0, data := 0, masked := true, pending := false }

def ERing.init : ERing :=
  { base := 0, logSize := 0, vector := 0, vecEn := false, en := false, pi := 0, ci := 0, waiting := [], got := [] }

def eringDefault : Nat → ERing := fun _ => ERing.init

def Gate.init : Gate :=
  { dlUp := false, l1 := false, l12 := false, d3hot := false, ready := false, width := 0, speed := 0, limits := 0x12
    config := [], msix := [], rings := [], sent := [], lost := [], dmaBad := false }

def StreamRec.init : StreamRec :=
  { port := 0, vc := 0, encoder := false, adrMode := false, ipkg := 0, width := 1, height := 1, patchW := 1, patchH := 1
    polStride := 0, shift := 0, thrOn := 1, thrOff := 1, fifoKib := 1, mapFirst := 0, mapCount := 1, entries := [] }

/-- A FREE stream context (R711). -/
def StreamCtx.init : StreamCtx :=
  { bound := none, info := StreamRec.init, stopped := false, fifoBase := 0, refBase := 0, fifoHead := 0, fifoCount := 0
    fifoPorts := [], high := 0, frame := 0, refValid := false, inFrame := false, line := 0, frameOk := false
    skipFrame := false, refBad := [], cntRx := 0, cntEntered := 0, cntDrop := 0, cntUnmapped := 0, cntRange := 0, cntMalformed := 0
    cntStopped := 0, cntUe := 0 }

/-- An idle AER port (R700). -/
def Aer.init : Aer := { req := false, ack := false, d := 0 }

/-- A class of a link direction at its reset values (R753). -/
def LinkClass.init : LinkClass :=
  { txq := [], txCount := 0, txLimit := 128, txLeft := 0, rxCount := 0, rxLimit := 128, partly := [], frames := 0 }

/-- A link end at reset (R753). -/
def Link.init : Link :=
  { phase := .off, epoch := 0, txSeq := 0, rxSeq := 0, nakDue := false, nakSent := false, cclass := 0
    classes := List.replicate 4 LinkClass.init, replay := [], replaying := none, resumable := false, peerSeen := false
    sentSeen := false, peerPkg := 0, peerPort := 0, wire := [], rxChannels := [], txChannels := [] }

def Crook.init : Crook :=
  { smbus := [], mbox := [], mboxHeld := none, frames := [], job := none, session := none, submits := [], staging := [], console := [], alerted := []
    fwCopyB := false, fwVersion := 0, fwRollback := 0, versionA := none, versionB := none, auditHead := 0, auditAck := 0
    auditLost := 0 }

def DebugLock.init : DebugLock := { isOpen := false, ever := false, scope := 0, endsAt := 0, challenge := 0 }

/-! ### The NV store as it leaves the factory (assumption 6) -/

/-- The CRC-32C of a page of zeros. -/
def zeroPageCrc : W32 := 0x98F94189

def nvInfoDefault : Nat → NvMeta := fun _ =>
  { crc := zeroPageCrc, gen := 0, writes := 0, suspect := false, worn := false }

def areaDefault : Nat → AreaRec := fun _ =>
  { valid := false, first := 0, pages := 0, activeB := false, gen := 0, written := false, owner := none, lag := [] }

def auditDefault : Nat → List Byte := fun _ => []

/-- The page number of system page `n`. -/
def sysPage (n : Nat) : Nat := 16384 + n

/-- The non-zero bytes of a list laid out from address `a`, as memory cells. -/
def cellsOf (a : Nat) : List Byte → Memory
  | [] => []
  | b :: l => if b = 0 then cellsOf (a + 1) l else (a, b) :: cellsOf (a + 1) l

/-- The two state bits of domain `n` in profile 0 (R634). -/
def profile0Dom (n : Nat) : Nat :=
  match domKind n with
  | .bank => 0
  | .base b => if (12 ≤ b && b ≤ 18) then 2 else 0
  | .nothing => 2

/-- The 4,096 bytes of profile 0 (R628, R634). -/
def profile0Bytes : List Byte :=
  natLe 4 0x4C4B5046 ++ natLe 2 1 ++ natLe 2 0 ++ (List.replicate 4 (natLe 2 750)).flatten ++ natLe 2 0
    ++ natLe 4 (95 + 105 * 256 + 100 * 65536 + 2 * 16777216) ++ natLe 1 0x72 ++ natLe 6 0 ++ natLe 1 3 ++ natLe 2 0
    ++ natLe 4 0x00640064 ++ natLe 4 1000 ++ natLe 4 5 ++ List.replicate 724 0
    ++ (upto 256).map (fun i =>
         BitVec.ofNat 8 (profile0Dom (4 * i) + 4 * profile0Dom (4 * i + 1) + 16 * profile0Dom (4 * i + 2)
           + 64 * profile0Dom (4 * i + 3)))
    ++ List.replicate 3072 0

/-- The firmware image of copy A: a body of one zero byte, VERSION 1, ROLLBACK 0, signed with the key of FWKEY0. -/
def firmware0Bytes : List Byte :=
  natLe 4 0x4C4B4657 ++ natLe 2 1 ++ natLe 2 0 ++ natLe 4 1 ++ natLe 4 0 ++ natLe 4 1 ++ natLe 12 0
    ++ natLe 64 0xee1069e3f03884c3e5d457253423844a323c29eb4cde70630b58c3712a804a70221d35d9506e242c9414ff192e283dd6caa4eff86a457baf93d68189024d24b8
    ++ natLe 32 0
    ++ natLe 64 0x1f7e1d0de7046fd63f8e9c6533c1d40096403631c8d772fe1e9130e5fb341e9241e901762fe71d94b381008843bfb551092cd916d2fe3aadda05ccc878936b
    ++ natLe 64 0 ++ natLe 1 0

/-- A page programmed at the factory. -/
def factoryMeta (bytes : List Byte) : NvMeta :=
  { crc := BitVec.ofNat 32 (crc32c (bytes ++ List.replicate (4096 - bytes.length) 0)), gen := 1, writes := 1
    suspect := false, worn := false }

/-- The NV store as it leaves the factory: firmware copy A and both copies of profile 0; every other page zero. -/
def Nv.factory : Nv :=
  { data := cellsOf (4096 * sysPage 0) firmware0Bytes ++ cellsOf (4096 * sysPage 768) profile0Bytes
              ++ cellsOf (4096 * sysPage 769) profile0Bytes
    info := [(sysPage 0, factoryMeta firmware0Bytes), (sysPage 768, factoryMeta profile0Bytes),
             (sysPage 769, factoryMeta profile0Bytes)]
    areas := [], queue := [], jobs := [], shelter := none, audit := [] }

/-- The fuses of the part modelled: grade LK4-816 with every unit good (R3), generations P1 and C2 with their feature
words (R563); the key values and the serial number are the model's (assumption 7). -/
def Fuses.init : Fuses :=
  { serial := 1
    fwKey0 := natLe 32 0x1a5107f7681a02af2523a6daf372e10e3a0764c9d3fe4bd5b70ab18201985ad7
    fwKey1 := natLe 32 0x1a5107f7681a02af2523a6daf372e10e3a0764c9d3fe4bd5b70ab18201985ad7
    revoke0 := false
    dbgKey := natLe 32 0x1a5107f7681a02af2523a6daf372e10e3a0764c9d3fe4bd5b70ab18201985ad7
    debugBlock := false, rollback := 0, neuronGrade := 816, tensorGrade := 120, holes := [], baseGen := 1
    baseFeatures := 0x1F, dieGens := [2, 2, 2, 2], dieFeatures := [0x1F, 0x1F, 0x1F, 0x1F] }

end Sys2Proof.Machine
end

