-- ==== Sys2Proof/Machine/State.lean ====
section
/-! DEFINITION. The state of the machine: everything the spec gives the package, its sled, its rack shelf and its test
access port, and the queue of waiting commands, all plain data; the ways a command can stop; and the state right after
reset. -/

namespace Sys2Proof.Machine

/-- The package. -/
structure Chip where
  /-- Base-die fuses (R796). -/
  fuses : Fuses
  -- what a package reset keeps (R636)
  rtc : Rtc
  /-- Elapsed microseconds since power-on, which no load of TIME changes (R602). -/
  now : Nat
  latches : List Latch
  /-- Wake route slots: slot k of source s at 8·s + k, laid out as ROUTE_ENTRY (R599, R615). -/
  routes : Map W32
  /-- CNT_WAKE by source (R615). -/
  wakeCounts : Map W32
  /-- PROFILE.NEXT (R631). -/
  next : Option (BitVec 2)
  nv : Nv
  -- pins and resets
  /-- POR_N is low, or a brownout holds the reset (R622, R642). -/
  held : Bool
  /-- The pin POR_N is low. -/
  porLow : Bool
  /-- A rail other than VAON is out of range (R642). -/
  railsOut : Bool
  /-- PROFILE pins as sampled at the last release. -/
  pins : BitVec 2
  /-- THERM_TRIP_N is low (R566, R947). -/
  thermTrip : Bool
  -- pages, tiles, banks
  /-- Base-die register pages by page number. -/
  pages : Map Page
  /-- Tiles by die·256 + tile. -/
  tiles : Map Tile
  commons : Bank
  crookBank : Bank
  /-- The stream buffers of the six sensor ports. -/
  streamBanks : List Bank
  /-- CORE and ROUTER domains by tile key (R590, R591). -/
  coreDoms : Map DomState
  routerDoms : Map DomState
  /-- Switched domains by number (R582). -/
  doms : Map DomRec
  wakes : List WakeRun
  /-- Sources detected before the route table is in force (R640). -/
  heldWakes : List Nat
  dies : List DieRec
  /-- Vertical links by 16·die + port index. -/
  vlinks : Map VLink
  -- the gate and what it reaches
  gate : Gate
  /-- Host memory as the gate reaches it. -/
  host : Memory
  reads : List Outstanding
  -- sensor ports
  streams : List StreamCtx
  aers : List Aer
  -- rack links
  links : List Link
  /-- The link-state map: ports up, by package (R734). -/
  lsmap : Map (BitVec 6)
  -- management
  crook : Crook
  dbgLock : DebugLock
  -- engines
  ctxs : Map Ctx
  sb : Map SbEntry
  /-- How many commands have been fetched and have become READY, the order of R360. -/
  fetched : Nat
  readied : Nat
  objs : Map SyncObj
  channels : List Channel
  /-- Transfer staging buffers, completion slots and merge-buffer slots (R371). -/
  pools : List Pool
  pasts : Map Past
  sliceQ : List PastureId
  ladders : Map Ladder
  merge : Map MergeSlot
  units : Map UnitRec
  /-- The 16 disagreement entries (R868). -/
  disagree : List (Option Disagree)
  /-- Clearings of each tile since the release of POR_N (R480). -/
  clearings : Map Nat
  /-- Control messages sent and not yet delivered, each with its sender: 0 a base-die block, p + 1 a tile of pasture p. -/
  inFlight : List (Nat × List Nat)
  /-- Data-plane messages that have left a port tile through V: tile key, pasture, data words. -/
  leaving : List (Nat × Nat × List Nat)
  /-- The answer of the last request from outside: the model's own field. -/
  answer : Answer
  /-- Free values drawn so far: the model's own field. -/
  free : Nat
  deriving DecidableEq, Repr

/-- The whole state. -/
structure State where
  /-- The commands that wait, first in, first out. -/
  pending : List Instr
  chip : Chip
  tap : Tap
  sled : Sled
  shelf : Shelf
  deriving DecidableEq, Repr

/-- Faults: the machine stops. -/
inductive Fault
  /-- A command whose operands break the shape that the protocol of its port gives them (a rack-link frame that is not
  256 bytes, a message whose word count is not the one its header gives): no such thing can arrive. Raised by the
  commands that carry lists. Safe: the machine stops where the hardware meets no such input. -/
  | illFormed
  deriving DecidableEq, Repr

/-- Refusals: the model has no meaning. -/
inductive Refusal
  /-- The command has no meaning yet. Raised by the dispatch alone. Safe. -/
  | notModelled (mnemonic : String)
  deriving DecidableEq, Repr

/-- A stack of `n` free Transfer channels. -/
def freeChannels : List Channel := List.replicate 16 { entry := none }

/-- Pools wholly free (R380). -/
def freePools : List Pool := List.replicate 3 { used := 0, queue := [] }

/-- The package after a power-on reset, with POR_N held low (R620, R622, R636). -/
def Chip.reset : Chip :=
  { fuses := Fuses.init, rtc := Rtc.init, now := 0, latches := List.replicate 3 Latch.init, routes := [], wakeCounts := []
    next := none, nv := Nv.factory, held := true, porLow := true, railsOut := false, pins := 0, thermTrip := false, pages := [], tiles := []
    commons := Bank.init 64, crookBank := Bank.init 0, streamBanks := List.replicate 6 (Bank.init 0), coreDoms := []
    routerDoms := [], doms := [], wakes := [], heldWakes := [], dies := List.replicate 4 DieRec.init, vlinks := []
    gate := Gate.init, host := [], reads := [], streams := List.replicate 32 StreamCtx.init
    aers := List.replicate 2 Aer.init, links := List.replicate 6 Link.init, lsmap := []
    crook := Crook.init, dbgLock := DebugLock.init, ctxs := [], sb := [], fetched := 0, readied := 0, objs := []
    channels := freeChannels, pools := freePools, pasts := [], sliceQ := [], ladders := [], merge := [], units := []
    disagree := List.replicate 16 none, clearings := [], inFlight := [], leaving := [], answer := .none, free := 0 }

/-- The TAP in Test-Logic-Reset: IDCODE selected (R937). -/
def Tap.reset : Tap := { ir := 0x01, boundary := 0, driven := 0, bypass := false, shiftedOut := 0 }

/-- The sled controller with four unpowered slots; the package of this model stands in slot 0 (assumption 12). -/
def Sled.reset : Sled :=
  { slots := List.replicate 4 { rails := true, porLow := true, pins := 0 }, slot := 0, rack := 0, place := 0, racks := 1
    standalone := false, answers := [], noticed := none, heldNotice := none, stormHold := false
    powered := 0, shutdown := 0, answer := [] }

/-- The power shelf on mains with a full battery and every default of R787. -/
def Shelf.reset : Shelf :=
  { state := .mains, adequate := true, qualifying := false, lockout := false, reserve := false, stormLow := false
    testing := false, events := 0, soc := 1000, qualifyMs := 3000, reserveLevel := 250, cutoffLevel := 50
    handoverUs := 0, stormCount := 0, returns := [], mainsSince := 0, now := 0, page := 0, rectOn := 0xFF
    statusCml := 0, reply := none }

/-- The machine right after reset: after power-on, POR_N still low (R620, R622). -/
def State.reset : State :=
  { pending := [], chip := Chip.reset, tap := Tap.reset, sled := Sled.reset, shelf := Shelf.reset }

end Sys2Proof.Machine
end

