-- ==== Sys2Proof/Machine/Ops.lean ====
section
/-! DEFINITION. The named operations over the package's state: pages, tiles, domains, pastures, units, host memory,
interrupt messages, the torus, and control messages in flight. -/

namespace Sys2Proof.Machine

/-! ### Pages and events -/

/-- A base-die page at reset. -/
def pageDefault (n : Nat) : Page := Page.init (baseCode n)

/-- Base-die page `n`. -/
def Chip.page (c : Chip) (n : Nat) : Page := mapGet pageDefault c.pages n

/-- Base-die page `n` replaced. -/
def Chip.putPage (c : Chip) (n : Nat) (p : Page) : Chip := { c with pages := mapSet pageDefault c.pages n p }

/-- Base-die page `n` changed by `f`. -/
def Chip.updPage (c : Chip) (n : Nat) (f : Page → Page) : Chip := c.putPage n (f (c.page n))

/-- Event bit `i` of base-die page `n` set (R893). -/
def Chip.raise (c : Chip) (n i : Nat) : Chip := c.updPage n (fun p => p.raise i)

/-- A saturating counter of base-die page `n` raised by `k`. -/
def Chip.count (c : Chip) (n off k : Nat) : Chip := c.updPage n (fun p => p.cntSat off k)

/-- A wrapping counter of base-die page `n` raised by `k`. -/
def Chip.countWrap (c : Chip) (n off k : Nat) : Chip := c.updPage n (fun p => p.cntWrap off k)

/-- A line of the console (R819). -/
def Chip.print (c : Chip) (l : ConsoleLine) : Chip := { c with crook := { c.crook with console := c.crook.console ++ [l] } }

/-- CONSOLE_VERBOSE of AUTH_OPTIONS (R818). -/
def Chip.verbose (c : Chip) : Bool := bit ((c.page pgAUTH).rd 0x104) 1

/-- A fault recorded on base-die page `n` (R895); a first fault prints a line when the console is verbose (R819). -/
def Chip.fault (c : Chip) (n st addr cls : Nat) : Chip :=
  let first := (c.page n).fault == 0
  let c := c.updPage n (fun p => p.record st addr cls)
  if first && c.verbose then c.print (.fault n st) else c

/-- A refused access to base-die page `n` (R25, R912). -/
def Chip.refuse (c : Chip) (n addr cls : Nat) : Chip :=
  let first := (c.page n).fault == 0
  let c := (c.updPage n (fun p => p.refuse addr cls)).count pgAUTH 0x140 1
  if first && c.verbose then c.print (.fault n stNO_AUTHORITY) else c

/-- TIME_MS (R617). -/
def Chip.timeMs (c : Chip) : Nat := c.rtc.time.toNat / 1000 % 2 ^ 32

/-! ### Tiles -/

/-- Tile `k`. -/
def Chip.tile (c : Chip) (k : Nat) : Tile := mapGet tileDefault c.tiles k

/-- Tile `k` replaced. -/
def Chip.putTile (c : Chip) (k : Nat) (t : Tile) : Chip := { c with tiles := mapSet tileDefault c.tiles k t }

/-- Tile `k` changed by `f`. -/
def Chip.updTile (c : Chip) (k : Nat) (f : Tile → Tile) : Chip := c.putTile k (f (c.tile k))

/-! ### Domains -/

/-- Domain `n`. -/
def Chip.dom (c : Chip) (n : Nat) : DomRec := mapGet domDefault c.doms n

/-- Domain `n` replaced. -/
def Chip.putDom (c : Chip) (n : Nat) (d : DomRec) : Chip := { c with doms := mapSet domDefault c.doms n d }

/-- Domain `n` changed by `f`. -/
def Chip.updDom (c : Chip) (n : Nat) (f : DomRec → DomRec) : Chip := c.putDom n (f (c.dom n))

/-- Domain `n` is ON. -/
def Chip.domOn (c : Chip) (n : Nat) : Bool := (c.dom n).state == .on

/-- The CORE and ROUTER domains of tile `k`. -/
def Chip.coreDom (c : Chip) (k : Nat) : DomState := mapGet selfDomDefault c.coreDoms k
def Chip.routerDom (c : Chip) (k : Nat) : DomState := mapGet selfDomDefault c.routerDoms k
def Chip.setCoreDom (c : Chip) (k : Nat) (s : DomState) : Chip :=
  { c with coreDoms := mapSet selfDomDefault c.coreDoms k s }
def Chip.setRouterDom (c : Chip) (k : Nat) (s : DomState) : Chip :=
  { c with routerDoms := mapSet selfDomDefault c.routerDoms k s }

/-- A compute die. -/
def Chip.die (c : Chip) (d : Nat) : DieRec := nth DieRec.init c.dies d
def Chip.putDie (c : Chip) (d : Nat) (r : DieRec) : Chip := { c with dies := listSet c.dies d r }
def Chip.updDie (c : Chip) (d : Nat) (f : DieRec → DieRec) : Chip := c.putDie d (f (c.die d))

/-- The bank of tile `k` serves accesses: its domain is ON (R510, R580). -/
def Chip.bankOn (c : Chip) (k : Nat) : Bool := c.domOn k

/-- The router of tile `k` serves or can be woken: its domain is not OFF (R591, R911). -/
def Chip.routerServes (c : Chip) (k : Nat) : Bool := c.routerDom k != .off

/-- The core of tile `k` serves or can be woken (R590). -/
def Chip.coreServes (c : Chip) (k : Nat) : Bool := c.coreDom k != .off

/-- An arrival wakes the core and the router of tile `k` from RETAIN (R590, R591). -/
def Chip.wakeTile (c : Chip) (k : Nat) : Chip :=
  let c := if c.coreDom k = .retain then c.setCoreDom k .on else c
  if c.routerDom k = .retain then c.setRouterDom k .on else c

/-! ### Pastures and units -/

def Chip.past (c : Chip) (p : Nat) : Past := mapGet pastDefault c.pasts p
def Chip.putPast (c : Chip) (p : Nat) (x : Past) : Chip := { c with pasts := mapSet pastDefault c.pasts p x }
def Chip.updPast (c : Chip) (p : Nat) (f : Past → Past) : Chip := c.putPast p (f (c.past p))

/-- The pasture is RESIDENT. -/
def Past.resident (x : Past) : Bool := x.presence == .resident

/-- The identifiers of the pastures RESIDENT in this package, rising. -/
def Chip.residents (c : Chip) : List Nat := (c.pasts.filter (fun e => e.2.resident)).map (fun e => e.1)

/-- The key of a pasture's tile. -/
def PTile.key (t : PTile) : Nat := tileKey t.die.val t.tile.val

/-- The core tiles of a pasture. -/
def Past.cores (x : Past) : List PTile := x.tiles.filter (fun t => t.core)

/-- The pasture has a tile on die `d`. -/
def Past.touchesDie (x : Past) (d : Nat) : Bool := x.tiles.any (fun t => t.die.val == d)

/-- The resident pasture whose core tile is `k`. -/
def Chip.ownerOf (c : Chip) (k : Nat) : Option Nat :=
  match c.pasts.find? (fun e => e.2.resident && e.2.tiles.any (fun t => t.core && t.key == k)) with
  | some e => some e.1
  | none => none

/-- The resident pastures whose touched set holds tile `k`. -/
def Chip.touching (c : Chip) (k : Nat) : List Nat :=
  (c.pasts.filter (fun e => e.2.resident && e.2.tiles.any (fun t => t.key == k))).map (fun e => e.1)

def Chip.unit (c : Chip) (u : Nat) : UnitRec := mapGet unitDefault c.units u
def Chip.putUnit (c : Chip) (u : Nat) (x : UnitRec) : Chip := { c with units := mapSet unitDefault c.units u x }
def Chip.updUnit (c : Chip) (u : Nat) (f : UnitRec → UnitRec) : Chip := c.putUnit u (f (c.unit u))

/-- The unit key of the core, the bank, the router and the vertical link of tile `k`. -/
def coreUnit (k : Nat) : Nat := unitKey (if tileKind (k % 256) = .tensor then 1 else 0) (k / 256) (k % 256)
def bankUnit (k : Nat) : Nat := unitKey 3 (k / 256) (k % 256)
def routerUnit (k : Nat) : Nat := unitKey 2 (k / 256) (k % 256)
def vlinkUnit (k : Nat) : Nat := unitKey 4 (k / 256) (k % 256)

/-- A round of the pasture runs: it has a phase (R62, R554). -/
def Past.inRound (x : Past) : Bool := x.phase != .none

/-- A hold of any kind is in effect (R393). -/
def Past.held (x : Past) : Bool :=
  x.hold.isSome || x.faultHold.isSome || x.thermal || x.storm || x.maintenance || x.restoreFailed

/-- RUNNING: a RUN or LADDER in flight and no hold in effect (R393). -/
def Past.running (x : Past) : Bool := x.run.isSome && !x.held

/-- Between rounds: IDLE, HELD, not resident, or waiting for its next round (R395). -/
def Past.between (x : Past) : Bool := !x.inRound || x.held || !x.resident

/-! ### Torus (R731, R732) -/

/-- The dimensions and the position of the package, and a dimension's coordinate of a package number. -/
def Chip.torusDim (c : Chip) : Nat := (c.page pgLINK).rd 0x180
def Chip.torusPos (c : Chip) : Nat := (c.page pgLINK).rd 0x184
def Chip.dimOf (c : Chip) (i : Nat) : Nat := bits c.torusDim (4 * i + 3) (4 * i)
def Chip.posOf (c : Chip) (i : Nat) : Nat := bits c.torusPos (4 * i + 2) (4 * i)

/-- The packages of the machine. -/
def Chip.machineSize (c : Chip) : Nat := c.dimOf 0 * c.dimOf 1 * c.dimOf 2

/-- The package number p = x + DX·y + DX·DY·z (R731). -/
def Chip.pkg (c : Chip) : Nat := c.posOf 0 + c.dimOf 0 * c.posOf 1 + c.dimOf 0 * c.dimOf 1 * c.posOf 2

/-- Coordinate `i` of package `q`. -/
def Chip.coord (c : Chip) (q i : Nat) : Nat :=
  if i = 0 then q % c.dimOf 0 else if i = 1 then q / c.dimOf 0 % c.dimOf 1 else q / (c.dimOf 0 * c.dimOf 1)

def lsDefault : Nat → BitVec 6 := fun _ => 0

/-- The package number at given coordinates. -/
def Chip.pkgAt (c : Chip) (x y z : Nat) : Nat := x + c.dimOf 0 * y + c.dimOf 0 * c.dimOf 1 * z

/-- Package `q` with coordinate `i` moved by one step, up or down. -/
def Chip.stepPkg (c : Chip) (q i : Nat) (up : Bool) : Nat :=
  let v := c.coord q i
  let n := c.dimOf i
  let w := if up then (v + 1) % n else (v + n - 1) % n
  c.pkgAt (if i = 0 then w else c.coord q 0) (if i = 1 then w else c.coord q 1) (if i = 2 then w else c.coord q 2)

/-- Port 2·i (up) or 2·i + 1 (down) of package `q` is shown up at both ends. -/
def Chip.portUp (c : Chip) (q i : Nat) (up : Bool) : Bool :=
  let r := c.stepPkg q i up
  (mapGet lsDefault c.lsmap q).getLsbD (2 * i + b2n (!up)) && (mapGet lsDefault c.lsmap r).getLsbD (2 * i + b2n up)

/-- Every link of the `n` steps from package `q` along dimension `i` is up. -/
def Chip.pathUp (c : Chip) (i : Nat) (up : Bool) : Nat → Nat → Bool
  | 0, _ => true
  | n + 1, q => c.portUp q i up && c.pathUp i up n (c.stepPkg q i up)

/-- The port by which a request leaves package `p` for package `q`: the first dimension that differs, the shorter way
round, the other when a link of that way is down; none when both are (R732). -/
def Chip.portFrom (c : Chip) (p q : Nat) : Option Nat :=
  match [0, 1, 2].find? (fun i => c.coord p i != c.coord q i) with
  | none => none
  | some i =>
    let n := c.dimOf i
    let s := subMod n (c.coord q i) (c.coord p i)
    let plus := s ≤ n - s
    let go (up : Bool) : Bool := c.pathUp i up (if up then s else n - s) p
    if go plus then some (2 * i + b2n (!plus)) else if go (!plus) then some (2 * i + b2n plus) else none

/-- The ports of the whole path from package `p` to `q`, as (package, port) pairs; none without a path. -/
def Chip.pathOf (c : Chip) : Nat → Nat → Nat → Option (List (Nat × Nat))
  | 0, _, _ => none
  | n + 1, p, q =>
    if p = q then some []
    else match c.portFrom p q with
      | none => none
      | some l =>
        match c.pathOf n (c.stepPkg p (l / 2) (l % 2 == 0)) q with
        | none => none
        | some r => some ((p, l) :: r)

/-- A path to package `q` exists. -/
def Chip.hasPath (c : Chip) (q : Nat) : Bool := q < c.machineSize && (c.pathOf 32 c.pkg q).isSome

/-! ### Host memory and interrupts (R656–R661, R676) -/

/-- HOME_PKG. -/
def Chip.homePkg (c : Chip) : Nat := (c.page pgGATE).rd 0x10C % 256

/-- Why host memory cannot be reached or read: none when it can (R656, R676, R679, R732). -/
def Chip.hostStatus (c : Chip) : Option Nat :=
  if c.gate.dmaBad then some stUNCORRECTED
  else if c.homePkg = c.pkg then (if c.gate.dlUp then none else some stGATE_LOST)
  else if c.hasPath c.homePkg then none else some stPATH_LOST

/-- Bytes written to host memory; discarded and counted while it cannot be reached (R676). -/
def Chip.hostWrite (c : Chip) (a : Nat) (l : List Byte) : Chip :=
  match c.hostStatus with
  | none => { c with host := memWriteN c.host a l }
  | some _ => c.count pgGATE 0x148 1

/-- Offsets of the MSI-X capability and of the other registers of the configuration space (assumption 14). -/
def cfgMSIX := 0xB0

/-- Configuration register at `off`, as stored. -/
def Chip.cfg (c : Chip) (off : Nat) : Nat := (mapGet (fun _ => (0 : W32)) c.gate.config (off / 4)).toNat
def Chip.setCfg (c : Chip) (off v : Nat) : Chip :=
  { c with gate := { c.gate with config := mapSet (fun _ => (0 : W32)) c.gate.config (off / 4) (BitVec.ofNat 32 v) } }

/-- An MSI-X message: sent when its entry and the function are not masked, else its pending bit is set (R660). -/
def Chip.msix (c : Chip) (v : Nat) : Chip :=
  match c.hostStatus with
  | some _ => c.count pgGATE 0x148 1
  | none =>
    let e := mapGet msixDefault c.gate.msix v
    if !bit (c.cfg cfgMSIX) 31 then c
    else if e.masked || bit (c.cfg cfgMSIX) 30 then
      { c with gate := { c.gate with msix := mapSet msixDefault c.gate.msix v { e with pending := true } } }
    else { c with gate := { c.gate with sent := c.gate.sent ++ [(e.addr, e.data)] } }

/-- A DMA error or a poisoned write noted, `aer` being the bit of the AER capability that records it (R679). -/
def Chip.dmaError (c : Chip) (aer : Nat) : Chip :=
  let c := (c.count pgGATE 0x154 1).raise pgGATE 2
  c.setCfg 0x104 (c.cfg 0x104 ||| 2 ^ aer)

/-! ### Messages in flight, free values, answers -/

/-- A control message sent; it is delivered before the command ends (assumption 15). -/
def Chip.send (c : Chip) (m : List Nat) : Chip := { c with inFlight := c.inFlight ++ [(0, m)] }
def Chip.sendAll (c : Chip) (l : List (List Nat)) : Chip := { c with inFlight := c.inFlight ++ l.map (fun m => (0, m)) }

/-- Control messages sent by a tile of pasture `p`. -/
def Chip.sendFrom (c : Chip) (p : Nat) (l : List (List Nat)) : Chip :=
  { c with inFlight := c.inFlight ++ l.map (fun m => (p + 1, m)) }

/-- The next free value's index drawn. -/
def Chip.drawFree (c : Chip) : Chip × Nat := ({ c with free := c.free + 1 }, c.free)

def Chip.say (c : Chip) (a : Answer) : Chip := { c with answer := a }

/-! ### Scoreboard and contexts -/

def Chip.ctx (c : Chip) (q : Nat) : Ctx := mapGet ctxDefault c.ctxs q
def Chip.putCtx (c : Chip) (q : Nat) (x : Ctx) : Chip := { c with ctxs := mapSet ctxDefault c.ctxs q x }
def Chip.updCtx (c : Chip) (q : Nat) (f : Ctx → Ctx) : Chip := c.putCtx q (f (c.ctx q))
def Chip.entry (c : Chip) (e : Nat) : SbEntry := mapGet sbDefault c.sb e
def Chip.putEntry (c : Chip) (e : Nat) (x : SbEntry) : Chip := { c with sb := mapSet sbDefault c.sb e x }
def Chip.updEntry (c : Chip) (e : Nat) (f : SbEntry → SbEntry) : Chip := c.putEntry e (f (c.entry e))

/-- Bytes off … off+n−1 of a command record as a number (R348). -/
def SbEntry.bytes (x : SbEntry) (off n : Nat) : Nat := leAt (wordBytes x.words) off n
def SbEntry.opcode (x : SbEntry) : Nat := x.bytes 0 1
def SbEntry.seq (x : SbEntry) : Nat := x.bytes 2 2
def SbEntry.pasture (x : SbEntry) : Nat := x.bytes 4 2 % 1024
/-- FLAGS bit `i`, numbered as R349 numbers it. -/
def SbEntry.flag (x : SbEntry) (i : Nat) : Bool := bit (x.bytes 4 4) i

/-- The context of an entry; 4,096 for the share of another package's command. -/
def SbEntry.ctx (x : SbEntry) : Nat := match x.source with | .ctx q => q.val | .share => 4096

/-- The class a command runs with: OPERATOR from context 4,095, INTERNAL for a share, HOST otherwise (R100, R803). -/
def SbEntry.origin (x : SbEntry) : Nat :=
  match x.source with | .ctx q => if q.val = 4095 then 3 else 2 | .share => 0

/-- Entries not FREE, as (number, entry). -/
def Chip.live (c : Chip) : List (Nat × SbEntry) := c.sb.filter (fun e => e.2.state != .free)

/-- Commands of context `q` on the scoreboard. -/
def Chip.onBoard (c : Chip) (q : Nat) : Nat := (c.live.filter (fun e => e.2.ctx == q)).length

/-- The unit that an opcode names (R343, R388): 0 Spike, 1 Dense, 2 Anneal, 3 Transfer, 4 Shepherd. -/
def unitOf (op : Nat) : Nat :=
  if op = 0x10 || op = 0x11 || op = 0x12 then 0 else if op = 0x20 then 1 else if op = 0x30 then 2
  else if 0x40 ≤ op && op ≤ 0x47 then 3 else 4

/-- A progress word (R351): percent and position, the position saturating. -/
def progressWord (percent pos : Nat) : W32 := BitVec.ofNat 32 (percent % 256 * 2 ^ 24 + min pos 0xFFFFFF)

/-! ### The mesh over the package -/

/-- The mesh of this package with its tiles (R467). -/
def Chip.mesh (c : Chip) : Mesh :=
  { env := { pkg := c.pkg
             roundOf := fun p => (c.past p).round.toNat
             coreServes := fun k => c.coreServes k && c.bankOn k
             owns := fun p k => (c.past p).resident && (c.past p).tiles.any (fun t => t.core && t.key == k) }
    tiles := c.tiles }

/-- A pasture holds with status `st` at its next muster (R446); the first cause stands. -/
def Chip.holdNext (c : Chip) (p st : Nat) : Chip :=
  c.updPast p (fun x => if x.pendingFault.isSome || x.faultHold.isSome then x
    else { x with pendingFault := some (BitVec.ofNat 8 st) })

end Sys2Proof.Machine
end

