-- ==== Sys2Proof/Machine/Span.lean ====
section
/-! DEFINITION. What a package sends over its rack links for other packages: messages and closes in their classes, and the muster
and vote items of pastures that span packages (R728, R729, R732, R733, R736). -/

namespace Sys2Proof.Machine

/-- Link `k`. -/
def Chip.link (c : Chip) (k : Nat) : Link := nth Link.init c.links k
def Chip.putLink (c : Chip) (k : Nat) (l : Link) : Chip := { c with links := listSet c.links k l }
def Chip.updLink (c : Chip) (k : Nat) (f : Link → Link) : Chip := c.putLink k (f (c.link k))

/-- Class `i` of a link end, and its replacement. -/
def Link.cls (l : Link) (i : Nat) : LinkClass := nth LinkClass.init l.classes i
def Link.updCls (l : Link) (i : Nat) (f : LinkClass → LinkClass) : Link := { l with classes := listSet l.classes i (f (l.cls i)) }

/-- Port `k` of this package crosses between coordinate D − 1 and coordinate 0 of its dimension (R733). -/
def Chip.dateline (c : Chip) (k : Nat) : Bool :=
  let i := k / 2
  let v := c.coord c.pkg i
  if k % 2 = 0 then v + 1 = c.dimOf i else v = 0

/-- The dateline class, 0 or 1, in which a message leaves by port `k`: the class it arrived with goes on in the same
dimension, and a crossing sets class 1 (R733). -/
def Chip.hopClass (c : Chip) (k : Nat) (arrived : Option (Nat × Nat)) : Nat :=
  let kept := match arrived with | some (j, cl) => if j / 2 = k / 2 then cl else 0 | none => 0
  if c.dateline k then 1 else kept

/-- Flits queued for class `i` of link `k`. -/
def Chip.enqueue (c : Chip) (k i : Nat) (l : List Flit) : Chip :=
  c.updLink k (fun x => x.updCls i (fun q => { q with txq := q.txq ++ l }))

/-- A message passed by the base router toward another package; without a path it is dropped (R732). -/
def Chip.linkOut (c : Chip) (arrived : Option (Nat × Nat)) (ws : List Nat) : Chip :=
  let h := Hdr.of (ws.headD 0)
  match c.portFrom c.pkg h.pkg with
  | none => c
  | some k =>
    let plane := h.kind = kAXON || h.kind = kTALLY
    c.enqueue k ((if plane then 0 else 2) + c.hopClass k arrived) (ws.map mkFlit)

/-- A link item sent to the other end of link `k`. -/
def Chip.sendItem (c : Chip) (k item p chan round : Nat) (skip flag : Bool) : Chip :=
  c.enqueue k (c.hopClass k none) [mkFlit (itemWord item p chan round skip flag)]

/-! ### The tree of a pasture that spans packages (R74, R736) -/

/-- The LINK frame that the end of link `k` would send (R739). -/
def Chip.helloOf (c : Chip) (k subtype : Nat) : LinkHello :=
  let l := c.link k
  { subtype := subtype, port := k, locked := (c.page pgLINK).lock, peerSeen := l.peerSeen, pkg := c.pkg
    mode := bits ((c.page (pgLINK + k)).rd 0x100) 1 1, dims := c.torusDim, epoch := l.epoch.toNat, rxExpect := l.rxSeq.toNat }

/-- A LINK_STATE notice applied to the link-state map (R734). -/
def Chip.notice (c : Chip) (q : Nat) (ports : BitVec 6) : Chip :=
  ({ c with lsmap := mapSet lsDefault c.lsmap q ports } : Chip).countWrap pgLINK 0x190 1

/-- The notice of this package after its port `k` has come up or gone. -/
def Chip.ownNotice (c : Chip) (k : Nat) (up : Bool) : Chip :=
  let old := (mapGet lsDefault c.lsmap c.pkg).toNat
  c.notice c.pkg (BitVec.ofNat 6 (setBits old k k (b2n up)))

/-- The pasture has parts in other packages. -/
def Past.spans (x : Past) : Bool := 1 < x.pkgMap.eraseDups.length

/-- The root package of a pasture: the one that holds image package 0. -/
def Past.root (x : Past) : Nat := (nth (0 : Byte) x.pkgMap 0).toNat

/-- The link toward the parent; none at the root. -/
def Chip.parentLink (c : Chip) (x : Past) : Option Nat :=
  if x.root = c.pkg then none
  else match c.pathOf 32 x.root c.pkg with
    | none => none
    | some l => l.getLast?.map (fun h => if h.2 % 2 = 0 then h.2 + 1 else h.2 - 1)

/-- The links toward the children: the ports of this package on the paths from the root to the pasture's packages. -/
def Chip.childLinks (c : Chip) (x : Past) : List Nat :=
  ((x.pkgMap.map (fun b => b.toNat)).flatMap (fun q =>
    match c.pathOf 32 x.root q with
    | none => []
    | some l => (l.filter (fun h => h.1 == c.pkg)).map (fun h => h.2))).eraseDups

/-- Every child has reported in `l`. -/
def Chip.childrenIn (c : Chip) (x : Past) (l : List (Nat × Bool)) : Bool :=
  !x.spans || (c.childLinks x).all (fun k => l.any (fun e => e.1 == k))

/-- An item sent to every child. -/
def Chip.toChildren (c : Chip) (p item : Nat) (round : Nat) (skip flag : Bool) : Chip :=
  (c.childLinks (c.past p)).foldl (fun c k => c.sendItem k item p 0 round skip flag) c

/-- This package is the pasture's root, or holds all of it. -/
def Chip.isRoot (c : Chip) (x : Past) : Bool := !x.spans || x.root = c.pkg

end Sys2Proof.Machine
end

