-- ==== Sys2Proof/Machine/Sync.lean ====
section
/-! DEFINITION. Sync objects, waits, signals, and how a command on the scoreboard finishes and its completion record is
written (R345–R347, R351, R355, R358–R365, R371–R379). -/

namespace Sys2Proof.Machine

/-! ### Sync objects (R363) -/

def Chip.obj (c : Chip) (o : Nat) : SyncObj := mapGet objDefault c.objs o
def Chip.putObj (c : Chip) (o : Nat) (x : SyncObj) : Chip := { c with objs := mapSet objDefault c.objs o x }

/-- The wait condition of an object for target `v` (R363); an object of type NONE never meets a wait. -/
def SyncObj.holds (x : SyncObj) (v : Nat) : Bool :=
  if x.type = 1 || x.type = 2 then subMod (2 ^ 32) x.value.toNat v < 2 ^ 31
  else if x.type = 3 then x.value = 1 else false

/-- ADD (op 0) or SET (op 1) of operand `k` on an object; none when the operation is discarded (R363). A BARRIER whose
EXPECTED is 0 takes no ADD (assumption 16). -/
def SyncObj.apply (x : SyncObj) (op : Nat) (k : Int) : Option SyncObj :=
  if x.type = 1 then
    some { x with value := BitVec.ofNat 32 (if op = 0 then x.value.toNat + unsext 32 k else unsext 32 k) }
  else if x.type = 2 then
    if k ≤ 0 then none
    else if op = 0 then
      if x.expected = 0 then none
      else
        let a := x.arrived.toNat + k.toNat
        some { x with value := BitVec.ofNat 32 (x.value.toNat + a / x.expected.toNat)
                      arrived := BitVec.ofNat 16 (a % x.expected.toNat) }
    else some { x with expected := BitVec.ofNat 16 k.toNat, arrived := 0 }
  else if x.type = 3 then
    some { x with value := if op = 0 then 1 else if k = 0 then 0 else 1 }
  else none

/-! ### Waits (R359, R369) -/

/-- Wait `i` of a command: object, whether it applies, and its target. -/
def SbEntry.wait (x : SbEntry) (i : Nat) : Nat × Bool × Nat :=
  let w := x.bytes (8 + 8 * i) 4
  (bits w 13 0, bit w 15, x.bytes (12 + 8 * i) 4)

/-- Every earlier command of the entry's context has completed: none is left on the scoreboard (R349, R359). -/
def Chip.fenceMet (c : Chip) (x : SbEntry) : Bool :=
  !x.flag 17 || !(c.live.any (fun e => e.2.ctx == x.ctx && e.2.fetchNo < x.fetchNo))

/-- The entry with the waits that now hold marked as met (R359). -/
def Chip.meetWaits (c : Chip) (x : SbEntry) : SbEntry :=
  let w0 := x.wait 0
  let w1 := x.wait 1
  { x with w0Met := x.w0Met || !w0.2.1 || (c.obj w0.1).holds w0.2.2
           w1Met := x.w1Met || !w1.2.1 || (c.obj w1.1).holds w1.2.2 }

/-- One WAITING entry looked at again: READY once its waits and its FENCE are met. -/
def Chip.recheckOne (c : Chip) (e : Nat) : Chip :=
  let x := c.entry e
  if x.state != .waiting then c
  else
    let x := c.meetWaits x
    if x.w0Met && x.w1Met && c.fenceMet x then
      { c.putEntry e { x with state := .ready, readyNo := c.readied, readyAt := c.now } with readied := c.readied + 1 }
    else c.putEntry e x

/-- Every WAITING entry looked at again, in fetch order of their numbers. -/
def Chip.recheck (c : Chip) : Chip := (c.live.map (fun e => e.1)).foldl Chip.recheckOne c

/-- An operation on object `o`, counted, or discarded with SYNC_BAD; then every waiter whose condition holds is met before
the next operation (R363, R364, R384). A POISONED object discards it without a count (R379, assumption 17). -/
def Chip.objOp (c : Chip) (o op : Nat) (k : Int) : Chip :=
  let x := c.obj o
  if x.poisoned then c
  else match x.apply op k with
    | none => (c.count pgMUSTER 0x144 1).raise pgMUSTER 1
    | some y => ((c.putObj o y).countWrap pgMUSTER 0x140 1).recheck

/-- An operation refused for want of authority: counted and SYNC_BAD (R365, R384). -/
def Chip.objRefuse (c : Chip) : Chip := (c.count pgMUSTER 0x144 1).raise pgMUSTER 1

/-! ### Completion records (R351, R355, R376) -/

/-- The 16 bytes of a completion record, with PHASE for producer index `pi` of a ring of 2^`log` records. -/
def recordBytes (seq status unit pi log progress result : Nat) : List Byte :=
  natLe 2 seq ++ natLe 1 status ++ natLe 1 (unit % 8 + 128 * b2n (pi / 2 ^ log % 2 == 0)) ++ natLe 4 progress
    ++ natLe 8 result

/-- The context has room in its completion ring. -/
def Ctx.cqRoom (x : Ctx) : Bool := subMod (2 ^ 32) x.cqPi.toNat x.cqCi.toNat < 2 ^ x.logCq.toNat

/-- Bytes written to the Crook bank from byte offset `a`, a multiple of 8 with a multiple of 8 bytes. -/
def Chip.crookWrite (c : Chip) (a : Nat) (l : List Byte) : Chip :=
  let k : BankCtx := { b := c.crookBank, pg := c.page pgCROOK, off := 0, words := 32768, plain := true }
  let k := k.writeWords (a / 8) ((bytesWords (l.length / 8) l).map (fun w => w.toNat))
  { c.putPage pgCROOK k.pg with crookBank := k.b }

/-- `n` words of the Crook bank from byte offset `a`; an uncorrectable word reads as none. -/
def Chip.crookRead (c : Chip) (a n : Nat) : Chip × List (Option Nat) :=
  let k : BankCtx := { b := c.crookBank, pg := c.page pgCROOK, off := 0, words := 32768, plain := true }
  let r := k.readWords (a / 8) n
  ({ c.putPage pgCROOK r.1.pg with crookBank := r.1.b }, r.2)

/-- The context counts a completion toward its interrupt and sends its vector when the count is reached (R355). -/
def Chip.countIrq (c : Chip) (q : Nat) : Chip :=
  let x := c.ctx q
  let n := x.counted + 1
  if max 1 x.modCount.toNat ≤ n then
    let c := c.putCtx q { x with counted := 0 }
    if x.irqEn then c.msix x.vector.toNat else c
  else c.putCtx q { x with counted := n }

/-- A completion record written to the ring of context `q`: the ring of context 4,095 lies in the Crook bank, and the
Crook consumes its records as they are written (R803). -/
def Chip.writeRecord (c : Chip) (q seq status unit progress result : Nat) (irq : Bool) : Chip :=
  let x := c.ctx q
  let rec_ := recordBytes seq status unit x.cqPi.toNat x.logCq.toNat progress result
  let at_ := x.cqRing.toNat + 16 * (x.cqPi.toNat % 2 ^ x.logCq.toNat)
  let c := if q = 4095 then c.crookWrite at_ rec_ else c.hostWrite at_ rec_
  let c := c.updCtx q (fun x => { x with cqPi := x.cqPi + 1, cqWaiting := false
                                         cqCi := if q = 4095 then x.cqPi + 1 else x.cqCi })
  let c := c.countWrap pgSHEP 0x184 1
  if irq || statusClass status != 0 then c.countIrq q else c

/-- A completion waits for ring room: CQ_FULL, counted once for each wait (R376). -/
def Chip.cqFull (c : Chip) (q : Nat) : Chip :=
  if (c.ctx q).cqWaiting then c
  else ((c.updCtx q (fun x => { x with cqWaiting := true })).raise pgSHEP 3).count pgSHEP 0x194 1

/-! ### A response frame of the Crook (R799, R800) -/

/-- The bytes of a response frame. -/
def responseFrame (type tag status : Nat) (payload : List Byte) : List Byte :=
  natLe 1 type ++ natLe 1 1 ++ natLe 2 tag ++ natLe 2 payload.length ++ natLe 1 status ++ natLe 1 0 ++ payload

/-- A response queued on its transport; a mailbox response raises MBOX_RSP (R798, R830). -/
def Chip.respond (c : Chip) (via : Transport) (f : List Byte) : Chip :=
  match via with
  | .smbus => { c with crook := { c.crook with smbus := c.crook.smbus ++ [f] } }
  | .mailbox => { c with crook := { c.crook with mbox := c.crook.mbox ++ [f] } }.raise pgCROOK 0

/-- The answer of a SUBMIT: the 16-byte completion record (R801). -/
def Chip.answerSubmit (c : Chip) (x : SbEntry) : Chip :=
  match x.submit with
  | none => c
  | some (via, tag) =>
    c.respond via (responseFrame 0x04 tag.toNat stOK
      (recordBytes x.seq x.status.toNat (unitOf x.opcode) (c.ctx 4095).cqPi.toNat (c.ctx 4095).logCq.toNat
        x.progress.toNat x.result.toNat))

/-! ### Finishing -/

/-- A context that is STOPPING and has no command left becomes STOPPED (R378). -/
def Chip.maybeStopped (c : Chip) (q : Nat) : Chip :=
  if (c.ctx q).state = .stopping && c.onBoard q = 0 then c.updCtx q (fun x => { x with state := .stopped }) else c

/-- The entry becomes FREE; commands fenced behind it may become READY, and its context may have stopped (R358, R359). -/
def Chip.freeEntry (c : Chip) (e : Nat) : Chip :=
  let q := (c.entry e).ctx
  (((c.putEntry e SbEntry.init).recheck).maybeStopped q)

/-- Transfer channels held by entry `e` become free (R373). -/
def Chip.freeChannel (c : Chip) (e : Nat) : Chip :=
  { c with channels := c.channels.map (fun h =>
      match h.entry with | some x => if x.val = e then { entry := none } else h | none => h) }

/-- The signal of an entry that finishes with `status`: applied locally, or sent to another package; the status changes
when it is refused or has no path (R350, R361, R365, R732). -/
def Chip.signal (c : Chip) (x : SbEntry) (status : Nat) : Chip × Nat :=
  let w := x.bytes 24 4
  if !(bit w 31) || !(statusClass status = 0 || x.flag 21) then (c, status)
  else
    let o := bits w 13 0
    let pkg := bits w 23 16
    let k := sext 16 (x.bytes 28 2)
    if pkg = c.pkg then
      if (c.obj o).owned && (c.obj o).owner.val != x.pasture then (c.objRefuse, worse status stNO_AUTHORITY)
      else (c.objOp o (bits w 15 14) k, status)
    else if c.hasPath pkg then
      (c.send [({ kind := kSYNC, pkg := pkg, qclass := 3, origin := x.origin, tag := baseTag pgMUSTER
                  payload := x.bytes 28 2 : Hdr }).word, o + 2 ^ 16 * bits w 15 14], status)
    else (c, worse status stPATH_LOST)

/-- Counters that a finished command's status raises on other pages (R386, R611, R612, R681). -/
def Chip.countStatus (c : Chip) (op status : Nat) : Chip :=
  let c := if unitOf op = 0 then c.count pgSPIKE 0x104 1 else c
  let c := if status = stGATE_LOST then c.count pgGATE 0x144 1 else c
  if status = stASLEEP then (c.count pgPOWER 0x148 1).raise pgPOWER 2 else c

/-- The command of entry `e` finishes: its signal is applied or declined, then its completion waits to be written. A
QUIET success and another package's share free their entry without a completion (R361, R377, R904). -/
def Chip.finish (c : Chip) (e status result : Nat) (progress : W32) : Chip :=
  let x := c.entry e
  if x.state = .free || x.state = .completing then c else
  let c := c.freeChannel e
  let y := { x with state := SbState.completing, readyNo := c.readied, progress := progress
                    status := BitVec.ofNat 8 status, result := BitVec.ofNat 64 result }
  let c := { c.putEntry e y with readied := c.readied + 1 }
  let r := c.signal x status
  let y := { y with status := BitVec.ofNat 8 r.2 }
  let c := (r.1.putEntry e y).countStatus x.opcode r.2
  match x.source with
  | .share => c.freeEntry e
  | .ctx _ => if x.flag 18 && statusClass r.2 = 0 then (c.answerSubmit y).freeEntry e else c

/-- A command that succeeds with result word `r` and full progress (R396). -/
def Chip.finishOk (c : Chip) (e r : Nat) : Chip := c.finish e stOK r (progressWord 100 0)

/-- A command that ends with status `st` and no result. -/
def Chip.finishBad (c : Chip) (e st : Nat) : Chip := c.finish e st 0 (progressWord 0 0)

/-- The completions of a context whose host memory was lost are discarded until it is enabled again (R676, R677). -/
def Chip.discards (c : Chip) (q : Nat) : Bool :=
  q != 4095 && (c.gate.lost.any (fun x => x.val == q) || c.hostStatus.isSome)

/-- No COMPLETING entry of the same context finished before entry `e` (R362). -/
def Chip.firstDone (c : Chip) (e : Nat) : Bool :=
  let x := c.entry e
  !(c.live.any (fun y => y.1 != e && y.2.state == .completing && y.2.ctx == x.ctx && y.2.readyNo < x.readyNo))

/-- COMPLETION_RECORD_WRITE: the oldest finished command of its context writes its record once there is room (R361,
R362, R376); while the gate's link is lost the completion is discarded and counted (R676). In D3hot nothing is
written (R668). -/
def Chip.writeCompletion (c : Chip) (e : Nat) : Chip :=
  let x := c.entry e
  match x.source with
  | .share => c
  | .ctx q =>
    if x.state != .completing || !c.firstDone e then c
    else if c.discards q.val then (c.count pgGATE 0x148 1).freeEntry e
    else if c.gate.d3hot && q.val != 4095 then c
    else if !(c.ctx q.val).cqRoom then c.cqFull q.val
    else
      let c := c.writeRecord q.val x.seq x.status.toNat (unitOf x.opcode) x.progress.toNat x.result.toNat (x.flag 16)
      (c.answerSubmit x).freeEntry e

end Sys2Proof.Machine
end

