-- ==== Sys2Proof/Machine/Fetch.lean ====
section
/-! DEFINITION. Doorbells, fair-share fetching, sequence checking, the checks of a fetched record, interrupt moderation
and the control of queue contexts (R344–R357, R366–R369, R378–R382, R388–R391, R803). -/

namespace Sys2Proof.Machine

/-! ### Virtual time (R366, R367) -/

/-- WAITING entries on the scoreboard. -/
def Chip.waitingCount (c : Chip) : Nat := (c.live.filter (fun e => e.2.state == .waiting)).length

/-- The lowest FREE entry. -/
def Chip.freeSlot (c : Chip) : Option Nat := (upto 512).find? (fun e => (c.entry e).state == .free)

/-- The byte address of the record that index `i` names (R345); the rings of context 4,095 lie in the Crook bank. -/
def Ctx.sqAddr (x : Ctx) (i : W32) : Nat := x.ring.toNat + 64 * (i.toNat % 2 ^ x.logSq.toNat)

/-- The head record of context `q`, as the Shepherd reads it. -/
def Chip.headWords (c : Chip) (q : Nat) : Chip × List W64 :=
  let x := c.ctx q
  if q = 4095 then
    let r := c.crookRead (x.sqAddr x.ci) 8
    (r.1, r.2.map (fun w => BitVec.ofNat 64 (w.getD 0)))
  else (c, bytesWords 8 (memReadN c.host (x.sqAddr x.ci) 64))

/-- The head record's entry before it is placed. -/
def Chip.headEntry (c : Chip) (q : Nat) : SbEntry :=
  { SbEntry.init with source := .ctx (Fin.ofNat 4096 q), words := (c.headWords q).2, fetchNo := c.fetched }

/-- The head record's waits and FENCE are met now. -/
def Chip.headMet (c : Chip) (q : Nat) : Bool :=
  let x := c.meetWaits (c.headEntry q)
  x.w0Met && x.w1Met && c.fenceMet x

/-- Context `q` is eligible (R366, R369). -/
def Chip.eligible (c : Chip) (q : Nat) : Bool :=
  let x := c.ctx q
  x.state = .active && x.pi != x.ci && c.onBoard q < x.inflight.toNat && c.freeSlot.isSome
    && (c.waitingCount < 448 || c.headMet q)

/-- `a` is behind `b`, modulo 2^48 (R367). -/
def vBefore (a b : BitVec 48) : Bool := (a - b).getLsbD 47

/-- The smallest V of a list. -/
def vMin : List (BitVec 48) → Option (BitVec 48)
  | [] => none
  | a :: l => match vMin l with
    | none => some a
    | some b => some (if vBefore b a then b else a)

/-- Whether context `q` is eligible noted; one newly eligible takes the larger of its V and the smallest V among the
other eligible contexts of its priority (R367). -/
def Chip.noteOne (c : Chip) (q : Nat) : Chip :=
  let x := c.ctx q
  let now := c.eligible q
  if now = x.wasEligible then c
  else if now then
    let others := (c.ctxs.filter (fun e => e.1 != q && e.2.wasEligible && e.2.priority == x.priority)).map (fun e => e.2.vtime)
    match vMin others with
    | none => c.putCtx q { x with wasEligible := true }
    | some m => c.putCtx q { x with wasEligible := true, vtime := if vBefore x.vtime m then m else x.vtime }
  else c.putCtx q { x with wasEligible := false }

/-- Eligibility noted for every context that is not at rest. -/
def Chip.noteEligible (c : Chip) : Chip := (c.ctxs.map (fun e => e.1)).foldl Chip.noteOne c

/-- The context fetched from next: the highest priority among the eligible, then the smallest V, then the lowest number
(R366). -/
def chooseCtx : List (Nat × Ctx) → Option (Nat × Ctx)
  | [] => none
  | e :: l => match chooseCtx l with
    | none => some e
    | some f =>
      if e.2.priority.toNat < f.2.priority.toNat then some f
      else if e.2.priority = f.2.priority && vBefore f.2.vtime e.2.vtime then some f else some e

/-! ### Checks at fetch (R22, R379, R388–R391, R797) -/

/-- The opcodes of R388. -/
def opcodeKnown (op : Nat) : Bool :=
  op ≤ 0x0A || (0x10 ≤ op && op ≤ 0x12) || op == 0x20 || op == 0x30 || (0x40 ≤ op && op ≤ 0x47)

/-- The operand bits, as the four words of bytes 32–63, that an opcode's operand table lists (R390, R397–R440). -/
def operandMask (op : Nat) : List Nat :=
  if op = 0x01 then [0xFFFFFFFF80033FFF, 0, 0, 0]
  else if op = 0x02 then [0x1FFFFFFFF, 0, 0, 0]
  else if op = 0x04 then [0x8FFFFFFF, 0, 0, 0]
  else if op = 0x05 then [0xF, 0, 0, 0]
  else if op = 0x07 then [0x1F0073FFFF, 0, 0, 0]
  else if op = 0x08 then [0x303FF, 0, 0, 0]
  else if op = 0x09 then [0xFFFF00000003, 0, 0, 0]
  else if op = 0x0A then [3, 0, 0, 0]
  else if op = 0x10 then [0xFFFFFFFFFFFFFFFF, 0, 0, 0]
  else if op = 0x11 then [0xFFFFFFFFFFFFFFFF, 0xFFFF, 0, 0]
  else if op = 0x12 then [0xFFFFFFFFFFFFFFFF, 0xFFFFFFFFFFFFFFFF, 0xFFFFFFFF, 0]
  else if op = 0x20 then [0x8003FFFF8003FFFF, 0x8003FFFF8003FFFF, 0x8003FFFF0000003F, 0x000FFFFF0001FFFF]
  else if op = 0x30 then [0x1FFFFFFFF, 0xFFFFFFFFFFFF, 0xFFFFFFFF, 0]
  else if op = 0x40 then [0xFFFFFFFFFFFFFFFF, 0xFFFFFFFFFFFFFFFF, 0xF01FFFFFF, 0]
  else if op = 0x41 then [0xFFFFFFFFFFFFFFFF, 0x1FFFFFFFF, 0, 0]
  else if op = 0x42 || op = 0x43 || op = 0x45 then [0xFFFFFFFFFFFFFFFF, 0xFFFFFFFF, 0, 0]
  else if op = 0x44 then [0xFFFFFFFFFFFFFFFF, 0xFFFF0001FFFFFFFF, 0, 0]
  else if op = 0x46 then [1, 0, 0, 0]
  else [0, 0, 0, 0]

/-- A bit outside the mask is set in one of the words. -/
def outside : List W64 → List Nat → Bool
  | w :: l, m :: k => w.toNat &&& (2 ^ 64 - 1 - m) != 0 || outside l k
  | _, _ => false

/-- The flag bits an opcode accepts, of bytes 4–7 (R349, R389). -/
def flagMask (op : Nat) : Nat :=
  0x002703FF + (if op = 0x20 || op = 0x40 then 0x80000 else 0) + (if op = 0x07 || op = 0x0A then 0x100000 else 0)

/-- The opcodes that name no pasture (R391). -/
def namesNone (op : Nat) : Bool := op == 0x01 || (0x07 ≤ op && op ≤ 0x0A)

/-- The masks of the record's four common words for an opcode (R348). -/
def commonMask (op : Nat) : List Nat :=
  [0xFFFF00FF + flagMask op * 2 ^ 32, 0xFFFFFFFF0000BFFF, 0xFFFFFFFF0000BFFF, 0x0000FFFF80FFFFFF]

/-- A wait names an object it may not (R365). -/
def Chip.waitRefused (c : Chip) (x : SbEntry) (i : Nat) : Bool :=
  let w := x.wait i
  w.2.1 && (c.obj w.1).owned && (c.obj w.1).owner.val != x.pasture

/-- A wait on an object of type NONE. -/
def Chip.waitNone (c : Chip) (x : SbEntry) (i : Nat) : Bool := (x.wait i).2.1 && (c.obj (x.wait i).1).type == 0

/-- A wait on a POISONED object. -/
def Chip.waitPoisoned (c : Chip) (x : SbEntry) (i : Nat) : Bool := (x.wait i).2.1 && (c.obj (x.wait i).1).poisoned

/-- The signal names a local object of another owner (R365, R379). -/
def Chip.signalRefused (c : Chip) (x : SbEntry) : Bool :=
  let w := x.bytes 24 4
  bit w 31 && bits w 23 16 == c.pkg && (c.obj (bits w 13 0)).owned && (c.obj (bits w 13 0)).owner.val != x.pasture

/-- The failures that a fetched record shows at fetch, by their codes. -/
def Chip.fetchFailures (c : Chip) (x : SbEntry) : List Nat :=
  let op := x.opcode
  if !opcodeKnown op then [stBAD_OPCODE]
  else
    (if outside x.words (commonMask op ++ operandMask op) then [stBAD_OPERAND] else [])
    ++ (if namesNone op && x.pasture != 0 && !(op == 0x01 && bit (x.bytes 32 4) 31) then [stBAD_OPERAND] else [])
    ++ (if 2 ≤ bits (x.bytes 24 4) 15 14 then [stBAD_OPERAND] else [])
    ++ (if c.waitNone x 0 || c.waitNone x 1 then [stBAD_OPERAND] else [])
    ++ (if c.waitRefused x 0 || c.waitRefused x 1 || c.signalRefused x then [stNO_AUTHORITY] else [])
    ++ (if op == 0x0A && x.origin == 2 then [stNO_AUTHORITY] else [])
    ++ (if c.waitPoisoned x 0 || c.waitPoisoned x 1 then [stUNCORRECTED] else [])

/-- The status at once of a fetched record: none when it may run (R29). -/
def Chip.fetchStatus (c : Chip) (x : SbEntry) : Option Nat :=
  match c.fetchFailures x with
  | [] => none
  | a :: l => some (l.foldl worse a)

/-! ### Fetching -/

/-- The gate can read host memory now (R668, R676). -/
def Chip.dmaOk (c : Chip) : Bool := c.hostStatus.isNone && !(c.homePkg == c.pkg && c.gate.d3hot)

/-- CI of context `q` advances: counted, shown at the shadow address, and V raised (R346, R347, R366). -/
def Chip.consume (c : Chip) (q : Nat) : Chip :=
  let c := c.updCtx q (fun x => { x with ci := x.ci + 1, vtime := x.vtime + BitVec.ofNat 48 (65536 / x.weight.toNat) })
  let c := c.countWrap pgSHEP 0x180 1
  if q = 4095 then c else c.hostWrite (c.ctx q).shadow.toNat (natLe 4 (c.ctx q).ci.toNat)

/-- The SUBMIT that placed the record at the head of the operator context, taken from the list. -/
def Chip.takeSubmit (c : Chip) (q : Nat) : Chip × Option (Transport × W16) :=
  if q = 4095 then
    match c.crook.submits.find? (fun e => e.1 == (c.ctx q).ci) with
    | some e => ({ c with crook := { c.crook with submits := c.crook.submits.filter (fun s => s.1 != e.1) } }, some e.2)
    | none => (c, none)
  else (c, none)

/-- A record rejected under R356: its completion is written directly. -/
def Chip.rejectRecord (c : Chip) (q : Nat) (x : SbEntry) (st : Nat) : Chip :=
  let c := c.writeRecord q x.seq st (unitOf x.opcode) 0 0 (x.flag 16)
  c.answerSubmit { x with status := BitVec.ofNat 8 st }

/-- A record accepted: it takes the lowest FREE entry; a failure seen at fetch ends it at once, else it waits (R356, R358,
R375); WAIT_CAP when the WAITING entries reach 448 (R369, R383). -/
def Chip.acceptRecord (c : Chip) (q e : Nat) (x : SbEntry) : Chip :=
  let x := { x with state := SbState.waiting, fetchNo := c.fetched }
  let c := (c.updCtx q (fun y => { y with seqNext := y.seqNext + 1 })).consume q
  let c := { c.putEntry e x with fetched := c.fetched + 1 }
  match c.fetchStatus x with
  | some st => c.finishBad e st
  | none =>
    let c := c.recheckOne e
    if (c.entry e).state = .waiting && c.waitingCount = 448 then c.raise pgSHEP 4 else c

/-- One fetch (R356, R366). A rejected record whose completion finds no ring room waits in the ring (R376). -/
def Chip.fetch (c : Chip) : Chip :=
  let c := c.noteEligible
  match chooseCtx (c.ctxs.filter (fun e => c.eligible e.1)), c.freeSlot with
  | some (q, _), some e =>
    if q != 4095 && !c.dmaOk then c
    else
      let x := c.headEntry q
      let c := (c.headWords q).1
      let y := c.ctx q
      let d := subMod 65536 x.seq y.seqNext.toNat
      let dup := 32768 ≤ d
      if d = 0 then
        let r := c.takeSubmit q
        r.1.acceptRecord q e { x with submit := r.2 }
      else if (!dup || BitVec.ofNat 16 x.seq != y.dupLast) && !y.cqRoom then c.cqFull q
      else
        let r := c.takeSubmit q
        let x := { x with submit := r.2 }
        let c := r.1
        if dup then
          let c := (c.count pgSHEP 0x188 1).raise pgSHEP 1
          let c := c.updCtx q (fun y => { y with dups := BitVec.ofNat 16 (satAdd 16 y.dups.toNat 1) })
          let c := if BitVec.ofNat 16 x.seq != y.dupLast then
              (c.rejectRecord q x stDUPLICATE).updCtx q (fun y => { y with dupLast := BitVec.ofNat 16 x.seq })
            else c
          c.consume q
        else
          let c := (c.count pgSHEP 0x18C 1).raise pgSHEP 0
          let c := (c.rejectRecord q x stOUT_OF_SEQUENCE).updCtx q (fun y => { y with state := .error })
          c.consume q
  | _, _ => c

/-! ### Doorbells (R353, R354) -/

/-- A doorbell value out of range (R353, R354, R379). -/
def Chip.dbRange (c : Chip) (q : Nat) : Chip :=
  let c := c.updCtx q (fun x => { x with dbErrors := BitVec.ofNat 16 (satAdd 16 x.dbErrors.toNat 1) })
  (c.count pgSHEP 0x190 1).raise pgSHEP 2

/-- SQ_PI written with `v` (R353). -/
def Chip.doorbellPi (c : Chip) (q : Nat) (v : W32) : Chip :=
  let x := c.ctx q
  if (v - x.pi).toNat ≤ (x.ci + BitVec.ofNat 32 (2 ^ x.logSq.toNat) - x.pi).toNat then c.putCtx q { x with pi := v }
  else c.dbRange q

/-- CQ_CI written with `v` (R354). -/
def Chip.doorbellCi (c : Chip) (q : Nat) (v : W32) : Chip :=
  let x := c.ctx q
  if (v - x.cqCi).toNat ≤ (x.cqPi - x.cqCi).toNat then c.putCtx q { x with cqCi := v, cqWaiting := false }
  else c.dbRange q

/-! ### Moderation (R355) -/

/-- MOD_DELAY has passed since the first counted completion: the vector is sent and the count starts again. -/
def Chip.modDelayEnds (c : Chip) (q : Nat) : Chip :=
  let x := c.ctx q
  if x.counted = 0 || x.modDelay = 0 then c
  else
    let c := c.putCtx q { x with counted := 0 }
    if x.irqEn then c.msix x.vector.toNat else c

/-! ### Context control (R357, R378, R381) -/

/-- CTX_SELECT. -/
def Chip.ctxSel (c : Chip) : Nat := (c.page pgSHEP).rd 0x100 % 4096

/-- A CTX_CTRL bit that the context's state does not accept. -/
def Chip.ctrlBad (c : Chip) (cls : Nat) : Chip := c.fault pgSHEP stBAD_OPERAND 0x8108 cls

/-- ENABLE: from DISABLED with both ring sizes set. A context stopped by a link loss writes its completions again. -/
def Chip.ctxEnable (c : Chip) (q cls : Nat) : Chip :=
  let x := c.ctx q
  if x.state = .disabled && 6 ≤ x.logSq.toNat && x.logSq.toNat ≤ 16 && 6 ≤ x.logCq.toNat && x.logCq.toNat ≤ 16 then
    let c := c.putCtx q { x with state := .active }
    { c with gate := { c.gate with lost := c.gate.lost.filter (fun y => y.val != q) } }
  else c.ctrlBad cls

/-- Every WAITING or READY command of context `q` completes with ABORTED (R378). -/
def Chip.abortQueued (c : Chip) (q : Nat) : Chip :=
  ((c.live.filter (fun e => e.2.ctx == q && (e.2.state == .waiting || e.2.state == .ready))).map (fun e => e.1)).foldl
    (fun c e => if (c.entry e).state = .waiting || (c.entry e).state = .ready then c.finishBad e stABORTED else c) c

/-- STOP: from ACTIVE (R378). -/
def Chip.ctxStop (c : Chip) (q cls : Nat) : Chip :=
  if (c.ctx q).state = .active then
    ((c.updCtx q (fun x => { x with state := .stopping })).abortQueued q).maybeStopped q
  else c.ctrlBad cls

/-- RESUME: from ERROR (R357). -/
def Chip.ctxResume (c : Chip) (q cls : Nat) : Chip :=
  if (c.ctx q).state = .error then c.updCtx q (fun x => { x with state := .active }) else c.ctrlBad cls

/-- DISABLE: from STOPPED or ERROR with no command on the scoreboard; the indices return to 0. -/
def Chip.ctxDisable (c : Chip) (q cls : Nat) : Chip :=
  let x := c.ctx q
  if (x.state = .stopped || x.state = .error) && c.onBoard q = 0 then
    c.putCtx q { x with state := .disabled, pi := 0, ci := 0, cqPi := 0, cqCi := 0, counted := 0, cqWaiting := false }
  else c.ctrlBad cls

/-- The four bits of CTX_CTRL, in bit order. Context 4,095 is configured by the Crook alone (R803). -/
def Chip.ctxCtrl (c : Chip) (q v cls : Nat) : Chip :=
  if q = 4095 && cls != 0 then c.refuse pgSHEP 0x8108 cls
  else
    let c := if bit v 0 then c.ctxEnable q cls else c
    let c := if bit v 1 then c.ctxStop q cls else c
    let c := if bit v 2 then c.ctxResume q cls else c
    if bit v 3 then c.ctxDisable q cls else c

end Sys2Proof.Machine
end

