-- ==== Sys2Proof/Machine/Holds.lean ====
section
/-! DEFINITION. Holding and releasing a pasture, the end of a RUN or LADDER, and which round is due next: the pacer grid,
skipped rounds and parking (R67–R73, R81, R210, R326–R330, R399–R406, R421, R446, R627). -/

namespace Sys2Proof.Machine

/-! ### Ladders of a pasture and the end of a RUN or LADDER (R329, R421) -/

/-- The ladder whose root or member is pasture `p`: its slot and contents. -/
def Chip.ladderOf (c : Chip) (p : Nat) : Option (Nat × Ladder) :=
  c.ladders.find? (fun e => e.2.valid && e.2.pasture.val == p)

def Chip.ladder (c : Chip) (i : Nat) : Ladder := mapGet ladderDefault c.ladders i
def Chip.putLadder (c : Chip) (i : Nat) (l : Ladder) : Chip := { c with ladders := mapSet ladderDefault c.ladders i l }

/-- The result word of a ladder that stops for `reason` (R329). -/
def ladderResult (l : Ladder) (reason : Nat) : Nat :=
  unsext 32 (clampI (-(2 ^ 31)) (2 ^ 31 - 1) l.best) + l.bestReplica.toNat * 2 ^ 32 + b2n l.inexact * 2 ^ 39
    + reason % 8 * 2 ^ 40 + l.exchIndex.toNat % 2 ^ 21 * 2 ^ 43

/-- The final progress of a ladder that has run `n` rounds (R329). -/
def ladderProgress (l : Ladder) (n : Nat) : W32 :=
  progressWord (if l.roundLimit = 0 then 0xFF else min 100 (n * 100 / l.roundLimit.toNat)) (n / max 1 l.colours.toNat)

/-- The result word and the progress of a RUN (R421). -/
def runResult (round : W32) (r : RunRec) : Nat := r.advanced.toNat + round.toNat * 2 ^ 32
def runProgress (r : RunRec) : W32 :=
  progressWord (if r.rounds = 0 then 0xFF else min 100 (r.advanced.toNat * 100 / r.rounds.toNat)) r.advanced.toNat

/-- The success status of a RUN (R421, R29). -/
def runStatus (r : RunRec) : Nat :=
  worse (if r.saturated then stSATURATED else stOK) (if r.degraded then stDEGRADED else stOK)

/-- The command of a RUN or LADDER of pasture `p` completes with `st`; `reason` is a stopped ladder's (R327). -/
def Chip.finishRun (c : Chip) (p : Nat) (r : RunRec) (st reason : Nat) : Chip :=
  if r.ladder then
    match c.ladderOf p with
    | none => match r.entry with | some e => c.finishBad e.val st | none => c
    | some (i, l) =>
      let c := c.putLadder i { l with running := false, entry := none }
      match r.entry with
      | some e => c.finish e.val st (ladderResult l reason) (ladderProgress l r.advanced.toNat)
      | none => c
  else match r.entry with
    | some e => c.finish e.val st (runResult (c.past p).round r) (runProgress r)
    | none => c

/-- The RUN or LADDER of pasture `p`, and a RUN that waits to replace it, complete with `st`. -/
def Chip.endRun (c : Chip) (p st : Nat) : Chip :=
  let x := c.past p
  let c := c.updPast p (fun x => { x with
    run := none, nextRun := none, abortRun := false, abortNext := false, passedOver := [], tickDue := false, parked := false })
  let c := match x.run with | some r => c.finishRun p r st 0 | none => c
  let c := x.passedOver.foldl (fun c r => c.finishRun p r st 0) c
  match x.nextRun with | some r => c.finishRun p r st 0 | none => c

/-! ### Streams of a held pasture (R403) -/

/-- The stream contexts of pasture `p` stop, or go on: after either, the rest of a frame in progress is discarded. -/
def Chip.stopStreams (c : Chip) (p : Nat) (stop : Bool) : Chip :=
  { c with streams := c.streams.map (fun s =>
      match s.bound with
      | some (q, _) => if q.val = p && s.stopped != stop then { s with stopped := stop, skipFrame := s.skipFrame || s.inFrame } else s
      | none => s) }

/-! ### Taking a hold (R400–R404, R446) -/

/-- A hold set by HOLD takes effect now; the HOLD commands that wait for it complete with HELD. -/
def Chip.takeHold (c : Chip) (p : Nat) (h : PendingHold) : Chip :=
  let x := c.past p
  let ends := if h.duration = 0 then none else some (c.now + h.duration.toNat)
  let c := match x.hold with
    | some old => c.updPast p (fun x => { x with pendingHold := none, hold := some { old with duration := h.duration, endsAt := ends } })
    | none =>
      let c := c.updPast p (fun x => { x with pendingHold := none, tickDue := false, parked := false
                                              hold := some { duration := h.duration, stopStreams := h.stopStreams, endsAt := ends } })
      if h.stopStreams then c.stopStreams p true else c
  h.entries.foldl (fun c e => c.finish e.val stHELD (x.round.toNat + h.duration.toNat * 2 ^ 32) (progressWord 0 0)) c

/-- A pasture holds as if by HOLD with DURATION_US 0 (R405). -/
def Chip.holdAsIf (c : Chip) (p : Nat) : Chip := c.takeHold p { duration := 0, stopStreams := false, entries := [] }

/-- The pending hold of HOLD takes effect, if there is one. -/
def Chip.takePending (c : Chip) (p : Nat) : Chip :=
  match (c.past p).pendingHold with | some h => c.takeHold p h | none => c

/-- A hold imposed by a fault or the environment takes effect now with status `st`: the RUN or LADDER completes with it,
and a pending hold takes effect too (R400, R446). A descriptor breach of a round chain holds as if by HOLD (R300). -/
def Chip.faultNow (c : Chip) (p st : Nat) : Chip :=
  let c := c.updPast p (fun x =>
    let x := { x with pendingFault := none }
    if st = stTHERMAL_HOLD then { x with thermal := true }
    else if st = stPOWER_STORM then { x with storm := true }
    else if st = stBAD_OPERAND then x
    else if x.faultHold.isSome then x else { x with faultHold := some (BitVec.ofNat 8 st) })
  let c := (c.endRun p st).takePending p
  if st = stBAD_OPERAND then c.holdAsIf p else c

/-- A hold that only RESTORE or UNLOAD ends takes effect now (R567, R609). -/
def Chip.faultHard (c : Chip) (p st : Nat) : Chip :=
  let c := c.updPast p (fun x => if x.faultHold.isSome then x else { x with faultHold := some (BitVec.ofNat 8 st) })
  (c.endRun p st).takePending p

/-- A fault holds a resident pasture at its next muster, or at once between rounds (R395, R446). -/
def Chip.faultHoldPast (c : Chip) (p st : Nat) : Chip :=
  let x := c.past p
  if !x.resident then c else if x.between then c.faultNow p st else c.holdNext p st

/-! ### The next round (R68–R73, R627) -/

/-- STAGE of BOOT_STATE. -/
def Chip.stage (c : Chip) : Nat := (c.page pgIDENT).fld 0x120 3 0

/-- The muster unit may start rounds: it has been released and the RTC shows VALID (R91, R627). -/
def Chip.roundsAllowed (c : Chip) : Bool := !c.held && c.stage == 7 && c.rtc.valid

/-- A stream context of pasture `p` holds an event. -/
def Chip.streamWaits (c : Chip) (p : Nat) : Bool :=
  c.streams.any (fun s => s.fifoCount != 0 && (match s.bound with | some (q, _) => q.val == p | none => false))

/-- The skip test of R68. A running ladder always has a queued injection (R310). -/
def Chip.skipOk (c : Chip) (p : Nat) : Bool :=
  let x := c.past p
  x.quiet && x.inject.isEmpty && !c.streamWaits p && !(match x.run with | some r => r.ladder | none => false)

/-- The tick of the pasture's next round (R70). -/
def Past.tickTime (x : Past) : Nat := x.anchor + (x.round - x.anchorRound).toNat * x.period.toNat

/-- The grid of a paced pasture is anchored at the round that starts now. -/
def Past.anchorNow (x : Past) (now : Nat) : Past := { x with anchor := now, anchorRound := x.round, anchored := true }

/-- After a hold the grid is anchored anew at the first of its ticks after the present moment (R81). -/
def Past.regrid (x : Past) (now : Nat) : Past :=
  if x.paced && x.anchored && x.period != 0 then
    { x with anchor := x.anchor + ((now - x.anchor) / x.period.toNat + 1) * x.period.toNat, anchorRound := x.round, tickDue := false }
  else { x with tickDue := false }

/-- The delay banks of every core tile of the pasture rotate (R68, R118). -/
def Chip.rotateAll (c : Chip) (x : Past) : Chip :=
  x.cores.foldl (fun c t => c.updTile t.key (fun u => { u with nc := { u.nc with tally := rotateBanks u.nc.tally } })) c

/-- The counter of pasture `p` advances by one round under its RUN or LADDER (R421). -/
def Chip.advance (c : Chip) (p : Nat) : Chip :=
  c.updPast p (fun x => { x with round := x.round + 1, sliceRan := x.sliceRan + 1, roundsSinceCkpt := x.roundsSinceCkpt + 1
                                 run := x.run.map (fun r => { r with advanced := r.advanced + 1 }) })

/-- A RUN whose count is reached completes, and the pasture becomes IDLE (R421, R442). -/
def Chip.countReached (c : Chip) (p : Nat) : Chip :=
  match (c.past p).run with
  | none => c
  | some r =>
    if r.ladder || r.rounds = 0 || r.advanced.toNat < r.rounds.toNat then c
    else
      let c := c.updPast p (fun x => { x with run := none, abortRun := false, tickDue := false, parked := false })
      c.finishRun p r (runStatus r) 0

/-- The digest word, 0, that skipped round `n` has in a log that goes on (R837, R846). -/
def Past.skipDigest (x : Past) (n : W32) : List (W32 × W64) :=
  match x.log with
  | some g => if x.imgPkg = 0 && !g.full && !g.broken then [(n, 0)] else []
  | none => []

/-- A round skipped (R68), which a log takes with digest 0 (R837). -/
def Chip.skipRound (c : Chip) (p : Nat) : Chip :=
  let n := (c.past p).round
  let c := (c.rotateAll (c.past p)).advance p
  let c := c.updPast p (fun x => { x with
    skippedRun := x.skippedRun + 1, skippedTotal := x.skippedTotal + 1, digests := x.digests ++ x.skipDigest n })
  (c.count pgSPIKE 0x10C 1).countReached p

/-- The root of a pasture that spans packages tells its children whether the next round is skipped (R736). -/
def Chip.announce (c : Chip) (p : Nat) (skip : Bool) : Chip :=
  let x := c.past p
  let c := c.toChildren p 3 (x.round - 1).toNat skip (!skip && 65536 ≤ x.skippedRun.toNat)
  c.updPast p (fun x => { x with span := { x.span with done := some skip, sentArrive := true } })

/-- Whether the next round of pasture `p` is skipped (R68): the root decides and tells its children when its mind differs from
what they know; another package follows MUSTER_DONE, and waits (none) while it has not come (R736). -/
def Chip.decideSkip (c : Chip) (p : Nat) : Chip × Option Bool :=
  let x := c.past p
  if !x.spans then (c, some (c.skipOk p))
  else if x.root = c.pkg then
    let s := c.skipOk p
    if x.span.done = some s || !(s || x.span.sentArrive) then (c, some s) else (c.announce p s, some s)
  else if x.span.sentArrive && x.span.done.isNone then (c, none)
  else (c, some (x.span.done.getD false))

/-- What is due next for a pasture between rounds: its round, when its tick has passed or its mode is free; a skipped round
in its place, or parking, when the skip test holds (R68, R70–R72). -/
def Chip.nextDue (c : Chip) (p : Nat) : Nat → Chip
  | 0 => c
  | f + 1 =>
    let x := c.past p
    if !c.roundsAllowed || !x.resident || !x.running || x.inRound || x.tickDue then c
    else if x.paced && x.anchored && c.now < x.tickTime then c
    else
      let q := c.decideSkip p
      let c := q.1
      match q.2 with
      | none => c
      | some true =>
        if x.paced then
          let c := if x.anchored then c else c.updPast p (fun x => x.anchorNow c.now)
          let c := c.updPast p (fun x => { x with span := { x.span with done := none, sentArrive := true } })
          (c.skipRound p).nextDue p f
        else c.updPast p (fun x => { x with parked := true })
      | some false => c.updPast p (fun x => { x with tickDue := true, parked := false })

/-- How many rounds can fall due at one moment: one for each tick that has passed, and one more. -/
def Chip.dueFuel (c : Chip) (p : Nat) : Nat :=
  let x := c.past p
  if x.paced && x.anchored && x.period != 0 then (c.now - x.tickTime) / x.period.toNat + 2 else 2

/-- The next round of a pasture looked for. -/
def Chip.due (c : Chip) (p : Nat) : Chip := c.nextDue p (c.dueFuel p)

/-- A parked pasture for which an event has arrived starts its next round (R72). -/
def Chip.unpark (c : Chip) (p : Nat) : Chip :=
  if (c.past p).parked then (c.updPast p (fun x => { x with parked := false })).due p else c

/-- A hold has ended: rounds resume once no hold is left (R81, R405). -/
def Chip.resume (c : Chip) (p : Nat) : Chip :=
  if (c.past p).held then c else (c.updPast p (fun x => x.regrid c.now)).due p

/-- A hold set by HOLD, or as if by HOLD, ends (R401, R405). -/
def Chip.endHold (c : Chip) (p : Nat) : Chip :=
  match (c.past p).hold with
  | none => c
  | some h =>
    let c := c.updPast p (fun x => { x with hold := none })
    (if h.stopStreams then c.stopStreams p false else c).resume p

/-- RELEASE has ended a hold: a free-mode pasture that would park starts its next round all the same (R72), and the root of
one that spans packages tells its children. -/
def Chip.startParked (c : Chip) (p : Nat) : Chip :=
  let x := c.past p
  if !x.parked then c
  else
    let c := if x.spans && x.root = c.pkg && x.span.done = some true then c.announce p false else c
    c.updPast p (fun x => { x with parked := false, tickDue := true })

/-- A fault hold ends. -/
def Chip.endFault (c : Chip) (p : Nat) : Chip := (c.updPast p (fun x => { x with faultHold := none })).resume p

end Sys2Proof.Machine
end

