-- ==== Sys2Proof/Machine/Power.lean ====
section
/-! DEFINITION. Switched domains and their transitions, drains and wakes, hurdle latches, wake routes, regulators and the
applied voltage, the RTC (R562–R565, R573, R580–R610, R617). -/

namespace Sys2Proof.Machine

/-! ### Numbers and names -/

/-- The number of a domain state (R611). -/
def domNum : DomState → Nat
  | .on => 0
  | .retain => 1
  | .off => 2

/-- The state of a number; none for the reserved value. -/
def domOf (n : Nat) : Option DomState :=
  if n = 0 then some .on else if n = 1 then some .retain else if n = 2 then some .off else none

/-- The pad group whose latch lies in domain `n` (R596). -/
def groupOf (n : Nat) : Option Nat :=
  if n = domAER 0 then some 0 else if n = domAER 1 then some 1 else if n = domGATE then some 2 else none

/-- The base-die pages of domain `n`. -/
def pagesOf (n : Nat) : List Nat := (directory.filter (fun r => r.2.2.2 == n)).map (fun r => r.1)

/-- Negotiated features of compute die `d` (R562, R563). -/
def Chip.features (c : Chip) (d : Nat) : Nat :=
  c.fuses.baseFeatures.toNat &&& (nth 0 c.fuses.dieFeatures d).toNat

/-! ### The applied voltage (R416, R564, R565) -/

/-- The voltage at which die `d` is to run: the lower of target, ceiling and power cap, in the negotiated steps. -/
def Chip.wantVolt (c : Chip) (d : Nat) : Nat :=
  let r := c.die d
  let v := min r.target (min r.ceiling r.capVolt)
  if bit (c.features d) 2 then v else v / 10 * 10

/-- A voltage step of die `d` becomes due when its wanted voltage differs from the applied one; a later step replaces a
pending one (R565). -/
def Chip.dueStep (c : Chip) (d : Nat) : Chip :=
  let r := c.die d
  if r.state != .on then c.putDie d { r with step := none }
  else
    let v := c.wantVolt d
    c.putDie d { r with step := if v = r.applied then none else some v }

/-- SET_OP_POINT commands that wait for die `d` complete (R416). -/
def Chip.finishSteps (c : Chip) (d : Nat) : Chip :=
  let r := c.die d
  let c := c.putDie d { r with waiters := [] }
  r.waiters.foldl (fun c e =>
    let mv := (c.entry e.val).bytes 36 2
    c.finish e.val (if r.applied < mv then stDEGRADED else stOK) r.applied (progressWord 100 0)) c

/-- The pending step of die `d` takes place (R565). -/
def Chip.takeStep (c : Chip) (d : Nat) : Chip :=
  match (c.die d).step with
  | none => c.finishSteps d
  | some v =>
    let c := c.updDie d (fun r => { r with applied := v, step := none })
    (((c.count (pgDIE + d) 0x130 1).raise (pgDIE + d) 0)).finishSteps d

/-! ### What a domain loses in OFF (R580, R590, R591, R593, R597) -/

/-- A core that loses its contents: registers, queues, tallies and chain. -/
def Tile.coreOff (k : Nat) (t : Tile) : Tile :=
  let z := tileDefault k
  { t with pCore := z.pCore, nc := z.nc, tc := z.tc, orders := z.orders, digest := z.digest
           q := { z.q with high := t.q.high, outwait := t.q.outwait } }

/-- A bank that loses its contents: its array and the registers of its page. -/
def Tile.bankOff (k : Nat) (t : Tile) : Tile :=
  { t with bank := { t.bank with mem := [], burst := false, urgent := none }, pBank := (tileDefault k).pBank }

/-- A router that loses its contents. -/
def Tile.routerOff (k : Nat) (t : Tile) : Tile :=
  let z := tileDefault k
  { t with rt := z.rt, pRouter := z.pRouter, pQdbg := z.pQdbg, dbg := z.dbg, egress := []
           q := { t.q with high := z.q.high, outwait := z.q.outwait } }

/-- The pages of domain `n` return to their reset values; the machine registers of R754 on the page of LINK0 are kept. -/
def Chip.resetPages (c : Chip) (n : Nat) : Chip :=
  (pagesOf n).foldl (fun c p =>
    let z := pageDefault p
    if p = pgLINK then
      let q := c.page p
      c.putPage p (([0x180, 0x184, 0x188, 0x18C, 0x190].foldl (fun (z : Page) o => z.wr o (q.rd o)) z))
    else c.putPage p z) c

/-- The value and enable that the block of pad group `g` drives (R597, R613). -/
def Chip.padDrive (c : Chip) (g : Nat) : Bool × Bool :=
  if g = 2 then (false, c.domOn domGATE && !c.gate.l12)
  else ((nth Aer.init c.aers g).ack, c.domOn (domAER g))

/-- The hurdle latch of domain `n`, if it has one, captures its pad (R597). -/
def Chip.capture (c : Chip) (n : Nat) : Chip :=
  match groupOf n with
  | none => c
  | some g =>
    let d := c.padDrive g
    { c with latches := listSet c.latches g { latched := true, value := d.1, enable := d.2 } }

/-- A stream context whose port loses its stream buffer: the FIFO is empty and no reference is valid (R698, R707). -/
def StreamCtx.portOff (s : StreamCtx) : StreamCtx :=
  { s with fifoHead := 0, fifoCount := 0, fifoPorts := [], refValid := false, inFrame := false, skipFrame := false, refBad := [] }

/-- What domain `n` loses when it goes to OFF. -/
def Chip.lose (c : Chip) (n : Nat) : Chip :=
  match domKind n with
  | .nothing => c
  | .bank =>
    let c := c.updTile n (fun t => (t.bankOff n).coreOff n)
    c.setCoreDom n .off
  | .base b =>
    let was := c
    let c := c.resetPages n
    if b = 2 then
      { c with ctxs := [], sb := [], objs := [], channels := freeChannels, pools := freePools, pasts := [], sliceQ := []
               ladders := [], fetched := 0, readied := 0 }
    else if b = 3 then { c with commons := { c.commons with mem := [], burst := false, urgent := none }, merge := [] }
    else if b = 5 then { c with gate := { Gate.init with ready := c.gate.ready, limits := c.gate.limits } }
    else if 6 ≤ b && b ≤ 11 then
      let k := b - 6
      let l := c.link k
      let left := if l.phase = .up then (l.emit 2 0 0 0 (was.helloOf k 1).body).2 else []
      let c := if l.phase = .up then c.ownNotice k false else c
      c.putLink k { Link.init with wire := left }
    else if 12 ≤ b && b ≤ 17 then
      let k := b - 12
      let aers := if 16 ≤ b then listSet c.aers (b - 16) { nth Aer.init c.aers (b - 16) with ack := false } else c.aers
      { c with aers := aers, streamBanks := listSet c.streamBanks k (Bank.init 0)
               streams := c.streams.map (fun s => if s.bound.isSome && s.info.port = k then s.portOff else s) }
    else if b = 18 then { c with streams := List.replicate 32 StreamCtx.init }
    else if 20 ≤ b then
      let d := b - 20
      let c := (upto 256).foldl (fun c t => (c.updTile (tileKey d t) (fun u => u.routerOff (tileKey d t))).setRouterDom (tileKey d t) .off) c
      c.updDie d (fun r => { r with state := if r.state = .on then .off else r.state, applied := 0, step := none
                                    hs := if r.hs = 2 then 2 else 0 })
    else c

/-! ### Transitions -/

/-- A bank with its page as the bank operations take it, by domain number. -/
def Chip.bankInit (c : Chip) (k : Nat) : Chip := c.updTile k (fun t => t.putBank t.bankCtx.init)

/-- Domain `n` makes its transition out of ON, or from RETAIN to OFF. -/
def Chip.goDown (c : Chip) (n : Nat) (s : DomState) : Chip :=
  let c := if s = .off then (c.capture n).lose n
    else if domKind n = .bank then c.updTile n (fun t => { t with bank := { t.bank with retainAt := c.now } }) else c
  c.updDom n (fun d => { d with state := s, draining := false })

/-- The declared generation of compute die `d` is not reserved (R563). -/
def Chip.genKnown (c : Chip) (d : Nat) : Bool := let g := (nth 0 c.fuses.dieGens d).toNat; g == 1 || g == 2

/-- Die `d` becomes DEAD (R572). -/
def Chip.dieDead (c : Chip) (d : Nat) : Chip :=
  (c.updDie d (fun r => { r with state := .dead, hs := 2, applied := 0, step := none })).raise pgSTACK 4

/-- R573 for die `d`, whose regulator has come ON: handshake, lane maps, one lane check of every link, and its voltage. The
answer says whether the die is ON. -/
def Chip.dieUp (c : Chip) (d : Nat) : Chip × Bool :=
  if !c.genKnown d then (c.dieDead d, false)
  else
    let c := (upto 16).foldl (fun c i =>
      { c with vlinks := mapUpd vlinkDefault c.vlinks (16 * d + i) (fun v => { v with due := false, ce := [], lastCheck := BitVec.ofNat 32 c.timeMs }) }) c
    let c := c.countWrap pgSTACK 0x140 16
    let c := c.updDie d (fun r => { r with state := .on, hs := 1, step := none, regFault := false })
    let c := c.updDie d (fun r => { r with applied := c.wantVolt d })
    ((upto 256).foldl (fun c t => c.setRouterDom (tileKey d t) .on) c, true)

/-- CORE_EN and ROUTER_EN of AUTO_CTRL. -/
def Chip.coreEn (c : Chip) : Bool := bit ((c.page pgPOWER).rd 0x110) 0
def Chip.routerEn (c : Chip) : Bool := bit ((c.page pgPOWER).rd 0x110) 1

/-- A regulator may be turned ON: its die is neither tripped nor DEAD nor out of service by REG_FAULT (R572, R585, R609). -/
def Chip.dieMayRise (c : Chip) (d : Nat) : Bool :=
  (c.die d).state != .tripped && (c.die d).state != .dead && !(c.die d).regFault

/-- Link `k` starts bring-up when its domain is ON and LINK_CTRL.EN is 1 (R738). -/
def Chip.linkStart (c : Chip) (k : Nat) : Chip :=
  let l := nth Link.init c.links k
  if l.phase = .off && c.domOn (domLINK k) && bit ((c.page (pgLINK + k)).rd 0x100) 0 then
    { c with links := listSet c.links k { l with phase := .whistle } }
  else c

/-- Domain `n` reaches ON (R511, R512, R590, R593). The answer says whether it did. -/
def Chip.goUp (c : Chip) (n : Nat) : Chip × Bool :=
  let was := (c.dom n).state
  let done (c : Chip) : Chip := c.updDom n (fun d => { d with state := .on, waking := false })
  match domKind n with
  | .nothing => (c, false)
  | .bank =>
    let c := if was = .off then c.bankInit n
      else if 3600000000 < c.now - (c.tile n).bank.retainAt then
        c.updTile n (fun t => { t with pBank := (t.pBank.wr 0x108 0).wr 0x138 0, bank := { t.bank with burst := false } })
      else c
    let c := done c
    let c := if c.coreDom n = .off then c.setCoreDom n (if c.coreEn then .retain else .on)
      else if !c.coreEn then c.setCoreDom n .on else c
    (c, true)
  | .base b =>
    if 20 ≤ b then
      let d := b - 20
      if !c.dieMayRise d then (c.updDom n (fun x => { x with waking := false }), false)
      else
        let r := c.dieUp d
        if r.2 then (done r.1, true) else (r.1.updDom n (fun x => { x with waking := false }), false)
    else if b = 3 && was = .off then
      (done ({ c with commons := { c.commons with mem := [] } }.updPage pgCOMMONS (fun p => (p.wr 0x208 0).wr 0x210 0)), true)
    else if b = 2 && was = .off then (done (c.putCtx 4095 Ctx.operator), true)
    else if 6 ≤ b && b ≤ 11 then ((done c).linkStart (b - 6), true)
    else (done c, true)

/-! ### Requests (R584–R587, R595, R632) -/

/-- The status that a request ends with is shown and its asker told (R415, R584, R632). -/
def Chip.conclude (c : Chip) (n : Nat) (q : DomReq) (prev : DomState) (st drain : Nat) : Chip :=
  let c := c.updDom n (fun d => { d with current := none, lastStatus := BitVec.ofNat 8 st, drainTime := BitVec.ofNat 16 (min 65535 drain) })
  match q.asker with
  | .command e => c.finish e.val st (domNum prev + min (2 ^ 32 - 1) drain * 2 ^ 32) (progressWord (if st = stOK then 100 else 0) 0)
  | .register => c
  | .profile =>
    if st = stOK then c
    else (c.updPage pgPROFILE (fun p => p.setFld 0x120 7 0 (satAdd 8 (p.fld 0x120 7 0) 1))).raise pgPROFILE 2

/-- The stream contexts bound to base domain `b` feed a resident pasture (R585). -/
def Chip.streamUses (c : Chip) (b : Nat) : Bool :=
  c.streams.any (fun s => match s.bound with
    | some (p, _) => (c.past p.val).resident && (b == 18 || s.info.port + 12 == b)
    | none => false)

/-- A resident pasture's routes cross link `k` (R585). -/
def Chip.routesCross (c : Chip) (k : Nat) : Bool :=
  let l := nth Link.init c.links k
  l.rxChannels.any (fun e => (c.past e.1.val).resident) || l.txChannels.any (fun e => (c.past e.1.val).resident)

/-- Commands on the scoreboard. -/
def Chip.boardEmpty (c : Chip) : Bool := c.live.isEmpty

/-- The causes in R585 and R595 for which a request is refused. -/
def Chip.refusals (c : Chip) (n : Nat) (t : DomState) (q : DomReq) : List Nat :=
  let d := c.dom n
  match domKind n with
  | .nothing => [stBAD_OPERAND]
  | .bank =>
    (if d.state = .off && t = .retain then [stBAD_OPERAND] else [])
    ++ (if t != .on && (c.ownerOf n).isSome then [stBUSY_PASTURE] else [])
    ++ (if t = .on && !c.domOn (domREG (n / 256)) then [stBAD_OPERAND] else [])
  | .base b =>
    (if b ≤ 1 || !baseDomHas b t || (d.state = .off && t = .retain) then [stBAD_OPERAND] else [])
    ++ (if b = 2 then
          (match q.asker with | .command _ => [stBAD_OPERAND] | _ => [])
          ++ (if t = .retain && (!c.boardEmpty || c.residents.any (fun p => (c.past p).running)) then [stBAD_OPERAND] else [])
          ++ (if t = .off && (!c.residents.isEmpty || c.ctxs.any (fun e => e.2.state != .disabled && e.1 != 4095)) then [stBAD_OPERAND] else [])
        else [])
    ++ (if b = 5 && t = .off then
          (if q.origin = .host then [stNO_AUTHORITY] else [])
          ++ (if c.ctxs.any (fun e => e.1 != 4095 && (e.2.state == .active || e.2.state == .stopping)) then [stBAD_OPERAND] else [])
        else [])
    ++ (if 6 ≤ b && b ≤ 11 && t = .off && c.routesCross (b - 6) then [stBUSY_PASTURE] else [])
    ++ (if 12 ≤ b && b ≤ 18 && t = .off && c.streamUses b then [stBUSY_PASTURE] else [])
    ++ (if 20 ≤ b && t = .off then
          (if c.residents.any (fun p => (c.past p).touchesDie (b - 20)) then [stBUSY_PASTURE] else [])
          ++ (if (upto 256).any (fun t => domKind (tileKey (b - 20) t) = .bank && (c.dom (tileKey (b - 20) t)).state != .off) then [stBAD_OPERAND] else [])
        else [])
    ++ (if 20 ≤ b && t = .on && !c.dieMayRise (b - 20) then [stBAD_OPERAND] else [])

/-- A request starts on a domain with nothing in progress: refused, satisfied, drained, moved or woken. -/
def Chip.startReq (c : Chip) (n : Nat) (q : DomReq) : Chip :=
  let d := c.dom n
  if domKind n != .nothing && d.state = q.target then c.conclude n q d.state stOK 0
  else match c.refusals n q.target q with
    | a :: l =>
      ((c.count pgPOWER 0x144 1).raise pgPOWER 1).conclude n q d.state (l.foldl worse a) 0
    | [] =>
      if q.target = .on then c.updDom n (fun d => { d with waking := true, current := some q, prev := d.state })
      else if d.state = .on then
        c.updDom n (fun d => { d with draining := true, current := some q, prev := d.state, drainFrom := c.now })
      else (c.goDown n q.target).conclude n q d.state stOK 0

/-- A request for domain `n`; it waits while another is in progress or the domain wakes (R584, R605). -/
def Chip.askDomain (c : Chip) (n : Nat) (q : DomReq) : Chip :=
  let d := c.dom n
  if d.current.isSome || d.draining || d.waking then c.updDom n (fun d => { d with queued := d.queued ++ [q] })
  else c.startReq n q

/-- Requests that waited are taken in order, until one is in progress. -/
def Chip.nextReq (c : Chip) (n : Nat) : Nat → Chip
  | 0 => c
  | f + 1 =>
    let d := c.dom n
    if d.current.isSome || d.draining || d.waking then c
    else match d.queued with
      | [] => c
      | q :: l => ((c.updDom n (fun d => { d with queued := l })).startReq n q).nextReq n f

/-- A wake of domain `n` starts, whatever the refusals say (R588, R600, R604). -/
def Chip.wakeDomain (c : Chip) (n : Nat) : Chip :=
  let d := c.dom n
  if d.draining then c.updDom n (fun d => { d with wakeAfter := true })
  else if d.waking || d.state = .on then c
  else match domKind n with
    | .nothing => c
    | .bank => if c.domOn (domREG (n / 256)) then c.updDom n (fun d => { d with waking := true, prev := d.state }) else c
    | .base _ => c.updDom n (fun d => { d with waking := true, prev := d.state })

/-- A domain whose transition has ended: a wake that waited takes it back to ON, and waiting requests go on (R604). -/
def Chip.afterDown (c : Chip) (n : Nat) : Chip :=
  let d := c.dom n
  if d.wakeAfter then (c.updDom n (fun d => { d with wakeAfter := false })).wakeDomain n
  else c.nextReq n (d.queued.length + 1)

/-- Something of item 1 of R586 still holds in domain `n`. -/
def Chip.domBusy (c : Chip) (n : Nat) : Bool :=
  let runs (u : Nat) : Bool := c.live.any (fun e => e.2.state == .running && unitOf e.2.opcode == u)
  match domKind n with
  | .nothing => false
  | .bank =>
    let t := c.tile n
    t.orders.current.isSome || !t.q.command.isEmpty || !t.q.data.isEmpty || !t.q.sync.isEmpty || t.tc.chain.isSome
  | .base b =>
    if b = 3 then runs 1 || runs 3
    else if b = 4 then !c.nv.queue.isEmpty || !c.nv.jobs.isEmpty || c.nv.shelter.isSome
    else if b = 5 then runs 3
    else if 6 ≤ b && b ≤ 11 then !(nth Link.init c.links (b - 6)).replay.isEmpty
    else if b = 16 || b = 17 then (nth Aer.init c.aers (b - 16)).ack
    else false

/-- DRAIN_END: nothing is left in flight and the domain makes its transition (R586, R597, R604). -/
def Chip.drainEnd (c : Chip) (n : Nat) : Chip :=
  let d := c.dom n
  match d.current with
  | none => c
  | some q =>
    if !d.draining || c.domBusy n then c
    else (((c.goDown n q.target).conclude n q d.prev stOK (c.now - d.drainFrom))).afterDown n

/-- DRAIN_LIMIT in microseconds. -/
def Chip.drainLimit (c : Chip) : Nat := (c.page pgPOWER).fld 0x10C 16 0

/-- DRAIN_TIMEOUT: the domain stays ON (R587, R609). -/
def Chip.drainTimeout (c : Chip) (n : Nat) : Chip :=
  let d := c.dom n
  match d.current with
  | none => c
  | some q =>
    if !d.draining || c.now - d.drainFrom < c.drainLimit then c
    else
      let c := (c.count pgPOWER 0x140 1).raise pgPOWER 0
      ((c.updDom n (fun d => { d with draining := false, wakeAfter := false })).conclude n q d.prev stDRAIN_TIMEOUT (c.now - d.drainFrom)).afterDown n

/-! ### Hurdle latches (R597) -/

/-- PADS.RELEASE written with `mask`. -/
def Chip.padsRelease (c : Chip) (mask cls : Nat) : Chip :=
  (upto 3).foldl (fun c g =>
    if !bit mask g then c
    else if c.domOn (if g = 2 then domGATE else domAER g) then
      { c with latches := listSet c.latches g { (nth Latch.init c.latches g) with latched := false } }
    else (c.fault pgPADS stBAD_OPERAND 0x29100 cls).raise pgPADS 0) c

/-! ### Wake routes (R599, R600) -/

/-- Route slot `k` of source `s`: FIRST, COUNT and RELEASE. -/
def Chip.route (c : Chip) (s k : Nat) : Nat × Nat × Bool :=
  let w := (mapGet (fun _ => (0 : W32)) c.routes (8 * s + k)).toNat
  (bits w 9 0, bits w 17 10, bit w 24)

/-- The domains that a slot names: base domains are skipped when COUNT is above 1, and numbers that name nothing. -/
def Chip.slotDoms (c : Chip) (s k : Nat) : List Nat :=
  let r := c.route s k
  ((upto r.2.1).map (fun i => r.1 + i)).filter (fun n => match domKind n with | .bank => true | .base _ => r.2.1 = 1 | .nothing => false)

/-- A domain is barred from waking by a route: a bank whose regulator is not ON (R600). -/
def Chip.barred (c : Chip) (n : Nat) : Bool := domKind n = .bank && !c.domOn (domREG (n / 256))

/-- The next used slot of source `s` at or after `k`. -/
def Chip.usedSlot (c : Chip) (s k : Nat) : Option Nat :=
  (upto 8).find? (fun i => k ≤ i && (c.route s i).2.1 != 0)

/-- Slot `k` of source `s` starts: its domains start their wake together; groups of those already ON are released when
RELEASE is 1; a barred bank raises ROUTE_BLOCKED (R599, R600). -/
def Chip.startSlot (c : Chip) (s k : Nat) : Chip :=
  let run : WakeRun := { src := s, slot := k }
  let c : Chip := { c with wakes := c.wakes.filter (fun (w : WakeRun) => w.src != s) ++ [run] }
  let rel := (c.route s k).2.2
  (c.slotDoms s k).foldl (fun c n =>
    if c.barred n then c.raise pgWAKE 1
    else
      let c := c.wakeDomain n
      match groupOf n with
      | some g => if rel && c.domOn n && !(c.dom n).draining then c.padsRelease (2 ^ g) 0 else c
      | none => c) c

/-- Every domain of the running slot is ON, or barred. -/
def Chip.slotDone (c : Chip) (w : WakeRun) : Bool := (c.slotDoms w.src w.slot).all (fun n => c.domOn n || c.barred n)

/-- A running wake whose slot is done and which has no later used slot has ended. -/
def Chip.tidyWakes (c : Chip) : Chip :=
  { c with wakes := c.wakes.filter (fun (w : WakeRun) => !(c.slotDone w && (c.usedSlot w.src (w.slot + 1)).isNone)) }

/-- The routes of source `s` run. -/
def Chip.runRoutes (c : Chip) (s : Nat) : Chip :=
  match c.usedSlot s 0 with
  | none => c
  | some k => (c.startSlot s k).tidyWakes

/-- WAKE_DETECT: a source is detected; before the route table is in force it is held pending (R598, R599, R616, R640). -/
def Chip.wakeDetect (c : Chip) (s : Nat) : Chip :=
  if c.held then { c with heldWakes := c.heldWakes.filter (· != s) ++ [s] }
  else if !bit ((c.page pgWAKE).rd 0x100) s then c
  else
    let c := c.updPage pgWAKE (fun p => p.wr 0x10C (s + c.timeMs % 2 ^ 24 * 256))
    let c := { c with wakeCounts := mapUpd (fun _ => (0 : W32)) c.wakeCounts s (fun v => BitVec.ofNat 32 (satAdd 32 v.toNat 1)) }
    let c := c.raise pgWAKE 0
    if c.wakes.any (fun w => w.src == s) then c else c.runRoutes s

/-- ROUTE_SLOT_START: the slot that runs is done, and the next used slot starts (R599). -/
def Chip.routeNext (c : Chip) (s : Nat) : Chip :=
  match c.wakes.find? (fun w => w.src == s) with
  | none => c
  | some w =>
    if !c.slotDone w then c
    else match c.usedSlot s (w.slot + 1) with
      | none => c.tidyWakes
      | some k => (c.startSlot s k).tidyWakes

/-- WAKING_END: a waking domain reaches ON; its request completes, its pads are released when a running slot says so,
and waiting requests go on (R593, R600, R604, R605). -/
def Chip.wakingEnd (c : Chip) (n : Nat) : Chip :=
  let d := c.dom n
  if !d.waking then c
  else
    let r := c.goUp n
    let c := match d.current with
      | some q => r.1.conclude n q d.prev (if r.2 then stOK else stINTERNAL) 0
      | none => r.1
    let c := match groupOf n with
      | none => c
      | some g =>
        if r.2 && c.wakes.any (fun w => (c.route w.src w.slot).2.2 && (c.slotDoms w.src w.slot).any (· == n)) then
          c.padsRelease (2 ^ g) 0 else c
    (c.nextReq n ((c.dom n).queued.length + 1)).tidyWakes

/-! ### Self-managed domains (R590, R591) -/

/-- CORE_IDLE: a parked core goes to RETAIN. -/
def Chip.coreIdle (c : Chip) (k : Nat) : Chip :=
  let t := c.tile k
  let parked := t.q.axon.isEmpty && t.q.data.isEmpty && t.q.command.isEmpty && t.q.sync.isEmpty && t.tc.chain.isNone
    && t.orders.current.isNone
    && !(c.residents.any (fun p => (c.past p).tiles.any (fun x => x.core && x.key == k && (c.past p).inRound && !(x.phase == .none || x.phase == .muster))))
  if c.coreEn && tileKind (k % 256) != .port && c.coreDom k = .on && parked then c.setCoreDom k .retain else c

/-- ROUTER_IDLE: an idle router goes to RETAIN. -/
def Chip.routerIdle (c : Chip) (k : Nat) : Chip :=
  let t := c.tile k
  if c.routerEn && c.routerDom k = .on && t.rt.inputs.all (fun l => l.isEmpty) && t.rt.outs.all (fun o => o.slot.isNone)
  then c.setRouterDom k .retain else c

/-- CORE_EN or ROUTER_EN has been cleared: a core is ON whenever its bank is, a router whenever its die is (R590, R591). -/
def Chip.autoOff (c : Chip) : Chip :=
  let c := if c.coreEn then c else
    { c with coreDoms := c.coreDoms.map (fun e => if e.2 = .retain && c.domOn e.1 then (e.1, .on) else e) }
  if c.routerEn then c else { c with routerDoms := c.routerDoms.map (fun e => if e.2 = .retain then (e.1, .on) else e) }

/-! ### The RTC (R601, R602, R617) -/

/-- EN0, EN1 and REPEAT0 of ALARM_CTRL. -/
def Chip.alarmEn (c : Chip) (k : Nat) : Bool := bit ((c.page pgRTC).rd 0x130) k

/-- Alarm `k` fires when it is enabled, TIME has reached it and it has not fired for this value (R602, R617, R618). -/
def Chip.alarmFire (c : Chip) (k : Nat) : Chip :=
  let r := c.rtc
  let v := if k = 0 then r.alarm0 else r.alarm1
  let fired := if k = 0 then r.fired0 else r.fired1
  if !c.alarmEn k || fired || r.time.toNat < v.toNat then c
  else
    let c := (c.raise pgRTC k)
    let per := (c.page pgRTC).rd 0x134
    let c :=
      if k = 0 then
        if bit ((c.page pgRTC).rd 0x130) 8 then
          if per = 0 then
            { c with rtc := { c.rtc with fired0 := true } }.updPage pgRTC (fun p => p.setFld 0x130 0 0 0)
          else { c with rtc := { c.rtc with alarm0 := r.alarm0 + BitVec.ofNat 64 per } }
        else { c with rtc := { c.rtc with fired0 := true } }
      else { c with rtc := { c.rtc with fired1 := true } }
    c.wakeDetect k

/-- TIME takes SET; an enabled alarm that it passes fires at once (R602, R618). -/
def Chip.loadTime (c : Chip) : Chip :=
  let p := c.page pgRTC
  let c := { c with rtc := { c.rtc with time := BitVec.ofNat 64 (p.rd 0x110 + p.rd 0x114 * 2 ^ 32) } }.raise pgRTC 3
  (c.alarmFire 0).alarmFire 1

end Sys2Proof.Machine
end

