-- ==== Sys2Proof/Machine/Stack.lean ====
section
/-! DEFINITION. Units on watch, fenced and tested; the lane check with its spares and half width; gaps; voltage steps; the
thermal law; trips, regulator faults and the power cap (R413, R414, R458, R483, R484, R550–R579, R594, R609, R834, R860–R862). -/

namespace Sys2Proof.Machine

/-! ### Units (R458, R484, R834, R860–R862) -/

/-- The tile key of a unit. -/
def unitTileKey (u : Nat) : Nat := tileKey (unitDie u) (unitTile u)

/-- Both views of a unit set to one state. -/
def Chip.setUnit (c : Chip) (u : Nat) (s : UnitState) : Chip := c.updUnit u (fun x => { x with crook := s, shepherd := s })

/-- The pastures whose touched set holds unit `u`: through a core tile for a core or bank, through any tile for a router
or a vertical link. -/
def Chip.unitPastures (c : Chip) (u : Nat) : List Nat :=
  let k := unitTileKey u
  if unitKind u = 2 || unitKind u = 4 then c.touching k else match c.ownerOf k with | some p => [p] | none => []

/-- Unit `u` carries live state (R834). -/
def Chip.liveUnit (c : Chip) (u : Nat) : Bool :=
  let k := unitTileKey u
  if unitKind u = 4 then false
  else if unitKind u = 2 then (c.tile k).rt.slots.any (fun s => s.valid && (c.past s.pasture.val).resident)
  else (c.ownerOf k).isSome

/-- The nearest remaining port tile of die `d` to tile `t`, by vertical links that are not FENCED or OFF (R561). -/
def Chip.nearestExit (c : Chip) (d t : Nat) : Nat :=
  (nearestIn t (portTiles.filter (fun p => 1 < unitNum (c.unit (vlinkUnit (tileKey d p))).applied))).getD (nearestPort t)

/-- CTL_EXIT of tile `k`: what the Crook has set, or the nearest port tile (R188). -/
def Chip.ctlExit (c : Chip) (k : Nat) : Nat :=
  let v := (c.tile k).pRouter.rd 0x140
  if v = 0 then nearestPort (k % 256) else tileOf (v % 16) (v / 16 % 16)

/-- The tiles that named port tile `p` of die `d` for control exit name the nearest remaining one (R561). -/
def Chip.moveExits (c : Chip) (d p : Nat) : Chip :=
  (upto 256).foldl (fun c t =>
    if c.ctlExit (tileKey d t) = p then
      let e := c.nearestExit d t
      c.updTile (tileKey d t) (fun u => { u with pRouter := u.pRouter.wr 0x140 (tileX e + 16 * tileY e) })
    else c) c

/-- Unit `u` becomes FENCED: a vertical link moves the control exits, and its pastures hold with UNIT_FENCED (R484, R561,
R862). -/
def Chip.fenceUnit (c : Chip) (u : Nat) : Chip :=
  let c := c.setUnit u .fenced
  let c := if unitKind u = 4 then c.moveExits (unitDie u) (unitTile u) else c
  (c.unitPastures u).foldl (fun c p => c.faultHoldPast p stFENCED) c

/-- Unit `u` goes on watch unless it is FENCED or OFF (R860). -/
def Chip.watchUnit (c : Chip) (u : Nat) : Chip :=
  if unitNum (c.unit u).applied ≤ 1 then c
  else ((c.setUnit u .watch).updUnit u (fun x => { x with watch := 0 })).raise pgHEALTH 1

/-- The watch count of a WATCH unit that has reached WATCH_PASSES lets it become SPARE once it carries no live state
(R861). -/
def Chip.leaveWatch (c : Chip) (u : Nat) : Chip :=
  let x := c.unit u
  if x.applied = .watch && (c.page pgHEALTH).fld 0x128 4 0 ≤ x.watch.toNat && !c.liveUnit u then c.setUnit u .spare else c

/-- A test round of unit `u` has run the tests `ran` with the failures `bad` (R414, R861, R862, R879). -/
def Chip.recordTest (c : Chip) (u ran bad : Nat) : Chip :=
  let c := c.count pgHEALTH 0x180 (popcount 5 ran)
  let c := c.updUnit u (fun x => { x with lastTest := BitVec.ofNat 32 c.timeMs, due := false, deferred := false, forced := false
                                          lastFailed := BitVec.ofNat 5 bad })
  if bad = 0 then
    let x := c.unit u
    if x.applied = .watch then
      (c.updUnit u (fun x => { x with watch := BitVec.ofNat 8 (min 31 (x.watch.toNat + 1)) })).leaveWatch u
    else c
  else
    let c := c.count pgHEALTH 0x184 (popcount 5 bad)
    let c := c.updUnit u (fun x => { x with fails := BitVec.ofNat 16 (satAdd 16 x.fails.toNat 1) })
    (c.fenceUnit u).raise pgHEALTH 0

/-- A TEST_UNIT command completes (R414). -/
def Chip.finishTest (c : Chip) (e ran bad : Nat) : Chip :=
  let x := c.entry e
  c.finish e (if bad = 0 then stOK else stFENCED)
    (ran + bad * 2 ^ 8 + x.testFlags.toNat * 2 ^ 16 + min (2 ^ 32 - 1) ((c.now - x.readyAt) / 1000) * 2 ^ 32)
    (progressWord 100 (popcount 5 ran))

/-! ### Gaps (R554, R555) -/

/-- Every pasture of a set is out of a round. -/
def Chip.gapOf (c : Chip) (l : List Nat) : Bool := l.all (fun p => (c.past p).between)

/-- The sets of a die and of a vertical link. -/
def Chip.dieSet (c : Chip) (d : Nat) : List Nat := c.residents.filter (fun p => (c.past p).touchesDie d)
def Chip.linkSet (c : Chip) (d i : Nat) : List Nat := c.touching (tileKey d (portTile i))

def Chip.vlink (c : Chip) (d i : Nat) : VLink := mapGet vlinkDefault c.vlinks (16 * d + i)
def Chip.putVlink (c : Chip) (d i : Nat) (v : VLink) : Chip := { c with vlinks := mapSet vlinkDefault c.vlinks (16 * d + i) v }

/-- A lane check of the link is due and its link is in use. -/
def Chip.checkDue (c : Chip) (d i : Nat) : Bool :=
  ((c.vlink d i).due || !(c.vlink d i).tests.isEmpty) && (c.die d).state == .on && 1 < unitNum (c.unit (vlinkUnit (tileKey d (portTile i)))).applied

/-- Work that waits for a gap of pasture `p`: a due lane check of a link it touches, or a pending step of a die it lies
on (R554, R555). -/
def Chip.gapWork (c : Chip) (p : Nat) : Bool :=
  let x := c.past p
  (upto 4).any (fun d => (x.touchesDie d && (c.die d).step.isSome)
    || (upto 16).any (fun i => x.tiles.any (fun t => t.key == tileKey d (portTile i)) && c.checkDue d i))

/-! ### The lane check (R556–R561, R571) -/

/-- What a check of one direction comes to. -/
structure DirCheck where
  v : VDir
  lanes : Nat := 0
  spared : Bool := false
  halved : Bool := false
  fenced : Bool := false

/-- The logical lane that physical lane `f` carries, if any (R551, R559). -/
def VDir.carries (v : VDir) (f : Nat) : Option Nat :=
  if f < 72 then (if v.spares.any (fun s => s.toNat == f) then none else some f)
  else
    let l := (nth 0x7F v.spares (f - 72)).toNat
    if l = 0x7F then none else some l

/-- The lowest free spare that has not failed. -/
def VDir.freeSpare (v : VDir) : Option Nat :=
  (upto 4).find? (fun k => nth 0x7F v.spares k == 0x7F && !v.failed.getLsbD (72 + k))

/-- Physical lane `f` fails (R559–R561). -/
def DirCheck.fail (half : Bool) (r : DirCheck) (f : Nat) : DirCheck :=
  if r.v.failed.getLsbD f then r
  else
    let log := r.v.carries f
    let v := { r.v with failed := r.v.failed ||| BitVec.ofNat 76 (2 ^ f) }
    let r := { r with v := v, lanes := r.lanes + 1 }
    if v.half then { r with fenced := true }
    else match log with
      | none => r
      | some l =>
        let v := if 72 ≤ f then { v with spares := listSet v.spares (f - 72) 0x7F } else v
        match v.freeSpare with
        | some k => { r with v := { v with spares := listSet v.spares k (BitVec.ofNat 7 l) }, spared := true }
        | none => if half then { r with v := { v with half := true }, halved := true } else { r with v := v, fenced := true }

/-- One direction checked: the lanes that fail, in rising number, then its rail copies. The last two answers say whether a
rail copy failed and whether both copies of a rail have. -/
def checkDir (half : Bool) (v : VDir) (fails : BitVec 76) (rails : Nat) : DirCheck × Bool :=
  let r := ((upto 76).filter (fun f => fails.getLsbD f)).foldl (DirCheck.fail half) { v := v }
  let new := rails % 64 &&& (63 - r.v.rails.toNat)
  let all := r.v.rails.toNat ||| rails % 64
  let dead := (upto 3).any (fun i => bit all (2 * i) && bit all (2 * i + 1))
  ({ r with v := { r.v with rails := BitVec.ofNat 6 all }, fenced := r.fenced || dead }, new != 0)

/-- The lane check of link `i` of die `d`, in its gap (R556–R561). -/
def Chip.laneCheck (c : Chip) (d i : Nat) (up down : BitVec 76) (rails : Nat) : Chip :=
  if !c.checkDue d i || !c.gapOf (c.linkSet d i) then c
  else
    let v := c.vlink d i
    let u := vlinkUnit (tileKey d (portTile i))
    let half := bit (c.features d) 0
    let a := checkDir half v.up up (rails % 64)
    let b := checkDir half v.down down (rails / 64)
    let c := (c.countWrap pgSTACK 0x140 1).count pgSTACK 0x144 (a.1.lanes + b.1.lanes)
    let c := c.putVlink d i { up := a.1.v, down := b.1.v, lastCheck := BitVec.ofNat 32 c.timeMs, due := false, ce := [], tests := [] }
    let c := if a.1.spared || b.1.spared then c.raise pgSTACK 0 else c
    let c := if a.1.halved || b.1.halved then
        ((c.raise pgSTACK 1).count pgSTACK 0x148 (b2n a.1.halved + b2n b.1.halved)).watchUnit u else c
    let c := if a.2 || b.2 then (c.raise pgSTACK 3).watchUnit u else c
    let fenced := a.1.fenced || b.1.fenced
    let tested := !v.tests.isEmpty || (c.unit u).due
    let c := if fenced then ((c.raise pgSTACK 2).count pgSTACK 0x14C 1).fenceUnit u else c
    let c := if tested then c.recordTest u 8 (if fenced then 8 else 0) else c
    v.tests.foldl (fun c e => c.finishTest e.val 8 (if fenced then 8 else 0)) c

/-- LANE_CHECK_DUE: the interval of a link has expired (R556). -/
def Chip.laneDue (c : Chip) (d i : Nat) : Chip :=
  if bit ((c.page pgSTACK).rd 0x108) 0 && (c.die d).state = .on then c.putVlink d i { c.vlink d i with due := true } else c

/-- A correction counted on logical lane `l` of a direction of link `i` of die `d`, with feature LANE_CE (R557). -/
def Chip.laneCe (c : Chip) (d i dir l : Nat) : Chip :=
  if !bit (c.features d) 4 then c
  else
    let v := c.vlink d i
    let n := mapGet (fun _ => 0) v.ce (128 * dir + l) + 1
    c.putVlink d i { v with ce := mapSet (fun _ => 0) v.ce (128 * dir + l) n
                            due := v.due || (c.page pgSTACK).fld 0x10C 15 0 ≤ n }

/-! ### Voltage steps (R416, R565, R569) -/

/-- VOLTAGE_STEP: the pending step of die `d` takes place in a gap of its set, after the lane checks due there. -/
def Chip.voltageStep (c : Chip) (d : Nat) : Chip :=
  if (c.die d).step.isNone || !c.gapOf (c.dieSet d) || (upto 16).any (fun i => c.checkDue d i) then c else c.takeStep d

/-! ### Dense-engine passes: the end of a chain of PASS (R427) -/

/-- A chain of the PASS of entry `e` has ended with `st`, after `sat` clamped outputs. -/
def Chip.passPart (c : Chip) (e st sat : Nat) (whole : Bool) : Chip :=
  let x := c.entry e
  let n := min (2 ^ 32 - 1) (x.result.toNat % 2 ^ 32 + sat)
  let st := worse x.status.toNat (if x.aborting then worse st stABORTED else st)
  let dn := x.done + b2n whole
  if x.parts ≤ 1 then
    (c.count pgDENSE 0x108 0).finish e st (n + dn % 16 * 2 ^ 32) (progressWord (if statusClass st = 0 then 100 else 0) (x.progress.toNat % 2 ^ 24))
  else c.putEntry e { x with parts := x.parts - 1, status := BitVec.ofNat 8 st, result := BitVec.ofNat 64 n, done := dn }

/-! ### Trips and faults of a die (R566, R567, R570, R609) -/

/-- Every domain of die `d` is off at once. -/
def Chip.dieDark (c : Chip) (d : Nat) : Chip :=
  let ends (c : Chip) (n : Nat) : Chip :=
    let x := c.dom n
    let c := c.updDom n (fun y => { y with state := .off, draining := false, waking := false, wakeAfter := false })
    match x.current with
    | some q => c.conclude n q x.prev stINTERNAL 0
    | none => c
  let c := (upto 256).foldl (fun c t =>
    let k := tileKey d t
    if tileKind t = .port then c
    else
      let c := match (c.tile k).tc.chain with
        | some ch => match ch.entry with | some e => c.passPart e.val stTHERMAL_HOLD 0 false | none => c
        | none => c
      ends (c.lose k) k) c
  let c := (c.lose (domREG d))
  ends c (domREG d)

/-- Die `d` goes to TRIP (R566, R567). -/
def Chip.trip (c : Chip) (d : Nat) : Chip :=
  let ps := c.dieSet d
  let c := c.dieDark d
  let c := c.updDie d (fun r => { r with state := .tripped, thermal := .trip, step := none })
  let c := ({ c with thermTrip := true }.count pgTHERM 0x188 1).raise pgTHERM 2
  (ps.foldl (fun c p => c.faultHard p stTHERMAL_HOLD) c).finishSteps d

/-- DIE_TRIP: a sensor of the die itself reached 120 °C (R566, R579). -/
def Chip.dieTrip (c : Chip) (d : Nat) : Chip :=
  if (c.die d).state != .on then c else (c.raise (pgDIE + d) 1).trip d

/-- REG_FAULT: the regulator of die `d` goes OFF at once and its pastures hold with INTERNAL (R609). -/
def Chip.regFault (c : Chip) (d : Nat) : Chip :=
  if !c.domOn (domREG d) then c
  else
    let ps := c.dieSet d
    let c := (c.dieDark d).raise pgPOWER 4
    let c := c.updDie d (fun r => { r with state := .off, regFault := true, step := none })
    (ps.foldl (fun c p => c.faultHard p stINTERNAL) c).finishSteps d

/-- HANDSHAKE_FAIL: a die whose regulator is coming ON stays silent and becomes DEAD (R572). -/
def Chip.handshakeFail (c : Chip) (d : Nat) : Chip :=
  let n := domREG d
  let x := c.dom n
  if !x.waking then c
  else
    let c := (c.dieDead d).updDom n (fun x => { x with waking := false })
    let c := match x.current with | some q => c.conclude n q x.prev stINTERNAL 0 | none => c
    (c.nextReq n (x.queued.length + 1)).tidyWakes

/-! ### The thermal law (R564, R566, R572) -/

def Chip.thrStart (c : Chip) : Nat := (c.page pgTHERM).fld 0x140 6 0
def Chip.holdTemp (c : Chip) : Nat := (c.page pgTHERM).fld 0x144 6 0
def Chip.resumeTemp (c : Chip) : Nat := (c.page pgTHERM).fld 0x148 6 0
def Chip.hyst (c : Chip) : Nat := (c.page pgTHERM).fld 0x150 2 0

/-- The ceiling function c(T) of R564 for a target in mV and a temperature in quarter degrees. -/
def ceilingOf (start target : Nat) (t : Int) : Nat :=
  let f := asr t 2
  if f < (start : Int) then 900 else max 550 (target - 10 * (f - (start : Int)).toNat)

/-- The pastures of die `d` no longer have a THERMAL_HOLD from any die (R566). -/
def Chip.endThermal (c : Chip) (d : Nat) : Chip :=
  (c.dieSet d).foldl (fun c p =>
    let x := c.past p
    if (upto 4).any (fun k => x.touchesDie k && (c.die k).thermal == .hold) then c
    else
      let c := c.updPast p (fun x => { x with thermal := false
                                              pendingFault := if x.pendingFault = some (BitVec.ofNat 8 stTHERMAL_HOLD) then none else x.pendingFault })
      if x.thermal then c.resume p else c) c

/-- One die's sample: ceiling, thermal state and step (R564–R566). `ts` holds its valid base readings. -/
def Chip.sampleDie (c : Chip) (d : Nat) (ts : List Int) : Chip :=
  let r := c.die d
  if r.state = .tripped || r.state = .dead then c.putDie d { r with temp := ts.max? }
  else
    let td := ts.max?
    let c := c.putDie d { r with temp := td }
    let ceil :=
      if ts.length < 2 then 550
      else match td with
        | none => r.ceiling
        | some t =>
          let lo := ceilingOf c.thrStart r.target t
          let hi := ceilingOf c.thrStart r.target (t + 4 * (c.hyst : Int))
          if lo < r.ceiling then lo else if r.ceiling < hi then hi else r.ceiling
    let c := if ceil = r.ceiling then c
      else ((c.updDie d (fun r => { r with ceiling := ceil })).count pgTHERM 0x180 1).raise pgTHERM 0
    match td with
    | none => c.dueStep d
    | some t =>
      if 460 ≤ t && r.state = .on then c.trip d
      else if (4 * c.holdTemp : Int) ≤ t then
        let c := if r.thermal = .hold then c
          else
            let c := ((c.updDie d (fun r => { r with thermal := .hold })).count pgTHERM 0x184 1).raise pgTHERM 1
            (c.dieSet d).foldl (fun c p => c.faultHoldPast p stTHERMAL_HOLD) c
        c.dueStep d
      else
        let calm := if ceil < 900 then Thermal.throttle else .normal
        let c := if r.thermal = .hold then
            (if t < (4 * c.resumeTemp : Int) then (c.updDie d (fun r => { r with thermal := calm })).endThermal d else c)
          else c.updDie d (fun r => { r with thermal := calm })
        c.dueStep d

/-- The temperature of a reading, in quarter degrees. -/
def sensorQuarter (s : SensorReading) : Int := sext 12 s.temp.toNat

/-- A sensor register (R576, R578). -/
def sensorWord (s : SensorReading) : Nat := s.temp.toNat + b2n s.valid * 2 ^ 15

/-- THROTTLE_SAMPLE with the readings of base sensors 0–15 and of compute-die sensors 16 + 4·d + i. -/
def Chip.throttleSample (c : Chip) (s : List SensorReading) : Chip :=
  let z : SensorReading := { temp := 0, valid := false }
  let c := (upto 16).foldl (fun c i => c.updPage pgTHERM (fun p => p.wr (0x100 + 4 * i) (sensorWord (nth z s i)))) c
  let c := (upto 16).foldl (fun c i => c.updPage (pgDIE + i / 4) (fun p => p.wr (0x120 + 4 * (i % 4)) (sensorWord (nth z s (16 + i))))) c
  let c := if (s.take 16).all (fun r => r.valid) then c else c.raise pgTHERM 3
  (upto 4).foldl (fun c d => c.sampleDie d (((slice s (4 * d) 4).filter (fun r => r.valid)).map sensorQuarter)) c

/-! ### The power cap (R594) -/

/-- The first die, from `i` of 4, that beats every other under `f`: the largest value, the lower number on a tie. -/
def bestDie (f : Nat → Nat) : Nat :=
  (upto 4).foldl (fun b d => if f b < f d then d else b) 0

/-- POWER_CAP_SAMPLE with the measured die powers in mW. -/
def Chip.powerSample (c : Chip) (mw : List Nat) : Chip :=
  let c := (upto 4).foldl (fun c d => c.updDie d (fun r => { r with power := nth 0 mw d })) c
  let p := mw.sum
  let c := c.updPage pgPOWER (fun pg => pg.wr 0x124 (min p (2 ^ 19 - 1)))
  let cap := (c.page pgPOWER).fld 0x120 8 0
  if cap = 0 then c
  else if 1000 * cap < p then
    let d := bestDie (fun d => (c.die d).power)
    let v := (c.die d).capVolt
    if v ≤ 550 then c
    else (((c.updDie d (fun r => { r with capVolt := max 550 (v - 10) })).count pgPOWER 0x150 1).raise pgPOWER 3).dueStep d
  else if 10 * p < 9 * 1000 * cap then
    let d := bestDie (fun d => 1000 - (c.die d).capVolt)
    let v := (c.die d).capVolt
    if 900 ≤ v then c
    else ((c.updDie d (fun r => { r with capVolt := min 900 (v + 10) })).count pgPOWER 0x150 1).dueStep d
  else c

end Sys2Proof.Machine
end

