-- ==== Sys2Proof/Machine/Image.lean ====
section
/-! DEFINITION. Pasture images: header, sections and their entries, and the checks that LOAD, PAGE_IN, RESTORE and
REPLAY_CHECK make before any tile is taken (R66, R157, R300, R309, R315, R452–R457, R686–R688, R842). -/

namespace Sys2Proof.Machine

/-- An image: the header fields of R452 and its sections. -/
structure Img where
  type : Nat
  kind : Nat
  owner : Nat
  flags : Nat
  stall : Nat
  sliceRounds : Nat
  seed : Nat
  round : Nat
  packages : Nat
  length : Nat
  nvFirst : Nat
  nvPages : Nat
  sections : List Sect
  deriving DecidableEq, Repr

/-- The number cut into `n`-byte little-endian fields, `k` of them. -/
def fields (n : Nat) : Nat → List Byte → List Nat
  | 0, _ => []
  | k + 1, l => leAt l 0 n :: fields n k (l.drop n)

/-- The next multiple of 8. -/
def pad8 (n : Nat) : Nat := (n + 7) / 8 * 8

/-! ### Entries (R454, R455) -/

/-- A TILES entry. -/
structure TileEnt where
  tile : Nat
  core : Bool
  fold : Nat
  lapMax : Nat
  deriving DecidableEq, Repr

def TileEnt.of (w : Nat) : TileEnt :=
  { tile := bits w 7 0, core := bit w 8, fold := bits w 16 9, lapMax := bits w 28 17 + 1 }

/-- A SLOT entry: the drove entries of the six lists in the order N, E, S, W, L, V. -/
structure SlotEnt where
  tile : Nat
  mask : Nat
  exitX : Nat
  exitY : Nat
  lists : List (List Nat)
  deriving DecidableEq, Repr

/-- The lengths of the six lists in words 3–5 of a slot header. -/
def slotLens (l : List Byte) : List Nat :=
  (upto 6).map (fun i => let w := leAt l (12 + 4 * (i / 2)) 4; if i % 2 = 0 then bits w 11 0 else bits w 27 16)

/-- A list cut into pieces of given lengths. -/
def pieces {α : Type} : List Nat → List α → List (List α)
  | [], _ => []
  | n :: ns, l => l.take n :: pieces ns (l.drop n)

/-- `n` SLOT entries and the bytes they span; the last answer is false when the section is too short or a reserved bit
is not 0. -/
def slotEnts : Nat → List Byte → List SlotEnt × Nat × Bool
  | 0, _ => ([], 0, true)
  | n + 1, l =>
    let lens := slotLens l
    let used := pad8 (24 + 4 * lens.sum)
    let w (i : Nat) : Nat := leAt l (4 * i) 4
    let clean := bits (w 0) 31 8 = 0 && bits (w 1) 31 30 = 0 && bits (w 2) 31 8 = 0
      && (upto 3).all (fun i => bits (w (3 + i)) 15 12 == 0 && bits (w (3 + i)) 31 28 == 0)
    let e : SlotEnt := { tile := bits (w 0) 7 0, mask := w 1, exitX := bits (w 2) 3 0, exitY := bits (w 2) 7 4
                         lists := pieces lens (fields 4 lens.sum (l.drop 24)) }
    let r := slotEnts n (l.drop used)
    (e :: r.1, used + r.2.1, clean && 24 + 4 * lens.sum ≤ l.length && r.2.2)

/-- A BANK entry. -/
structure BankEnt where
  tile : Nat
  off : Nat
  bytes : List Byte
  deriving DecidableEq, Repr

/-- `n` BANK entries, the bytes they span, and whether their shape is right. -/
def bankEnts : Nat → List Byte → List BankEnt × Nat × Bool
  | 0, _ => ([], 0, true)
  | n + 1, l =>
    let len := leAt l 8 4
    let w0 := leAt l 0 4
    let w1 := leAt l 4 4
    let used := 16 + pad8 len
    let e : BankEnt := { tile := bits w0 7 0, off := bits w1 19 0, bytes := slice l 16 len }
    let r := bankEnts n (l.drop used)
    (e :: r.1, used + r.2.1,
      bits w0 31 8 = 0 && bits w1 31 20 = 0 && len % 8 = 0 && bits w1 19 0 % 8 = 0 && leAt l 12 4 = 0
        && 16 + len ≤ l.length && r.2.2)

/-- A STATE record (R842). -/
structure StateRec where
  type : Nat
  tile : Nat
  body : List Byte
  deriving DecidableEq, Repr

/-- The records of a STATE section with `n` entries, and whether none extends past the section. -/
def stateRecs : Nat → List Byte → List StateRec × Bool
  | 0, l => ([], l.length < 8)
  | n + 1, l =>
    let len := leAt l 4 4
    let r := stateRecs n (l.drop (8 + pad8 len))
    ({ type := leAt l 0 2, tile := leAt l 2 1, body := slice l 8 len } :: r.1, 8 + pad8 len ≤ l.length && r.2)

/-! ### Sections -/

/-- The sections of one type for one image die; die 0xFF for the pasture-wide ones. -/
def Img.of (m : Img) (type pkg die : Nat) : List Sect :=
  m.sections.filter (fun s => s.type.toNat == type && s.imgPkg.toNat == pkg && s.imgDie.toNat == die)

/-- The sections of one type. -/
def Img.all (m : Img) (type : Nat) : List Sect := m.sections.filter (fun s => s.type.toNat == type)

/-- The TILES entries of an image die. -/
def Img.tilesOf (m : Img) (pkg die : Nat) : List TileEnt :=
  (m.of 1 pkg die).flatMap (fun s => (fields 4 s.count.toNat s.bytes).map TileEnt.of)

/-- The SLOT entries of an image die. -/
def Img.slotsOf (m : Img) (pkg die : Nat) : List SlotEnt :=
  (m.of 3 pkg die).flatMap (fun s => (slotEnts s.count.toNat s.bytes).1)

/-- The BANK entries of an image die. -/
def Img.banksOf (m : Img) (pkg die : Nat) : List BankEnt :=
  (m.of 4 pkg die).flatMap (fun s => (bankEnts s.count.toNat s.bytes).1)

/-- The REGS entries of an image die, as tile, offset and value. -/
def Img.regsOf (m : Img) (pkg die : Nat) : List (Nat × Nat × Nat) :=
  (m.of 5 pkg die).flatMap (fun s => (fields 8 s.count.toNat s.bytes).map (fun w => (bits w 7 0, bits w 19 8, bits w 63 32)))

/-- The EGRESS entries of an image die, as their two words. -/
def Img.egressOf (m : Img) (pkg die : Nat) : List (Nat × Nat) :=
  (m.of 8 pkg die).flatMap (fun s => (fields 8 s.count.toNat s.bytes).map (fun w => (bits w 31 0, bits w 63 32)))

/-- The STATE records of an image die, or of the whole pasture at die 0xFF. -/
def Img.stateOf (m : Img) (pkg die : Nat) : List StateRec :=
  (m.of 11 pkg die).flatMap (fun s => (stateRecs s.count.toNat s.bytes).1)

/-- The peers, the package offsets and the sync objects. -/
def Img.peers (m : Img) : List Nat := (m.all 6).flatMap (fun s => fields 2 s.count.toNat s.bytes)
def Img.pkgOffsets (m : Img) : List Nat := (m.all 2).flatMap (fun s => fields 4 s.count.toNat s.bytes)
def Img.syncs (m : Img) : List Nat := (m.all 10).flatMap (fun s => fields 8 s.count.toNat s.bytes)

/-- A 32-byte stream record with the map entries of its section (R686, R687). -/
def streamOf (l map : List Byte) : StreamRec :=
  let b (i : Nat) : Nat := leAt l i 1
  { port := bits (b 0) 2 0, vc := bits (b 0) 4 3, encoder := bits (b 1) 1 0 = 1, adrMode := bit (b 1) 2, ipkg := b 2
    width := leAt l 4 2, height := leAt l 6 2, patchW := b 8, patchH := b 9, polStride := bits (leAt l 10 2) 11 0
    shift := bits (b 12) 4 0, thrOn := b 13, thrOff := b 14, fifoKib := b 15, mapFirst := leAt l 16 2
    mapCount := leAt l 18 2
    entries := (fields 4 (leAt l 18 2) (map.drop (4 * leAt l 16 2))).map (fun w => BitVec.ofNat 32 w) }

/-- The streams of the image in index order. -/
def Img.streams (m : Img) : List StreamRec :=
  (m.all 7).flatMap (fun s => (upto s.count.toNat).map (fun i => streamOf (slice s.bytes (32 * i) 32) (s.bytes.drop (32 * s.count.toNat))))

/-- The ladder that the LADDER section gives (assumption 19): ladder index in [5:0], ROOT in [17] and FREE in [18] of word
0; LADDER_CFG and KICK_CFG in words 1 and 2; word 3 is 0; then one RUNG_INFO word per rung. -/
structure LadderEnt where
  index : Nat
  root : Bool
  free : Bool
  colours : Nat
  exchSweeps : Nat
  kickBase : Nat
  kick : Nat
  rungs : List (Nat × Nat)
  deriving DecidableEq, Repr

def Img.ladder (m : Img) : Option LadderEnt :=
  match m.all 9 with
  | s :: _ =>
    let w (i : Nat) : Nat := leAt s.bytes (4 * i) 4
    some { index := bits (w 0) 5 0, root := bit (w 0) 17, free := bit (w 0) 18, colours := bits (w 1) 10 8
           exchSweeps := bits (w 1) 31 16, kickBase := bits (w 2) 11 0, kick := bits (w 2) 27 16
           rungs := (fields 4 (bits (w 1) 7 0) (s.bytes.drop 16)).map (fun r => (bits r 15 0, bits r 22 16)) }
  | [] => none

/-- The entry of image tile `t` of an image die. -/
def Img.tile (m : Img) (pkg die t : Nat) : Option TileEnt := (m.tilesOf pkg die).find? (fun e => e.tile == t)

/-- Image dies with tiles, as (package, die), rising. -/
def Img.dies (m : Img) : List (Nat × Nat) :=
  (upto m.packages).flatMap (fun p => ((upto 4).filter (fun d => !(m.tilesOf p d).isEmpty)).map (fun d => (p, d)))

/-- The value that REGS gives register `off` of an image tile. -/
def Img.reg (m : Img) (pkg die t off : Nat) : Nat :=
  (((m.regsOf pkg die).filter (fun r => r.1 == t && r.2.1 == off)).getLast?.map (fun r => r.2.2)).getD 0

/-- Byte `a` of the bank that the image gives an image tile. -/
def bankByte (l : List BankEnt) (t a : Nat) : Byte :=
  match l.find? (fun e => e.tile == t && e.off ≤ a && a < e.off + e.bytes.length) with
  | some e => nth 0 e.bytes (a - e.off)
  | none => 0

/-- Word of `n` bytes at `a` of that bank. -/
def bankLe (l : List BankEnt) (t a n : Nat) : Nat := leNat ((upto n).map (fun i => bankByte l t (a + i)))

/-! ### Reading an image -/

/-- A directory entry: type, image package, image die, count, offset, length. -/
def dirEntry (l : List Byte) : Nat × Nat × Nat × Nat × Nat × Nat :=
  (leAt l 0 2, leAt l 2 1, leAt l 3 1, leAt l 4 4, leAt l 8 4, leAt l 12 4)

/-- The directory. -/
def dirEntries : Nat → List Byte → List (Nat × Nat × Nat × Nat × Nat × Nat)
  | 0, _ => []
  | n + 1, l => dirEntry l :: dirEntries n (l.drop 16)

/-- The header and sections of the bytes of an image, whatever they hold. -/
def Img.read (l : List Byte) : Img :=
  { type := leAt l 6 1, kind := leAt l 7 1 % 4, owner := leAt l 8 2, flags := leAt l 10 2, stall := leAt l 12 2
    sliceRounds := leAt l 14 2, seed := leAt l 16 8, round := leAt l 24 4, packages := leAt l 28 2, length := leAt l 32 4
    nvFirst := leAt l 36 4, nvPages := leAt l 40 4
    sections := (dirEntries (min 4096 (leAt l 30 2)) (l.drop 64)).map (fun e =>
      { type := BitVec.ofNat 16 e.1, imgPkg := BitVec.ofNat 8 e.2.1, imgDie := BitVec.ofNat 8 e.2.2.1
        count := BitVec.ofNat 32 e.2.2.2.1, bytes := slice l e.2.2.2.2.1 e.2.2.2.2.2 }) }

/-- The image's CRC-32C with the CRC field taken as 0 (R452). -/
def imgCrc (l : List Byte) : Nat := crc32c (l.take 60 ++ [0, 0, 0, 0] ++ l.drop 64)

/-- FLAGS of an image. -/
def flSHIFTABLE := 0
def flSLICEABLE := 1
def flLEARN := 2
def flFLOCK := 3
def flNV := 4

/-- No element of the list has an equal later. -/
def distinct {α : Type} [DecidableEq α] : List α → Bool
  | [] => true
  | a :: l => !(l.any (fun b => decide (b = a))) && distinct l

/-- The header and directory keep R452 and R453; `avail` bytes were named by the command. -/
def headerOk (l : List Byte) (avail type : Nat) : Bool :=
  let m := Img.read l
  let n := leAt l 30 2
  let dir := dirEntries (min 4096 n) (l.drop 64)
  leAt l 0 4 = 0x4C4B5031 && leAt l 4 2 = 1 && m.type = type && leAt l 7 1 < 3 && m.owner < 1024
    && (type != 0 || m.owner = 0) && m.flags < 32 && m.stall ≤ 10000 && 1 ≤ m.packages && m.packages ≤ 256
    && 1 ≤ n && n ≤ 4096 && m.length % 8 = 0 && 64 + 16 * n ≤ m.length && m.length ≤ avail
    && (bit m.flags flNV || m.nvPages = 0) && leAt l 44 16 % 2 ^ 128 = 0 && leAt l 60 4 = imgCrc (l.take m.length)
    && dir.all (fun e => 1 ≤ e.1 && e.1 ≤ 11 && (e.1 != 11 || type != 0) && e.2.1 < m.packages
        && (if e.1 = 1 || e.1 = 3 || e.1 = 4 || e.1 = 5 || e.1 = 8 then e.2.2.1 < 4
            else if e.1 = 11 then e.2.2.1 < 4 || e.2.2.1 = 255 else e.2.2.1 = 255)
        && e.2.2.2.2.1 % 8 = 0 && 64 + 16 * n ≤ e.2.2.2.2.1 && e.2.2.2.2.1 + e.2.2.2.2.2 ≤ m.length)
    && (upto dir.length).all (fun i => (upto i).all (fun j =>
        let a := nth (0, 0, 0, 0, 0, 0) dir i
        let b := nth (0, 0, 0, 0, 0, 0) dir j
        a.2.2.2.2.1 + a.2.2.2.2.2 ≤ b.2.2.2.2.1 || b.2.2.2.2.1 + b.2.2.2.2.2 ≤ a.2.2.2.2.1
          || a.2.2.2.2.2 = 0 || b.2.2.2.2.2 = 0))

/-- The entries of a section span its length, padded to 8 at most. -/
def spanOk (used : Nat) (s : Sect) : Bool := used ≤ s.bytes.length && s.bytes.length ≤ pad8 used

/-- A section's own shape (R454–R456, R662). -/
def sectOk (s : Sect) : Bool :=
  let n := s.count.toNat
  match s.type.toNat with
  | 1 => spanOk (4 * n) s && (fields 4 n s.bytes).all (fun w => bits w 31 29 == 0 && bits w 16 9 ≤ 128)
  | 2 => spanOk (4 * n) s && (fields 4 n s.bytes).all (fun w => bits w 31 24 == 0) && leAt s.bytes 0 4 = 0
  | 3 => let r := slotEnts n s.bytes; r.2.2 && spanOk r.2.1 s
  | 4 => let r := bankEnts n s.bytes; r.2.2 && spanOk r.2.1 s
  | 5 => spanOk (8 * n) s && (fields 8 n s.bytes).all (fun w => bits w 31 20 == 0)
  | 6 => spanOk (2 * n) s && (fields 2 n s.bytes).all (fun w => bits w 15 10 == 0)
  | 7 => 32 * n ≤ s.bytes.length && n ≤ 32
  | 8 => spanOk (8 * n) s && (fields 8 n s.bytes).all (fun w => bits w 33 32 < 3 && (bits w 33 32 != 1 || bits w 63 40 == 0))
  | 9 => n = 1 && spanOk (16 + 4 * bits (leAt s.bytes 4 4) 7 0) s && leAt s.bytes 12 4 = 0
  | 10 => spanOk (8 * n) s && (fields 8 n s.bytes).all (fun w => bits w 15 14 == 0 && bits w 31 18 == 0)
  | _ => (stateRecs n s.bytes).2 && (stateRecs n s.bytes).1.all (fun r =>
      1 ≤ r.type && r.type ≤ 7
        && (if r.type = 2 || r.type = 3 then s.imgDie.toNat != 255 else s.imgDie.toNat = 255 && r.tile = 0))

/-! ### Drove lists (R66, R157) -/

/-- A tile has port `p` of N, E, S, W, L, V: no mesh edge, V at port tiles alone. -/
def hasPort (t p : Nat) : Bool :=
  if p = 5 then tileKind t = .port else if p = 4 then true else (neighbour t p).isSome

/-- A drove list on output `o` of a tile keeps R66 and R157. -/
def listOk (t o : Nat) (ws : List Nat) : Bool :=
  if ws.isEmpty then true
  else
    let es := ws.map Drove.of
    let marks := (es.filter (fun e => e.lapMark)).length
    let pre := (es.takeWhile (fun e => !e.lapMark)).length
    (if o = 4 then tileKind t != .port else hasPort t o) && marks = 1
      && (upto es.length).all (fun i =>
        let e := nth (Drove.of 0) es i
        let lap := pre ≤ i
        bits (nth 0 ws i) 24 16 == 0 && e.input < 6 && hasPort t e.input
          && e.isEnd == (i + 1 == es.length)
          && (e.input != 4 || e.closeOnCount)
          && (!e.closeOnCount || e.max != 0 || (lap && e.input == 4))
          && (!lap || e.max == 0) && (!lap || e.closeOnCount == (e.input == 4)))

/-! ### Round chains, spin breeds, ladders (R300, R309, R315, R338) -/

/-- Descriptor `i` of the bank that the image gives a tensor tile. -/
def imgDesc (l : List BankEnt) (t i : Nat) : Desc :=
  Desc.of ((upto 16).map (fun j => bankLe l t (offDesc + 64 * i + 4 * j) 4))

/-- The descriptors of the round chain from `i`. -/
def imgChain (l : List BankEnt) (t : Nat) : Nat → Nat → List (Nat × Desc)
  | 0, _ => []
  | f + 1, i =>
    let d := imgDesc l t i
    if d.last || i = 63 then [(i, d)] else (i, d) :: imgChain l t f (i + 1)

/-- The round chain of a tensor tile keeps R300, and R315 in a pasture of kind ANNEAL. -/
def chainOk (m : Img) (pkg die : Nat) (e : TileEnt) : Bool :=
  let l := m.banksOf pkg die
  let r (off : Nat) : Nat := m.reg pkg die e.tile off
  let area := offDesc - 1024 * e.fold
  let rd := r 0x104
  if !bit rd 8 then true
  else
    let ds := imgChain l e.tile 64 (rd % 64)
    let size := min (r 0x10C) (r 0x114)
    size != 0 && r 0x108 % 64 = 0 && r 0x110 % 64 = 0 && r 0x108 + r 0x10C ≤ area && r 0x110 + r 0x114 ≤ area
      && ds.all (fun d => d.2.legal true size area && (d.2.last || d.1 != 63)
        && (m.kind != 1 || (d.2.inFmt = 1 && d.2.outMode = 2 && !d.2.biasEn && !d.2.relu && !d.2.emitZero
          && d.2.scale = 1 && d.2.shift = 0)))

/-- The spin breeds of an anneal core keep R309. -/
def breedsOk (m : Img) (kick : Nat) (pkg die : Nat) (e : TileEnt) : Bool :=
  let l := m.banksOf pkg die
  let cfg := m.reg pkg die e.tile 0x300
  !bit cfg 0 || (upto (bits cfg 3 1)).all (fun b =>
    let w (i : Nat) : Nat := bankLe l e.tile (offParams + 32 * b + 8 * i) 8
    let br := Breed.of (w 0) (w 1) (w 2) (w 3)
    br.kind == bSTOCHASTIC && !br.resetMode && br.inShift == 0 && br.refractory == 0 && br.decayV == 1
      && br.threshold == (kick : Int) && br.vReset == 0 && br.vMin == -32768 && br.bias == 0 && br.noiseAmp == 0
      && !br.traceEn)

/-- Temperature words rise strictly and none is 0 (R307, R338). -/
def wordsRise : Nat → List Nat → Bool
  | _, [] => true
  | a, b :: l => a < b && wordsRise b l

/-- The ladder's parameters are legal (R307, R308, R331). -/
def LadderEnt.ok (l : LadderEnt) : Bool :=
  2 ≤ l.rungs.length && l.rungs.length ≤ 128 && 2 ≤ l.colours && l.colours ≤ 5 && 1 ≤ l.exchSweeps
    && wordsRise 0 (l.rungs.map (fun r => r.1)) && distinct (l.rungs.map (fun r => r.2))
    && l.rungs.all (fun r => r.2 < l.rungs.length)

/-! ### Whole-image checks (R456, R457, R688) -/

/-- The bits that a REGS register of a tile kind holds; none where REGS may not name it (R456). -/
def regsMask (k : TileKind) (off : Nat) : Option Nat :=
  match k with
  | .neuron =>
    if off = 0x200 then some 0x00FFF003 else if off = 0x204 || off = 0x208 then some 0xFFFFFFFF
    else if off = 0x300 then some 0x3FFFF else if off = 0x304 || off = 0x308 then some 0x7FFFFF
    else if off = 0x30C then some 0x3FFFF else if off = 0x310 || off = 0x314 then some 0xFFFFF
    else if off = 0x318 then some 0x1FFFFFF else none
  | .tensor =>
    if off = 0x104 then some 0x13F else if off = 0x108 || off = 0x10C || off = 0x110 || off = 0x114 then some 0xFFFFF
    else none
  | .port => none

/-- One image die keeps the rules. -/
def dieOk (m : Img) (kick pkg die : Nat) : Bool :=
  let ts := m.tilesOf pkg die
  let core (t : Nat) : Bool := ts.any (fun e => e.tile == t && e.core)
  let has (t : Nat) : Bool := ts.any (fun e => e.tile == t)
  let slots := m.slotsOf pkg die
  distinct (ts.map (fun e => e.tile))
    && ts.all (fun e => !e.core || (tileKind e.tile != .port && (m.kind != 0 || tileKind e.tile == .neuron)))
    && distinct (slots.map (fun s => s.tile))
    && slots.all (fun s => has s.tile && (upto 6).all (fun o => listOk s.tile o (nth [] s.lists o)))
    && (m.banksOf pkg die).all (fun b => core b.tile &&
        b.off + b.bytes.length ≤ (if tileKind b.tile = .tensor then 2 ^ 20 else 2 ^ 19))
    && (m.regsOf pkg die).all (fun r => core r.1 &&
        (match regsMask (tileKind r.1) r.2.1 with | some k => r.2.2 &&& k == r.2.2 | none => false))
    && distinct ((m.egressOf pkg die).map (fun e => bits e.1 19 0))
    && (m.egressOf pkg die).all (fun e => has (bits e.1 7 0) && tileKind (bits e.1 7 0) == .port)
    && ts.all (fun e => !e.core || (if tileKind e.tile = .tensor then chainOk m pkg die e else
        (m.kind != 1 || breedsOk m kick pkg die e)))
    && (m.stateOf pkg die).all (fun r => core r.tile &&
        (if r.type = 2 then tileKind r.tile == .neuron else tileKind r.tile == .tensor))

/-- A stream record keeps R688 but for what depends on the other streams of the package. -/
def streamOk (m : Img) (total : Nat) (l : List Byte) (r : StreamRec) : Bool :=
  let b (i : Nat) : Nat := leAt l i 1
  bits (b 0) 7 5 = 0 && r.port < 6 && bits (b 1) 1 0 < 2 && bits (b 1) 7 3 = 0 && b 3 = 0
    && bits (leAt l 10 2) 15 12 = 0 && bits (b 12) 7 5 = 0 && leAt l 20 12 = 0
    && 1 ≤ r.width && r.width ≤ 4096 && 1 ≤ r.height && r.height ≤ 4096 && 1 ≤ r.patchW && r.patchW ≤ 64
    && 1 ≤ r.patchH && r.patchH ≤ 64 && r.shift ≤ 12 && 1 ≤ r.thrOn && 1 ≤ r.thrOff && 1 ≤ r.fifoKib
    && 1 ≤ r.mapCount && r.mapCount ≤ 4096 && r.mapFirst + r.mapCount ≤ total
    && (!r.encoder || r.width * r.height ≤ 196608) && !(r.encoder && r.adrMode) && (r.port < 4 || (r.adrMode && !r.encoder && r.vc = 0)) && r.ipkg < m.packages
    && (r.adrMode || ceilDiv r.width r.patchW * ceilDiv r.height r.patchH ≤ r.mapCount)
    && r.entries.all (fun w =>
      let v := w.toNat
      bits v 30 26 = 0 && (!bit v 31 ||
        ((match m.tile r.ipkg (bits v 9 8) (bits v 7 0) with | some e => e.core | none => false)
          && (match m.tile r.ipkg (bits v 9 8) (portTile (bits v 13 10)) with | some e => !e.core | none => false)
          && (if r.adrMode then bits v 25 14 + 2 ^ r.shift - 1 ≤ 4095
              else bits v 25 14 + r.polStride + r.patchW * r.patchH - 1 ≤ 4095))))

/-- The streams of an image keep R688. -/
def streamsOk (m : Img) : Bool :=
  (m.all 7).length ≤ 1 && (m.all 7).all (fun s =>
    let n := s.count.toNat
    let total := (s.bytes.length - 32 * n) / 4
    (upto n).all (fun i => streamOk m total (slice s.bytes (32 * i) 32) (streamOf (slice s.bytes (32 * i) 32) (s.bytes.drop (32 * n))))
      && distinct (m.streams.map (fun r => (r.port, r.vc))))

/-- An image of `type` read from `l` keeps every rule of its format (R457). -/
def imgOk (l : List Byte) (avail type : Nat) : Bool :=
  headerOk l avail type &&
    (let m := Img.read l
     let kick := match m.ladder with | some e => e.kick | none => 0
     m.sections.all sectOk && (m.all 2).length ≤ 1 && (m.packages = 1 || (m.pkgOffsets).length = m.packages)
       && ((m.all 2).isEmpty || m.pkgOffsets.length = m.packages) && m.peers.length ≤ 16
       && distinct (m.syncs.map (fun w => bits w 13 0))
       && m.syncs.all (fun w => let t := bits w 17 16; let v := bits w 63 32
           (t != 2 || (1 ≤ v && v ≤ 32767)) && (t != 3 || v ≤ 1) && (t != 0 || v = 0))
       && (upto m.packages).all (fun p => (upto 4).all (fun d => dieOk m kick p d))
       && streamsOk m && (m.all 9).length ≤ 1
       && (match m.ladder with | some e => m.kind = 1 && e.ok | none => true)
       && (type = 0 || (m.sections.any (fun s => s.type.toNat == 11 && s.imgDie.toNat == 255
            && (stateRecs s.count.toNat s.bytes).1.any (fun r => r.type == 1)))))

end Sys2Proof.Machine
end

