-- ==== Sys2Proof/Machine/Tiles.lean ====
section
/-! DEFINITION. Clearing a tile, what a tile does with the control messages it receives, and tile orders with their local
counters (R138, R139, R150–R155, R292, R480, R490, R637, R833, R852). -/

namespace Sys2Proof.Machine

/-! ### Slots and clearing (R480) -/

/-- The drove entries of a slot written as 0. -/
def zeroLists (m : Map Flit) (s : Slot) : Map Flit :=
  mapDrop (fun i => s.lists.any (fun l => l.base ≤ i && i < l.base + l.len)) m

/-- The slots that `f` names are invalidated: their drove entries are 0, their outputs stop, and what their inputs and
the V side still hold for them is gone. -/
def Tile.dropSlots (f : Slot → Bool) (t : Tile) : Tile :=
  let gone := t.rt.slots.filter (fun s => s.valid && f s)
  let ins := gone.foldl (fun (b : BitVec 6) s => b ||| s.bindIn) 0
  { t with
    egress := t.egress.filter (fun e => !(gone.any (fun s => some s.pasture == e.2.owner)))
    rt := { t.rt with
      drove := gone.foldl zeroLists t.rt.drove
      inputs := (upto 5).map (fun i => if ins.getLsbD (if i = 4 then 5 else i) then [] else nth [] t.rt.inputs i)
      outs := t.rt.outs.map (fun (o : OutPos) => match o.slot with
        | some i => let s := nth Slot.empty t.rt.slots i.val; if s.valid && f s then OutPos.idle else o
        | none => o)
      vfeed := { t.rt.vfeed with events := t.rt.vfeed.events.filter (fun e => !(gone.any (fun s => s.pasture == e.1))) }
      slots := t.rt.slots.map (fun s => if s.valid && f s then Slot.empty else s) } }

/-- The loaded registers of a core page return to their reset values (R480). -/
def Page.clearCore (p : Page) : Page :=
  { p with regs := mapDrop (fun o =>
      if p.code = codeNCORE then (0x104 ≤ o && o ≤ 0x110) || (0x200 ≤ o && o ≤ 0x3FF)
      else (0x104 ≤ o && o ≤ 0x120) || 0x380 ≤ o) p.regs }

/-- A core tile's bank, delay banks, queues and loaded registers at zero. -/
def Tile.wipe (t : Tile) : Tile :=
  let t := t.putBank t.bankCtx.init
  { t with nc := NeuronCore.init, tc := { chain := none }, pCore := t.pCore.clearCore, digest := 0xFFFFFFFF
           orders := { lsync := List.replicate 16 0, current := none }
           q := { TileQueues.init with high := t.q.high, outwait := t.q.outwait } }

/-! ### Tile orders (R152–R154) -/

/-- Bytes off … off + n − 1 of an order. -/
def ordBytes (ws : List W64) (off n : Nat) : Nat := leAt (wordBytes ws) off n

def ordTop (ws : List W64) : Nat := ordBytes ws 0 1
def ordArg (ws : List W64) : Nat := ordBytes ws 2 2

/-- The tests of R833 that apply to the core, router and bank of a tile kind. -/
def testsOf : TileKind → Nat
  | .neuron => 7
  | .tensor => 23
  | .port => 0

/-- An order that ends with BAD_OPERAND when it is taken (R154). -/
def ordBad (k : TileKind) (ws : List W64) : Bool :=
  let top := ordTop ws
  let arg := ordArg ws
  4 < top || ordBytes ws 1 1 != 0 || ordBytes ws 6 2 != 0 || (wordBytes ws).drop 18 != List.replicate 46 0
    || bits (ordBytes ws 4 2) 14 4 != 0 || bits (ordBytes ws 12 4) 15 14 != 0 || bits (ordBytes ws 12 4) 30 24 != 0
    || (if top = 1 then k != .tensor || 64 ≤ arg else if top = 3 then (arg &&& testsOf k) != arg else arg != 0)

/-- The signal of an order that ends (R154). -/
def ordDone (o : TileOrder) : List (List Nat) :=
  let d := ordBytes o.words 12 4
  if bit d 31 then [syncAdd (bits d 23 16) o.origin.toNat (bits d 13 0) (ordBytes o.words 16 2)] else []

/-- The order of tile `k` ends with `st`: TORDER_STATUS, TORDER_COUNT and its signal. -/
def Chip.endOrder (c : Chip) (k : Nat) (o : TileOrder) (st : Nat) : Chip :=
  (c.updTile k (fun t => { t with orders := { t.orders with current := none }
                                  pCore := (t.pCore.wr 0x380 (st + 256 * ordTop o.words)).cntWrap 0x384 1 })).sendAll (ordDone o)

/-- The order that heads the command queue of a tile. -/
def ordOf (l : List W64) : TileOrder := { origin := BitVec.ofNat 4 (Hdr.of (nth 0 l 0).toNat).origin, words := l.drop 1 }

/-- Orders that run or wait on tile `k` end with ABORTED (R480). -/
def Chip.abortOrders (c : Chip) (k : Nat) : Chip :=
  let t := c.tile k
  let c := match t.orders.current with | some o => c.endOrder k o stABORTED | none => c
  let c := t.q.command.foldl (fun c l => c.endOrder k (ordOf l) stABORTED) c
  c.updTile k (fun t => { t with q := { t.q with command := [] } })

/-- A core tile cleared: its orders end, its contents are wiped, its slots named by `f` go; one clearing more (R480). -/
def Chip.clearCore (c : Chip) (k : Nat) (f : Slot → Bool) : Chip :=
  let c := c.abortOrders k
  let c := c.updTile k (fun t => (t.dropSlots f).wipe)
  let c := { c with clearings := mapUpd (fun _ => 0) c.clearings k (· + 1) }
  c.count pgPLACE 0x174 1

/-- A route tile's slot cleared. -/
def Chip.clearRoute (c : Chip) (k : Nat) (f : Slot → Bool) : Chip :=
  (c.updTile k (fun t => t.dropSlots f)).count pgPLACE 0x174 1

/-- The unit of tile `k` that a failed clearing fences: its core and its bank (R490). -/
def Chip.clearFailed (c : Chip) (k : Nat) : Chip :=
  ((c.fenceUnit (coreUnit k)).fenceUnit (bankUnit k)).raise pgPLACE 5

/-- Tile `k` carries live state (R834). -/
def Chip.liveTile (c : Chip) (k : Nat) : Bool :=
  c.liveUnit (coreUnit k) || c.liveUnit (bankUnit k) || c.liveUnit (routerUnit k)

/-- A tensor core that runs no Dense-engine pass (R292): busy, or with an enabled round chain of a resident pasture that
is not HELD. -/
def Chip.denseBarred (c : Chip) (k : Nat) : Bool :=
  (c.tile k).tc.chain.isSome || (bit ((c.tile k).pCore.rd 0x104) 8 &&
    (match c.ownerOf k with | some p => !(c.past p).held | none => false))

/-- The field tests `ran` of tile `k` have run with failures `bad` on its core, router and bank; the tile is cleared again
(R833, R852, R862). -/
def Chip.testTile (c : Chip) (k ran bad : Nat) : Chip :=
  let one (c : Chip) (u mask : Nat) : Chip :=
    if ran &&& mask = 0 then c else c.recordTest u (ran &&& mask) (bad &&& ran &&& mask)
  let c := one (one (one c (coreUnit k) 17) (bankUnit k) 2) (routerUnit k) 4
  if ran &&& 21 = 0 then c else c.clearCore k (fun _ => true)

/-- Router and core registers of tile `k` take their reset values (R637). -/
def Chip.resetTileRegs (c : Chip) (k : Nat) : Chip :=
  c.updTile k (fun t => { t with pRouter := (tileDefault k).pRouter, pCore := (tileDefault k).pCore, rt := (tileDefault k).rt })

/-- What the physical world answers to an order: a failed read-back of CLEAR, failed tests of TEST. -/
structure OrderWorld where
  readBackFails : Bool := false
  fails : Nat := 0

/-- Work done by a core put back: its tile, its messages, and the hold it causes for the tile's pasture. -/
def Chip.putWork (c : Chip) (k : Nat) (w : Work) : Chip :=
  let c := c.putTile k w.t
  match c.ownerOf k with
  | none => c.sendAll w.tx
  | some p =>
    let c := c.sendFrom p w.tx
    let c := if w.hold then c.faultHoldPast p stUNCORRECTED else c
    if w.breach then c.faultHoldPast p stBAD_OPERAND else c

/-- Weight blocks of `n` passes run from descriptor `i` on, each of (K / 32) · ⌈N / 64⌉ blocks (R277, R427). -/
def chainBlocks (t : Tile) (i n : Nat) : Nat → Nat
  | 0 => 0
  | f + 1 =>
    if n = 0 then 0
    else match (Work.desc { t := t } i).2 with
      | none => 0
      | some d =>
        let area := Work.area { t := t }
        let size := t.pCore.fld (0x10C + 8 * d.win) 19 0
        if d.legal false size area then d.k / 32 * ceilDiv d.n 64 + chainBlocks t (i + 1) (n - 1) f else chainBlocks t (i + 1) n f

/-- A chain of the Dense engine on tile `k` runs on; when it ends, so does its order or its part of a PASS (R154, R427). -/
def Chip.chainOn (c : Chip) (k : Nat) (ch : Chain) : Chip :=
  let t := c.tile k
  let sat0 := t.pCore.rd 0x140
  let pos0 := t.pCore.rd 0x134
  let r := runChainFrom 64 ch { t := t }
  let c := c.putWork k { r.1 with hold := false, breach := false }
  let sat := (c.tile k).pCore.rd 0x140 - sat0
  let blocks := chainBlocks t ch.desc.toNat (subMod (2 ^ 32) ((c.tile k).pCore.rd 0x134) pos0) 64
  let c := match ch.entry with
    | some e => c.updEntry e.val (fun x => { x with progress := progressWord 0 (x.progress.toNat % 2 ^ 24 + blocks) })
    | none => c
  let c := c.count pgDENSE 0x108 (subMod (2 ^ 32) ((c.tile k).pCore.rd 0x134) pos0)
  match r.2 with
  | .waits ch => c.updTile k (fun t => { t with tc := { chain := some ch } })
  | .ended st =>
    let c := c.updTile k (fun t => { t with tc := { chain := none } })
    match ch.entry with
    | some e => c.passPart e.val st sat true
    | none => match (c.tile k).orders.current with
      | some o => c.endOrder k o st
      | none => c

/-- The order at tile `k` starts, its wait met (R153, R154). -/
def Chip.runOrder (c : Chip) (k : Nat) (o : TileOrder) (w : OrderWorld) : Chip :=
  let c := c.updTile k (fun t => { t with orders := { t.orders with current := some o } })
  match ordTop o.words with
  | 0 => c.endOrder k o stOK
  | 1 =>
    if c.denseBarred k then c.endOrder k o stBUSY_PASTURE
    else c.chainOn k { desc := BitVec.ofNat 6 (ordArg o.words), waiting := false, entry := none, round := none, status := 0 }
  | 2 =>
    if c.liveTile k then c.endOrder k o stBUSY_PASTURE
    else
      let c := c.updTile k (fun t => { t with orders := { t.orders with current := none } })
      let c := c.clearCore k (fun _ => true)
      if w.readBackFails then (c.clearFailed k).endOrder k o stFENCED else c.endOrder k o stOK
  | 3 =>
    if c.liveTile k then c.endOrder k o stBUSY_PASTURE
    else
      let ran := ordArg o.words
      let c := c.updTile k (fun t => { t with orders := { t.orders with current := none } })
      (c.testTile k ran w.fails).endOrder k o (if w.fails &&& ran = 0 then stOK else stFENCED)
  | _ =>
    if c.liveTile k then c.endOrder k o stBUSY_PASTURE
    else
      let c := c.updTile k (fun t => { t with orders := { t.orders with current := none } })
      ((c.clearCore k (fun _ => true)).resetTileRegs k).endOrder k o stOK

/-- The wait of an order is met: none, or its local counter has reached the value (R154). -/
def ordMet (t : Tile) (o : TileOrder) : Bool :=
  let w := ordBytes o.words 4 2
  !bit w 15 || subMod (2 ^ 32) (nth 0 t.orders.lsync (w % 16)).toNat (ordBytes o.words 8 4) < 2 ^ 31

/-- The core of tile `k` goes on with its orders: a waiting one whose counter has been reached, else the next in the
command queue (R154). -/
def Chip.serveOrders (c : Chip) (k : Nat) (w : OrderWorld) : Nat → Chip
  | 0 => c
  | f + 1 =>
    let t := c.tile k
    if t.tc.chain.isSome then c
    else match t.orders.current with
      | some o => if ordMet t o then (c.runOrder k o w).serveOrders k w f else c
      | none =>
        match t.q.command with
        | [] => c
        | l :: rest =>
          let o := ordOf l
          let c := c.updTile k (fun t => { t with q := { t.q with command := rest } })
          let c := if ordBad (tileKind (k % 256)) o.words then c.endOrder k o stBAD_OPERAND
            else if ordMet t o then c.runOrder k o w
            else c.updTile k (fun t => { t with orders := { t.orders with current := some o } })
          c.serveOrders k w f

/-! ### Control messages at a tile (R108, R138, R151, R152, R469) -/

/-- A message discarded at the router of tile `k` in class `d`. -/
def Chip.tileDiscard (c : Chip) (k : Nat) (d : Discard) (w : Nat) : Chip :=
  c.updTile k (fun t => { t with pRouter := routerDiscard t.pRouter d w })

/-- The message names tile `k` of this package. -/
def Chip.names (c : Chip) (k : Nat) (h : Hdr) : Bool :=
  h.pkg == c.pkg && h.die == k / 256 && tileOf h.x h.y == k % 256

/-- A control message of sender pasture `p` may be delivered to tile `k` (R469): to a tile of its own or of a pasture that
lists it as a peer. -/
def Chip.mayReach (c : Chip) (p : Option Nat) (k : Nat) : Bool :=
  match p with
  | none => true
  | some p => (c.past p).tiles.any (fun t => t.key == k) || (c.touching k).any (fun q => (c.past q).peers.any (fun x => x.val == p))

/-- The message's header keeps R97–R99 for its kind at tile `k`: class well formed, and of a kind the tile takes. -/
def Chip.tileClass (c : Chip) (k : Nat) (h : Hdr) (shape kinds : Bool) (classes : List Nat) : Option Discard :=
  if kindClass h.kind != some h.qclass || 5 ≤ h.origin || !shape then some .malformed
  else if !c.names k h || tileKind (k % 256) = .port || !kinds then some .misaddressed
  else if !classes.contains h.origin then some .unauthorised
  else none

/-- An arrival at a tile wakes its core and router; a core whose bank is OFF takes nothing (R590, R591). -/
def Chip.tileTakes (c : Chip) (k : Nat) : Bool := c.coreServes k && c.routerServes k

/-- A COMMAND with a tile order arrives at tile `k` (R138, R152, R154). -/
def Chip.tileCommand (c : Chip) (k : Nat) (hdr : W64) (ws : List W64) (w : OrderWorld) : Chip :=
  let h := Hdr.of hdr.toNat
  if !c.routerServes k then c
  else match c.tileClass k h true (h.kind = kCOMMAND) [0, 4] with
    | some d => c.tileDiscard k d hdr.toNat
    | none =>
      if !c.coreServes k || 16 ≤ (c.tile k).q.command.length then c
      else
        let c := c.wakeTile k
        let c := c.updTile k (fun t =>
          let q := { t.q with command := t.q.command ++ [hdr :: ws] }
          { t with q := raiseHigh q 4 q.command.length })
        c.serveOrders k w ((c.tile k).q.command.length + 2)

/-- A SYNC arrives at tile `k`: it acts on a local counter (R138, R151, R363). -/
def Chip.tileSync (c : Chip) (k : Nat) (p : Option Nat) (hdr w2 : Nat) : Chip :=
  let h := Hdr.of hdr
  let op := bits w2 17 16
  if !c.routerServes k then c
  else match c.tileClass k h (w2 / 2 ^ 18 = 0 && bits w2 15 14 = 0 && op < 2 && bits w2 13 4 = 0) (h.kind = kSYNC) [0, 4] with
    | some d => c.tileDiscard k d hdr
    | none =>
      if h.origin = 0 && !c.mayReach p k then c.tileDiscard k .fenced hdr
      else if !c.coreServes k then c
      else
        let c := c.wakeTile k
        let i := bits w2 3 0
        let v := sext 16 h.payload
        let c := c.updTile k (fun t =>
          let old := (nth 0 t.orders.lsync i).toNat
          let new : W32 := BitVec.ofNat 32 (if op = 0 then old + unsext 32 v else unsext 32 v)
          { t with orders := { t.orders with lsync := listSet t.orders.lsync i new } })
        c.serveOrders k {} ((c.tile k).q.command.length + 2)

end Sys2Proof.Machine
end

