-- ==== Sys2Proof/Machine/Place.lean ====
section
/-! DEFINITION. Placement: where a pasture may lie, how its tiles are written and freed, stream bindings, NV areas and
ladders (R307, R339, R450–R470, R477, R480, R491, R498, R528–R530, R589, R689, R690). -/

namespace Sys2Proof.Machine

/-! ### Coordinates (R451, R459–R461) -/

/-- A placement map: the physical package of each image package, the image package carried here, and where its image
dies lie. -/
structure PlaceMap where
  pkgs : List Nat
  here : Nat
  dies : List DiePlace
  deriving DecidableEq, Repr

/-- The map of a pasture. -/
def Past.map (x : Past) : PlaceMap :=
  { pkgs := x.pkgMap.map (fun b => b.toNat), here := x.imgPkg.toNat, dies := x.dies }

/-- A tile moved by an offset; none when it leaves the die. -/
def movedTile (t : Nat) (dx dy : Int) : Option Nat :=
  let x := (tileX t : Int) + dx
  let y := (tileY t : Int) + dy
  if 0 ≤ x && x ≤ 15 && 0 ≤ y && y ≤ 15 then some (tileOf x.toNat y.toNat) else none

/-- Physical package, die and tile of an image tile; what the package does not hold, or what would leave the mesh, stays
as it stands. A die of another package is taken to lie where its image has it (assumption 20). -/
def PlaceMap.toPhys (m : PlaceMap) (p d t : Nat) : Nat × Nat × Nat :=
  match m.pkgs[p]? with
  | none => (p, d, t)
  | some q =>
    if p = m.here then
      match m.dies.find? (fun e => e.imgDie.val == d) with
      | none => (q, d, t)
      | some e => match movedTile t e.dx e.dy with | some u => (q, e.die.val, u) | none => (q, e.die.val, t)
    else (q, d, t)

/-- Image package, die and tile of a physical tile. -/
def PlaceMap.toImage (m : PlaceMap) (q d t : Nat) : Nat × Nat × Nat :=
  match (upto m.pkgs.length).find? (fun i => nth 0 m.pkgs i == q) with
  | none => (q, d, t)
  | some p =>
    if p = m.here then
      match m.dies.find? (fun e => e.die.val == d) with
      | none => (p, d, t)
      | some e => match movedTile t (-e.dx) (-e.dy) with | some u => (p, e.imgDie.val, u) | none => (p, e.imgDie.val, t)
    else (p, d, t)

/-- A header with its coordinates translated. -/
def mapHdr (f : Nat → Nat → Nat → Nat × Nat × Nat) (w : Nat) : Nat :=
  let h := Hdr.of w
  let r := f h.pkg h.die (tileOf h.x h.y)
  setBits w 59 42 (r.1 * 2 ^ 10 + r.2.1 * 2 ^ 8 + tileX r.2.2 * 16 + tileY r.2.2)

/-- EXPORT_DEST translated (R342). -/
def mapDest (f : Nat → Nat → Nat → Nat × Nat × Nat) (w : Nat) : Nat :=
  let r := f (bits w 17 10) (bits w 1 0) (tileOf (bits w 5 2) (bits w 9 6))
  r.2.1 + tileX r.2.2 * 4 + tileY r.2.2 * 64 + r.1 * 1024

/-- A tensor output map entry translated (R284). -/
def mapOut (f : Nat → Nat → Nat → Nat × Nat × Nat) (w : Nat) : Nat :=
  let r := f (bits w 29 22) (bits w 21 20) (tileOf (bits w 19 16) (bits w 15 12))
  setBits w 29 12 (r.1 * 2 ^ 10 + r.2.1 * 2 ^ 8 + tileX r.2.2 * 16 + tileY r.2.2)

/-- The addresses of `n` send records from byte offset `a`. -/
def recAddrs (limit : Nat) : Nat → Nat → Work → List Nat
  | 0, _, _ => []
  | n + 1, a, k =>
    if limit < a + 8 then []
    else match (k.read (a / 8)).2 with
      | none => []
      | some w => a :: recAddrs limit n (if (Hdr.of w).kind = kFLOCK then a + 16 else a + 8) k

/-- The addresses of every send record of a neuron core, rising, each once (R220, R221). -/
def sendAddrs (k : Work) : List Nat :=
  let idx := k.bankWords.filter (fun w => offSends / 8 ≤ w && w < offSends / 8 + 2048)
  let ents := idx.flatMap (fun w => match (k.read w).2 with | some d => [bits d 31 0, bits d 63 32] | none => [])
  (ents.flatMap (fun e => recAddrs k.listLimit (bits e 23 16) (8 * bits e 15 0) k)).foldl (fun l a => insertNat a l) []

/-- The addresses of the output map entries of a tensor core's round chain, with bias-free headers left alone. -/
def outAddrs (k : Work) : Nat → Nat → List Nat
  | 0, _ => []
  | f + 1, i =>
    match (k.desc i).2 with
    | none => []
    | some d =>
      (if d.outMode = 2 then (upto d.n).map (fun o => d.outAddr + 4 * o) else [])
        ++ (if d.last || i = 63 then [] else outAddrs k f (i + 1))

/-- A message's words with the header translated. -/
def mapMsg (f : Nat → Nat → Nat → Nat × Nat × Nat) : List Flit → List Flit
  | [] => []
  | h :: l => match (readFlit h).2 with | some w => mkFlit (mapHdr f w) :: l | none => h :: l

/-- The fold's messages, oldest first, as header addresses: a FLOCK spans two words. -/
def foldHeads (k : Work) : Nat → Nat → List Nat
  | 0, _ => []
  | f + 1, i =>
    if k.t.q.foldCount ≤ i then []
    else
      let w := foldWord k.t.q i
      match (k.read w).2 with
      | none => w :: foldHeads k f (i + 1)
      | some h => w :: foldHeads k f (if (Hdr.of h).kind = kFLOCK then i + 2 else i + 1)

/-- Every coordinate that names a tile of the pasture on a core tile translated (R460, R461). -/
def translateTile (f : Nat → Nat → Nat → Nat × Nat × Nat) (t : Tile) : Tile :=
  let k : Work := { t := t }
  let rewrite (k : Work) (w : Nat) (g : Nat → Nat) : Work :=
    match (k.read w).2 with | some d => k.write w (g d) | none => k
  let k :=
    if t.pCore.code = codeNCORE then
      let k := (sendAddrs k).foldl (fun k a => rewrite k (a / 8) (mapHdr f)) k
      if k.t.pCore.rd 0x30C = 0 && !bit (k.t.pCore.rd 0x300) 17 then k else k.core (fun p => p.wr 0x30C (mapDest f (p.rd 0x30C)))
    else if t.pCore.code = codeTCORE && bit (t.pCore.rd 0x104) 8 then
      (outAddrs k 64 (t.pCore.rd 0x104 % 64)).foldl (fun k a =>
        rewrite k (a / 8) (fun d => if a % 8 = 0 then setBits d 31 0 (mapOut f (bits d 31 0))
          else setBits d 63 32 (mapOut f (bits d 63 32)))) k
    else k
  let k := (foldHeads k (k.t.q.foldCount + 1) 0).foldl (fun k w => rewrite k w (mapHdr f)) k
  { k.t with q := { k.t.q with outbound := k.t.q.outbound.map (fun m => (mapMsg f m.1, m.2)) } }

/-! ### Router room (R147, R148, R463) -/

/-- First-fit places for lists of given lengths among the used ranges of the 2,048 drove entries. -/
def fitList (used : List (Nat × Nat)) (n : Nat) : Option Nat :=
  ((0 :: used.map (fun u => u.1 + u.2)).foldl (fun l a => insertNat a l) []).find? (fun b =>
    b + n ≤ 2048 && used.all (fun u => b + n ≤ u.1 || u.1 + u.2 ≤ b))

/-- Places for several lists, an empty list at 0. -/
def fitLists : List (Nat × Nat) → List Nat → Option (List Nat)
  | _, [] => some []
  | used, n :: ns =>
    if n = 0 then (fitLists used ns).map (fun l => 0 :: l)
    else match fitList used n with
      | none => none
      | some b => (fitLists ((b, n) :: used) ns).map (fun l => b :: l)

/-- The ranges of drove entries in use on a router. -/
def usedLists (t : Tile) : List (Nat × Nat) :=
  (t.rt.slots.filter (fun s => s.valid)).flatMap (fun s => (s.lists.filter (fun l => l.len != 0)).map (fun l => (l.base, l.len)))

/-- Outputs with a list, and inputs that an entry of a list names. -/
def bindsOf (lists : List (List Nat)) : BitVec 6 × BitVec 6 :=
  (BitVec.ofNat 6 ((upto 6).foldl (fun n o => n + b2n (!(nth [] lists o).isEmpty) * 2 ^ o) 0),
   lists.flatten.foldl (fun b w => b ||| BitVec.ofNat 6 (2 ^ (Drove.of w).input)) 0)

/-- The lowest free slot of a router. -/
def freeRouterSlot (t : Tile) : Option Nat := (upto 8).find? (fun i => !(nth Slot.empty t.rt.slots i).valid)

/-! ### Availability (R459, R462–R465, R589) -/

/-- What a search looks for: an image's package part `here`, dies to avoid, core tiles not to be taken, pastures whose
bindings do not count, and whether WATCH units are admitted. -/
structure Quest where
  img : Img
  here : Nat
  avoid : Nat := 0
  barred : Nat → Bool := fun _ => false
  ignore : Nat → Bool := fun _ => false
  watch : Bool := false

/-- A unit may be used (R458, R462). -/
def Chip.usable (c : Chip) (watch : Bool) (u : Nat) : Bool :=
  let x := c.unit u
  (3 ≤ unitNum x.applied || (watch && x.applied == .watch)) && !x.clearing && !x.testing

/-- The unit is SPARE. -/
def Chip.isSpare (c : Chip) (u : Nat) : Bool := (c.unit u).applied == .spare

/-- IN_SERVICE cores of a kind in the package, and the grade's eligible number (R3, R465). -/
def Chip.inService (c : Chip) (kind : Nat) : Nat :=
  ((upto 1024).filter (fun k => let u := unitKey kind (k / 256) (k % 256); unitExists u && (c.unit u).applied == .inService)).length
def Chip.gradeOf (c : Chip) (kind : Nat) : Nat :=
  if kind = 0 then c.fuses.neuronGrade.toNat else c.fuses.tensorGrade.toNat

/-- Whether entry `e` of an image die may lie on tile `k` of this package. -/
def Chip.tileFits (c : Chip) (q : Quest) (sl : Option SlotEnt) (e : TileEnt) (k : Nat) : Bool :=
  let t := c.tile k
  let lists := match sl with | some s => s.lists | none => []
  let b := bindsOf lists
  (!e.core || (c.usable q.watch (coreUnit k) && c.usable q.watch (bankUnit k) && (match c.ownerOf k with | none => true | some p => q.ignore p)
      && !q.barred k && c.domOn k))
    && c.usable q.watch (routerUnit k) && (freeRouterSlot t).isSome
    && (fitLists (usedLists t) (lists.map (fun l => l.length))).isSome
    && t.rt.slots.all (fun s => !s.valid || q.ignore s.pasture.val || (s.bindOut &&& b.1 == 0 && s.bindIn &&& b.2 == 0))
    && (tileKind (k % 256) != .port || 1 < unitNum (c.unit (vlinkUnit k)).applied)

/-- No other pasture holds an egress index that the EGRESS section `es` of an image die puts on image tile `t`, at tile
`k` (R463 and the PORT page of chapter 22). -/
def Chip.egressFree (c : Chip) (q : Quest) (es : List (Nat × Nat)) (t k : Nat) : Bool :=
  es.all (fun e => bits e.1 7 0 != t || (match (mapGet (fun _ => ({ owner := none, word0 := 0, word1 := 0 } : EgressEntry))
    (c.tile k).egress (bits e.1 19 8)).owner with
    | none => true
    | some o => q.ignore o.val))

/-- An image die at physical die `pd` with offset (dx, dy): legal and available; the answer counts SPARE cores taken. -/
def Chip.dieFits (c : Chip) (q : Quest) (ts : List TileEnt) (sl : List SlotEnt) (es : List (Nat × Nat)) (pd : Nat) (dx dy : Int) : Option (Nat × Nat) :=
  if bit q.img.flags flFLOCK && (dx % 4 != 0 || dy % 4 != 0) then none
  else
    let ok := ts.all (fun e => match movedTile e.tile dx dy with
      | none => false
      | some u => tileKind u == tileKind e.tile && c.tileFits q (sl.find? (fun s => s.tile == e.tile)) e (tileKey pd u)
          && c.egressFree q es e.tile (tileKey pd u))
    if !ok then none
    else
      let n (kd : TileKind) : Nat := (ts.filter (fun e => e.core && tileKind e.tile == kd
        && (match movedTile e.tile dx dy with | some u => c.isSpare (coreUnit (tileKey pd u)) | none => false))).length
      some (n .neuron, n .tensor)

/-- Offsets in rising dy, then rising dx. -/
def offsets : List (Int × Int) :=
  (upto 31).flatMap (fun (y : Nat) => (upto 31).map (fun (x : Nat) => ((x : Int) - 15, (y : Int) - 15)))

/-- The first fit of the image dies on distinct physical dies, each starting at its own number (R462). -/
def Chip.findDies (c : Chip) (q : Quest) (room : Nat × Nat) : List Nat → List Nat → Option (List DiePlace)
  | [], _ => some []
  | d :: ds, used =>
    let ts := q.img.tilesOf q.here d
    let sl := q.img.slotsOf q.here d
    (upto 4).findSome? (fun i =>
      let pd := (d + i) % 4
      if used.contains pd || bit q.avoid pd || (c.die pd).state != .on then none
      else offsets.findSome? (fun o =>
        match c.dieFits q ts sl (q.img.egressOf q.here d) pd o.1 o.2 with
        | none => none
        | some n =>
          if room.1 < n.1 || room.2 < n.2 then none
          else (c.findDies q (room.1 - n.1, room.2 - n.2) ds (pd :: used)).map (fun l =>
            { imgDie := Fin.ofNat 4 d, die := Fin.ofNat 4 pd, dx := o.1, dy := o.2 } :: l)))

/-- The image dies that image package `p` has. -/
def Img.diesOf (m : Img) (p : Nat) : List Nat := (upto 4).filter (fun d => !(m.tilesOf p d).isEmpty)

/-- The dies of one search, WATCH units admitted in a second pass (R462). -/
def Chip.searchDies (c : Chip) (q : Quest) : Option (List DiePlace) :=
  let room := (c.gradeOf 0 - c.inService 0, c.gradeOf 1 - c.inService 1)
  let ds := q.img.diesOf q.here
  if 64 ≤ c.residents.length then none
  else match c.findDies q room ds [] with
    | some l => some l
    | none => c.findDies { q with watch := true } room ds []

/-- The physical package of each image package when image package 0 lies on package `b` (R459). -/
def Chip.pkgsFrom (c : Chip) (m : Img) (b : Nat) : List Nat :=
  if m.pkgOffsets.isEmpty then [b]
  else m.pkgOffsets.map (fun w =>
    let s (i : Nat) : Nat := ((((c.coord b i : Nat) : Int) + sext 8 (bits w (8 * i + 7) (8 * i))) % ((max 1 (c.dimOf i) : Nat) : Int)).toNat
    c.pkgAt (s 0) (s 1) (s 2))

/-- A placement search for the whole image from package `b` of image package 0: distinct packages with a path, and this
package's part found here. What lies in other packages is taken to be accepted there (assumption 20). -/
def Chip.searchFrom (c : Chip) (m : Img) (b avoid : Nat) (barred : Nat → Bool) : Option PlaceMap :=
  let pkgs := c.pkgsFrom m b
  match (upto pkgs.length).find? (fun i => nth 0 pkgs i == c.pkg) with
  | none => none
  | some here =>
    if !distinct pkgs || !pkgs.all (fun p => p == c.pkg || c.hasPath p) then none
    else (c.searchDies { img := m, here := here, avoid := avoid, barred := barred }).map (fun l => { pkgs := pkgs, here := here, dies := l })

/-! ### Streams (R689, R690) -/

/-- Bytes of a stream buffer that a stream takes: its FIFO and an encoder's reference area. -/
def StreamRec.refKib (r : StreamRec) : Nat := if r.encoder then ceilDiv (r.width * r.height) 1024 else 0

/-- The ranges in use in the stream buffer of port `p`, in KiB. -/
def Chip.streamUsed (c : Chip) (p : Nat) : List (Nat × Nat) :=
  (c.streams.filter (fun s => s.bound.isSome && s.info.port == p)).flatMap (fun s =>
    (s.fifoBase / 1024, s.info.fifoKib) :: (if s.info.encoder then [(s.refBase / 1024, s.info.refKib)] else []))

/-- The first place of `n` KiB among used ranges of a 256 KiB stream buffer. -/
def fitKib (used : List (Nat × Nat)) (n : Nat) : Option Nat :=
  ((0 :: used.map (fun u => u.1 + u.2)).foldl (fun l a => insertNat a l) []).find? (fun b =>
    b + n ≤ 256 && used.all (fun u => b + n ≤ u.1 || u.1 + u.2 ≤ b))

/-- Map entries free of the package's 4,096. -/
def Chip.mapFree (c : Chip) : Nat :=
  4096 - ((c.streams.filter (fun s => s.bound.isSome)).map (fun s => s.info.mapCount)).sum

/-- Stream `i` of pasture `p` bound to a free context; none when it cannot be. -/
def Chip.bindStream (c : Chip) (p i : Nat) (r : StreamRec) : Option Chip :=
  match (upto 32).find? (fun j => (nth StreamCtx.init c.streams j).bound.isNone) with
  | none => none
  | some j =>
    if c.streams.any (fun s => s.bound.isSome && s.info.port == r.port && s.info.vc == r.vc) || c.mapFree < r.mapCount then none
    else
      let used := c.streamUsed r.port
      match fitKib used r.fifoKib with
      | none => none
      | some b =>
        match fitKib ((b, r.fifoKib) :: used) r.refKib with
        | none => none
        | some rb =>
          let s : StreamCtx := { StreamCtx.init with
            bound := some (Fin.ofNat 1024 p, i), info := r, fifoBase := 1024 * b, refBase := 1024 * rb }
          some { c with streams := listSet c.streams j s }

/-- Every stream of the image that this package serves bound. -/
def Chip.bindStreams (c : Chip) (p here : Nat) (m : Img) : Option Chip :=
  let l := (upto m.streams.length).map (fun i => (i, nth StreamRec.init m.streams i))
  (l.filter (fun e => e.2.ipkg == here)).foldl (fun o e => match o with | none => none | some c => c.bindStream p e.1 e.2) (some c)

/-- The bindings of pasture `p` released, their FIFOs discarded. -/
def Chip.unbind (c : Chip) (p : Nat) : Chip :=
  { c with streams := c.streams.map (fun s => match s.bound with | some (q, _) => if q.val = p then StreamCtx.init else s | none => s) }

/-! ### NV areas (R528–R530) -/

/-- Pages of a tile's plastic regions: LIST_LIMIT / 1,024 regions, four to a page. -/
def regionsOf (fold : Nat) : Nat := (0x67000 - 1024 * fold) / 1024

/-- The core tiles of an NV area: neuron tiles with LEARN_CTRL.EN, in rising image die and tile. -/
def Img.areaTiles (m : Img) (here : Nat) : List (Nat × TileEnt) :=
  (m.diesOf here).flatMap (fun d =>
    (((upto 256).filterMap (fun t => m.tile here d t)).filter (fun e =>
      e.core && tileKind e.tile == .neuron && bit (m.reg here d e.tile 0x200) 0)).map (fun e => (d, e)))

/-- The required size in pages. -/
def Img.areaSize (m : Img) (here : Nat) : Nat :=
  ((m.areaTiles here).map (fun e => ceilDiv (regionsOf e.2.fold) 4)).sum

def Chip.area (c : Chip) (i : Nat) : AreaRec := mapGet areaDefault c.nv.areas i
def Chip.putArea (c : Chip) (i : Nat) (a : AreaRec) : Chip := { c with nv := { c.nv with areas := mapSet areaDefault c.nv.areas i a } }

/-- The areas in use, by index. -/
def Chip.validAreas (c : Chip) : List (Nat × AreaRec) := c.nv.areas.filter (fun e => e.2.valid)

def AreaRec.overlaps (a : AreaRec) (first n : Nat) : Bool := a.first < first + n && first < a.first + a.pages

/-- The area of an image may not be claimed by pasture `p` (R530). -/
def Chip.areaBad (c : Chip) (p : Nat) (m : Img) (here : Nat) : Bool :=
  bit m.flags flNV && (8192 < m.nvFirst + m.nvPages || m.nvPages < m.areaSize here
    || c.validAreas.any (fun e => e.2.overlaps m.nvFirst m.nvPages && (match e.2.owner with | some o => o.val != p | none => false))
    || (64 ≤ c.validAreas.length && !(c.validAreas.any (fun e => e.2.overlaps m.nvFirst m.nvPages))))

/-- Pasture `p` claims the area of its image (R530). -/
def Chip.claimArea (c : Chip) (p : Nat) (m : Img) : Chip :=
  if !bit m.flags flNV then c
  else
    let o : Option PastureId := some (Fin.ofNat 1024 p)
    match c.validAreas.find? (fun e => e.2.first == m.nvFirst && e.2.pages == m.nvPages) with
    | some e => c.putArea e.1 { e.2 with owner := o }
    | none =>
      let c := (c.validAreas.filter (fun e => e.2.overlaps m.nvFirst m.nvPages)).foldl (fun c e => c.putArea e.1 (areaDefault 0)) c
      match (upto 64).find? (fun i => !(c.area i).valid) with
      | none => c
      | some i => c.putArea i { valid := true, first := m.nvFirst, pages := m.nvPages, activeB := false, gen := 0
                                written := false, owner := o, lag := upto m.nvPages }

/-- The area that pasture `p` owns. -/
def Chip.areaOf (c : Chip) (p : Nat) : Option (Nat × AreaRec) :=
  c.validAreas.find? (fun e => match e.2.owner with | some o => o.val == p | none => false)

/-! ### Writing tiles (R460, R463, R465, R498) -/

/-- The slot of an image tile loaded into a router. -/
def loadSlot (p : Nat) (e : TileEnt) (sl : Option SlotEnt) (exitTile : Nat) (t : Tile) : Tile × Nat :=
  let s := match sl with | some s => s | none => { tile := e.tile, mask := 0, exitX := 0, exitY := 0, lists := List.replicate 6 [] }
  let lens := s.lists.map (fun l => l.length)
  let bases := (fitLists (usedLists t) lens).getD (List.replicate 6 0)
  let b := bindsOf s.lists
  let i := (freeRouterSlot t).getD 0
  let kib := if tileKind e.tile = .tensor then 1020 else 412
  let slot : Slot :=
    { valid := true, running := true, pasture := Fin.ofNat 1024 p, bindOut := b.1, bindIn := b.2
      closeMask := [BitVec.ofNat 6 (bits s.mask 5 0), BitVec.ofNat 6 (bits s.mask 11 6), BitVec.ofNat 6 (bits s.mask 17 12),
        BitVec.ofNat 6 (bits s.mask 23 18), 0, BitVec.ofNat 6 (bits s.mask 29 24)]
      exitX := BitVec.ofNat 4 (tileX exitTile), exitY := BitVec.ofNat 4 (tileY exitTile), lapMax := BitVec.ofNat 13 e.lapMax
      foldBase := BitVec.ofNat 10 (if e.core then kib - e.fold else 0), foldSize := BitVec.ofNat 10 (if e.core then e.fold else 0)
      lists := (upto 6).map (fun o => { base := nth 0 bases o, len := nth 0 lens o }) }
  let drove := (upto 6).foldl (fun m o =>
    (upto (nth 0 lens o)).foldl (fun m j => mapSet droveDefault m (nth 0 bases o + j) (mkFlit (nth 0 (nth [] s.lists o) j))) m) t.rt.drove
  ({ t with rt := { t.rt with drove := drove, slots := listSet t.rt.slots i slot } }, i)

/-- The bank, registers and fold of a core tile written from an image (R234, R460, R498). -/
def loadCore (m : Img) (pm : PlaceMap) (d : Nat) (e : TileEnt) (t : Tile) : Tile :=
  let kib := if tileKind e.tile = .tensor then 1020 else 412
  let q := { t.q with foldBase := 1024 * (kib - e.fold), foldSize := 1024 * e.fold, foldHead := 0, foldCount := 0 }
  let k : Work := { t := { t with q := q } }
  let k := ((m.banksOf pm.here d).filter (fun b => b.tile == e.tile)).foldl (fun k b =>
    { k with t := k.t.putBank (k.t.bankCtx.writeWords (b.off / 8) ((bytesWords (b.bytes.length / 8) b.bytes).map (fun w => w.toNat))) }) k
  let k := ((m.regsOf pm.here d).filter (fun r => r.1 == e.tile)).foldl (fun k r => k.core (fun p => p.wr r.2.1 r.2.2)) k
  if tileKind e.tile = .neuron then
    let k := k.core (fun p => ((((p.wr 0x110 (0x67000 - 1024 * e.fold)).wr 0x20C (m.seed % 2 ^ 32)).wr 0x210 (m.seed / 2 ^ 32)).wr 0x214
      (e.tile + 256 * d + 1024 * pm.here)).wr 0x108 m.round)
    k.t
  else k.t

/-- An egress entry that no pasture owns. -/
def egressDefault : Nat → EgressEntry := fun _ => { owner := none, word0 := 0, word1 := 0 }

/-- The egress entries of an image die put into the egress tables of their port tiles (R455, R471). -/
def Chip.loadEgress (c : Chip) (p : Nat) (m : Img) (pm : PlaceMap) (d : Nat) : Chip :=
  (m.egressOf pm.here d).foldl (fun c e =>
    let q := pm.toPhys pm.here d (bits e.1 7 0)
    let ent : EgressEntry := { owner := some (Fin.ofNat 1024 p), word0 := BitVec.ofNat 32 e.1, word1 := BitVec.ofNat 32 e.2 }
    c.updTile (tileKey q.2.1 q.2.2) (fun t => { t with egress := mapSet egressDefault t.egress (bits e.1 19 8) ent })) c

/-- A SPARE unit that a placement takes becomes IN_SERVICE (R465, R481). -/
def Chip.takeUnit (c : Chip) (u : Nat) : Chip := if c.isSpare u then c.setUnit u .inService else c

/-- The tiles of an image written under a placement map; the answer lists them (R460). Banks and states are put in image
form first and then translated. -/
def Chip.writeTiles (c : Chip) (p : Nat) (m : Img) (pm : PlaceMap) : Chip × List PTile :=
  pm.dies.foldl (fun (a : Chip × List PTile) (dp : DiePlace) =>
    let d := dp.imgDie.val
    let sl := m.slotsOf pm.here d
    let r := (m.tilesOf pm.here d).foldl (fun (a : Chip × List PTile) (e : TileEnt) =>
      let q := pm.toPhys pm.here d e.tile
      let k := tileKey q.2.1 q.2.2
      let s := sl.find? (fun s => s.tile == e.tile)
      let ex := match s with | some s => (pm.toPhys pm.here d (tileOf s.exitX s.exitY)).2.2 | none => 0
      let ls := loadSlot p e s ex (a.1.tile k)
      let t := if e.core then loadCore m pm d e ls.1 else ls.1
      let c := a.1.putTile k t
      let c := c.takeUnit (routerUnit k)
      let c := if e.core then (c.takeUnit (coreUnit k)).takeUnit (bankUnit k) else c
      (c, a.2 ++ [{ imgPkg := BitVec.ofNat 8 pm.here, imgDie := Fin.ofNat 4 d, imgTile := Fin.ofNat 256 e.tile
                    die := Fin.ofNat 4 q.2.1, tile := Fin.ofNat 256 q.2.2, core := e.core, slot := Fin.ofNat 8 ls.2
                    foldKiB := BitVec.ofNat 8 e.fold, lapMax := BitVec.ofNat 13 e.lapMax, phase := .none
                    integrated := false, busy := true }])) a
    (r.1.loadEgress p m pm d, r.2)) (c, [])

/-- Written tiles put in physical form, their awake neurons counted, and their cores awake (R225, R460). -/
def Chip.finishTiles (c : Chip) (pm : PlaceMap) (ts : List PTile) : Chip :=
  (ts.filter (fun t => t.core)).foldl (fun c t =>
    let u := translateTile pm.toPhys (c.tile t.key)
    let u := if tileKind t.tile.val = .neuron then (Work.recountAwake { t := u }).t else u
    (c.putTile t.key u).wakeTile t.key) c

/-! ### Ladders of an image (R307, R339) -/

/-- The replicas' cores, from ANNEAL_CFG of the pasture's neuron tiles (R342). -/
def Chip.replicaCores (c : Chip) (ts : List PTile) (ladder rep : Nat) : List Nat :=
  ((ts.filter (fun t => t.core && tileKind t.tile.val == .neuron)).filter (fun t =>
    let v := (c.tile t.key).pCore.rd 0x300
    bit v 0 && bits v 9 4 == ladder && bits v 16 10 == rep)).map (fun t => t.key)

/-- The ladder of the image loaded, with every replica's energy 0 (R318, R339). -/
def Chip.loadLadder (c : Chip) (p : Nat) (m : Img) (ts : List PTile) : Chip :=
  match m.ladder with
  | none => c
  | some e =>
    let n := e.rungs.length
    let rung (i : Nat) : Nat := ((upto n).find? (fun j => (nth (0, 0) e.rungs j).2 == i)).getD 0
    c.putLadder e.index { Ladder.init with
      valid := true, root := e.root, freeMode := e.free, pasture := Fin.ofNat 1024 p, colours := BitVec.ofNat 3 e.colours
      exchSweeps := BitVec.ofNat 16 e.exchSweeps, kickBase := BitVec.ofNat 12 e.kickBase, kick := BitVec.ofNat 12 e.kick
      rungs := e.rungs.map (fun r => { temp := BitVec.ofNat 16 r.1, replica := BitVec.ofNat 7 r.2, tried := 0, swapped := 0 })
      replicas := (upto n).map (fun i =>
        { energy := 0, rung := BitVec.ofNat 7 (rung i)
          report := 0, reported := 0, cores := c.replicaCores ts e.index i }) }

/-! ### Freeing tiles (R480) -/

/-- The tiles `ts` of pasture `p` cleared and freed. -/
def Chip.freeTiles (c : Chip) (p : Nat) (ts : List PTile) : Chip :=
  ts.foldl (fun c t =>
    let f (s : Slot) : Bool := s.pasture.val == p
    if t.core then ((c.clearCore t.key f).leaveWatch (coreUnit t.key)).leaveWatch (bankUnit t.key)
    else (c.clearRoute t.key f).leaveWatch (routerUnit t.key)) c

/-- The ladder of pasture `p` forgotten. -/
def Chip.dropLadder (c : Chip) (p : Nat) : Chip :=
  match c.ladderOf p with | some (i, _) => c.putLadder i Ladder.init | none => c

/-- CNT_PLACE, or CNT_NO_PLACE with NO_PLACE (R492, R494). -/
def Chip.placed (c : Chip) : Chip := c.count pgPLACE 0x160 1
def Chip.noPlace (c : Chip) : Chip := (c.count pgPLACE 0x164 1).raise pgPLACE 0

/-! ### Sync objects of an image (R397, R454) -/

/-- An object of TYPE `t` with INIT `v`, owned by `p` when given (R398). -/
def objInit (t v : Nat) (owner : Option Nat) : SyncObj :=
  { type := BitVec.ofNat 2 t, poisoned := false, owned := owner.isSome, owner := Fin.ofNat 1024 (owner.getD 0)
    value := if t = 2 then 0 else BitVec.ofNat 32 v, arrived := 0, expected := if t = 2 then BitVec.ofNat 16 v else 0 }

/-- The SYNC section applied: each object owned by the pasture. -/
def Chip.loadSyncs (c : Chip) (p : Nat) (m : Img) : Chip :=
  m.syncs.foldl (fun c w => c.putObj (bits w 13 0) (objInit (bits w 17 16) (bits w 63 32) (some p))) c

/-- A new pasture record from an image, still without tiles. -/
def pastOf (m : Img) (pm : PlaceMap) (x : Past) : Past :=
  { x with
    presence := .resident, kind := BitVec.ofNat 2 m.kind, flags := BitVec.ofNat 5 m.flags, stallLimit := BitVec.ofNat 16 m.stall
    sliceRounds := BitVec.ofNat 16 m.sliceRounds, seed := BitVec.ofNat 64 m.seed, packages := BitVec.ofNat 16 m.packages
    nvFirst := BitVec.ofNat 32 m.nvFirst, nvPages := BitVec.ofNat 32 m.nvPages
    sections := m.sections.filter (fun s => s.type.toNat != 4 && s.type.toNat != 11)
    extents := (m.diesOf pm.here).flatMap (fun d => (m.banksOf pm.here d).map (fun b => (pm.here, d, b.tile, b.off, b.bytes.length)))
    peers := m.peers.map (fun p => Fin.ofNat 1024 p), pkgMap := pm.pkgs.map (fun p => BitVec.ofNat 8 p)
    imgPkg := BitVec.ofNat 8 pm.here, dies := pm.dies, round := BitVec.ofNat 32 m.round }

end Sys2Proof.Machine
end

