-- ==== Sys2Proof/Machine/Capture.lean ====
section
/-! DEFINITION. Page images and checkpoints: building one from a resident pasture and putting its state back
(R340, R461, R473, R841, R842). -/

namespace Sys2Proof.Machine

/-! ### The ladder registers (R340) -/

/-- The registers of a ladder at 0x104–0x124. -/
def ladderReg (l : Ladder) (off : Nat) : Nat :=
  if off = 0x104 then
    if l.valid then l.pasture.val + 2 ^ 15 + b2n l.running * 2 ^ 16 + b2n l.root * 2 ^ 17 + b2n l.freeMode * 2 ^ 18 + b2n l.inexact * 2 ^ 19 else 0
  else if off = 0x108 then l.rungs.length + l.colours.toNat * 2 ^ 8 + l.exchSweeps.toNat * 2 ^ 16
  else if off = 0x10C then l.kickBase.toNat + l.kick.toNat * 2 ^ 16
  else if off = 0x110 then l.s0.toNat
  else if off = 0x114 then l.exchIndex.toNat
  else if off = 0x118 then unsext 48 l.best % 2 ^ 32
  else if off = 0x11C then unsext 48 l.best / 2 ^ 32 + l.bestReplica.toNat * 2 ^ 16
  else if off = 0x120 then l.bestExch.toNat
  else if off = 0x124 then l.stag.toNat else 0

/-- RUNG_INFO, RUNG_TRIED and RUNG_SWAPPED of a rung. -/
def rungReg (l : Ladder) (i off : Nat) : Nat :=
  match l.rungs[i]? with
  | none => 0
  | some r => if off = 0x144 then r.temp.toNat + r.replica.toNat * 2 ^ 16 else if off = 0x148 then r.tried.toNat else r.swapped.toNat

/-- REPLICA_E_LO, REPLICA_E_HI and REPLICA_REPORT of a replica. -/
def replicaReg (l : Ladder) (i off : Nat) : Nat :=
  match l.replicas[i]? with
  | none => 0
  | some r =>
    if off = 0x154 then unsext 48 r.energy % 2 ^ 32
    else if off = 0x158 then unsext 48 r.energy / 2 ^ 32 + r.rung.toNat * 2 ^ 16 else r.report.toNat

/-- The body of a LADDER record: the registers in offset order, rung by rung and replica by replica (assumption 19). -/
def ladderBody (l : Ladder) : List Byte :=
  ((upto 9).map (fun i => ladderReg l (0x104 + 4 * i))
    ++ (upto l.rungs.length).flatMap (fun i => [rungReg l i 0x144, rungReg l i 0x148, rungReg l i 0x14C])
    ++ (upto l.replicas.length).flatMap (fun i => [replicaReg l i 0x154, replicaReg l i 0x158, replicaReg l i 0x15C])).flatMap (natLe 4)

/-- A ladder with the values of a LADDER record. -/
def ladderFrom (b : List Byte) (l : Ladder) : Ladder :=
  let w (i : Nat) : Nat := leAt b (4 * i) 4
  let n := l.rungs.length
  { l with
    inexact := bit (w 0) 19, s0 := BitVec.ofNat 32 (w 3), exchIndex := BitVec.ofNat 32 (w 4)
    best := sext 48 (w 5 + bits (w 6) 15 0 * 2 ^ 32), bestReplica := BitVec.ofNat 7 (bits (w 6) 22 16)
    bestExch := BitVec.ofNat 32 (w 7), stag := BitVec.ofNat 32 (w 8), bestSet := w 4 != 0
    rungs := (upto n).map (fun i =>
      { temp := BitVec.ofNat 16 (w (9 + 3 * i)), replica := BitVec.ofNat 7 (bits (w (9 + 3 * i)) 22 16)
        tried := BitVec.ofNat 32 (w (10 + 3 * i)), swapped := BitVec.ofNat 32 (w (11 + 3 * i)) })
    replicas := (upto l.replicas.length).map (fun i =>
      let j := 9 + 3 * n + 3 * i
      { energy := sext 48 (w j + bits (w (j + 1)) 15 0 * 2 ^ 32), rung := BitVec.ofNat 7 (bits (w (j + 1)) 22 16)
        report := BitVec.ofNat 32 (w (j + 2)), reported := 0
        cores := match l.replicas[i]? with | some r => r.cores | none => [] }) }

/-! ### Building an image -/

/-- A section entry of the directory. -/
def dirBytes (s : Sect) (off : Nat) : List Byte :=
  natLe 2 s.type.toNat ++ [s.imgPkg, s.imgDie] ++ natLe 4 s.count.toNat ++ natLe 4 off ++ natLe 4 s.bytes.length

/-- The directory of sections laid out from byte offset `off`, each at a multiple of 8, and their bytes. -/
def layOut : Nat → List Sect → List Byte × List Byte
  | _, [] => ([], [])
  | off, s :: l =>
    let r := layOut (off + pad8 s.bytes.length) l
    (dirBytes s off ++ r.1, s.bytes ++ List.replicate (pad8 s.bytes.length - s.bytes.length) 0 ++ r.2)

/-- The image of pasture `p` of TYPE `type` with given sections (R452, R453). -/
def imageBytes (x : Past) (p type : Nat) (secs : List Sect) : List Byte :=
  let n := secs.length
  let b := layOut (64 + 16 * n) secs
  let len := 64 + 16 * n + b.2.length
  let head := natLe 4 0x4C4B5031 ++ natLe 2 1 ++ natLe 1 type ++ natLe 1 x.kind.toNat ++ natLe 2 p ++ natLe 2 x.flags.toNat
    ++ natLe 2 x.stallLimit.toNat ++ natLe 2 x.sliceRounds.toNat ++ natLe 8 x.seed.toNat ++ natLe 4 x.round.toNat
    ++ natLe 2 x.packages.toNat ++ natLe 2 n ++ natLe 4 len ++ natLe 4 x.nvFirst.toNat ++ natLe 4 x.nvPages.toNat
    ++ List.replicate 16 0
  head ++ natLe 4 (crc32c (head ++ [0, 0, 0, 0] ++ b.1 ++ b.2)) ++ b.1 ++ b.2

/-- Consecutive runs of a rising list of words, as first word and length. -/
def runsOf : List Nat → List (Nat × Nat)
  | [] => []
  | w :: l => match runsOf l with
    | (a, n) :: r => if a = w + 1 then (w, n + 1) :: r else (w, 1) :: (a, n) :: r
    | [] => [(w, 1)]

/-- The words of a core tile's bank that an image of pasture `x` carries: its extents, its fold, and every word that holds
data (R473, assumption 21). -/
def Past.imageWords (x : Past) (t : PTile) (u : Tile) : List Nat :=
  let ext := (x.extents.filter (fun e => e.2.1 == t.imgDie.val && e.2.2.1 == t.imgTile.val)).flatMap (fun e =>
    (upto (e.2.2.2.2 / 8)).map (fun i => e.2.2.2.1 / 8 + i))
  let fold := (upto (u.q.foldSize / 8)).map (fun i => u.q.foldBase / 8 + i)
  let live := (Work.bankWords { t := u }).foldl (fun l w => insertNat w l) []
  (ext ++ fold).foldl (fun l w => insertNat w l) live

/-- The words read with correction; none when one is uncorrectable. -/
def readWordsOk (k : BankCtx) : List Nat → BankCtx × Option (List Nat)
  | [] => (k, some [])
  | w :: l =>
    let r := k.read w
    let q := readWordsOk r.1 l
    (q.1, match r.2, q.2 with | some d, some ds => some (d :: ds) | _, _ => none)

/-- The fold moved so that its oldest flit lies first, the rest of it 0. -/
def Tile.straightFold (t : Tile) : Tile :=
  let k : Work := { t := t }
  let ds := (upto t.q.foldCount).map (fun i => ((k.read (foldWord t.q i)).2).getD 0)
  let k := (upto (t.q.foldSize / 8)).foldl (fun k i => k.write (t.q.foldBase / 8 + i) (nth 0 ds i)) k
  { k.t with q := { k.t.q with foldHead := 0 } }

/-- The flits that a straight fold holds: messages from its base up to the first word that heads none. -/
def foldLength (k : Work) : Nat → Nat → Nat
  | 0, i => i
  | f + 1, i =>
    if k.t.q.foldSize / 8 ≤ i then i
    else match (k.read (k.t.q.foldBase / 8 + i)).2 with
      | none => i
      | some h => let kd := (Hdr.of h).kind
        if kd = kFLOCK then foldLength k f (i + 2) else if kd = kAXON || kd = kTALLY then foldLength k f (i + 1) else i

/-- The outbound queue of a STATE record: the count of messages and their words. -/
def outboundBytes (q : TileQueues) : List Byte :=
  natLe 4 q.outbound.length ++ q.outbound.flatMap (fun m => m.1.flatMap (fun f => natLe 8 ((readFlit f).2.getD 0)))

/-- A STATE record of a type for an image tile. -/
def stateRec (type tile : Nat) (body : List Byte) : List Byte :=
  natLe 2 type ++ natLe 1 tile ++ natLe 1 0 ++ natLe 4 body.length ++ body ++ List.replicate (pad8 body.length - body.length) 0

/-- The NCORE or TCORE record of a core tile in image form. -/
def tileRecord (t : PTile) (u : Tile) : List Byte :=
  if tileKind t.tile.val = .neuron then
    stateRec 2 t.imgTile.val ((upto (3 * 4096)).flatMap (fun i => natLe 3 (unsext 24 (mapGet tallyDefault u.nc.tally i)))
      ++ outboundBytes u.q ++ natLe 4 (u.pCore.rd 0x108) ++ natLe 4 (u.pCore.rd 0x10C) ++ natLe 4 (u.pCore.rd 0x208)
      ++ (upto 8).flatMap (fun i => natLe 4 (u.pCore.rd (0x300 + 4 * i))))
  else stateRec 3 t.imgTile.val (natLe 4 (u.pCore.rd 0x118) ++ natLe 4 (u.pCore.rd 0x11C) ++ outboundBytes u.q)

/-- OBJ_VALUE and OBJ_AUX of a sync object (R384). -/
def SyncObj.aux (o : SyncObj) : Nat := if o.type = 2 then o.arrived.toNat + o.expected.toNat * 2 ^ 16 else 0

/-- The objects that pasture `p` owns, rising. -/
def Chip.ownedObjs (c : Chip) (p : Nat) : List (Nat × SyncObj) := c.objs.filter (fun e => e.2.owned && e.2.owner.val == p)

/-- The pasture-wide STATE records. -/
def Chip.pastureRecords (c : Chip) (p logOffset : Nat) : List (List Byte) :=
  let x := c.past p
  let n := (x.sections.filter (fun s => s.type.toNat == 7)).foldl (fun n s => n + s.count.toNat) 0
  let strm (i : Nat) : List Byte := match c.streams.find? (fun s => s.bound == some (Fin.ofNat 1024 p, i)) with
    | some s => natLe 4 s.frame.toNat ++ natLe 1 (b2n s.refValid) ++ natLe 3 0
    | none => natLe 8 0
  let own := c.ownedObjs p
  [stateRec 1 0 (natLe 4 x.round.toNat ++ natLe 4 x.skippedRun.toNat ++ natLe 4 logOffset)]
    ++ (if n = 0 then [] else [stateRec 4 0 ((upto n).flatMap strm)])
    ++ (if x.inject.isEmpty then [] else [stateRec 5 0 (x.inject.flatMap (fun e => natLe 8 e.word.toNat))])
    ++ (match c.ladderOf p with | some (_, l) => [stateRec 6 0 (ladderBody l)] | none => [])
    ++ (if own.isEmpty then [] else [stateRec 7 0 (own.flatMap (fun e =>
          natLe 2 e.1 ++ natLe 1 e.2.type.toNat ++ natLe 1 0 ++ natLe 4 e.2.value.toNat ++ natLe 4 e.2.aux ++ natLe 4 0))])

/-- The image of resident pasture `p` of TYPE `type`; none when a word cannot be corrected (R473, R841). -/
def Chip.captureImage (c : Chip) (p type logOffset : Nat) : Chip × Option (List Byte) :=
  let x := c.past p
  let pm := x.map
  let r := x.cores.foldl (fun (a : Chip × Bool × List (PTile × Tile × List Nat)) t =>
    let u := a.1.tile t.key
    let ws := x.imageWords t u
    let q := readWordsOk u.bankCtx ws
    (a.1.putTile t.key (u.putBank q.1), a.2.1 && q.2.isSome, a.2.2 ++ [(t, (translateTile pm.toImage u.straightFold), ws)])) (c, true, [])
  if !r.2.1 then (r.1, none)
  else
    let sect (ty die n : Nat) (b : List Byte) : Sect :=
      { type := BitVec.ofNat 16 ty, imgPkg := x.imgPkg, imgDie := BitVec.ofNat 8 die, count := BitVec.ofNat 32 n, bytes := b }
    let dies := pm.dies.map (fun d => d.imgDie.val)
    let banks := dies.map (fun d =>
      let l := (r.2.2.filter (fun e => e.1.imgDie.val == d)).flatMap (fun e => (runsOf e.2.2).map (fun q => (e.1, e.2.1, q)))
      sect 4 d l.length (l.flatMap (fun e =>
        natLe 4 e.1.imgTile.val ++ natLe 4 (8 * e.2.2.1) ++ natLe 4 (8 * e.2.2.2) ++ natLe 4 0
          ++ (upto e.2.2.2).flatMap (fun i => natLe 8 (((Work.read { t := e.2.1 } (e.2.2.1 + i)).2).getD 0)))))
    let states := dies.map (fun d =>
      let l := r.2.2.filter (fun e => e.1.imgDie.val == d)
      sect 11 d l.length (l.flatMap (fun e => tileRecord e.1 e.2.1)))
    let pr := c.pastureRecords p logOffset
    let pw := sect 11 255 pr.length pr.flatten
    let keep (s : Sect) : Bool := s.count != 0
    (r.1, some (imageBytes x p type (x.sections ++ banks.filter keep ++ [{ pw with imgPkg := 0 }] ++ states.filter keep)))

/-- The size of pasture `p`'s page image in bytes (R473). -/
def Chip.pageSize (c : Chip) (p : Nat) : Nat :=
  if (c.past p).presence = .pagedOut then (c.past p).pageLen
  else match (c.captureImage p 1 0).2 with | some l => l.length | none => 0

/-! ### Putting state back (R234, R842) -/

/-- The messages of an outbound queue of `n` messages. -/
def outboundFrom : Nat → List Byte → List (List Flit × BitVec 6) × List Byte
  | 0, l => ([], l)
  | n + 1, l =>
    let w := leAt l 0 8
    let k := if (Hdr.of w).kind = kFLOCK then 2 else 1
    let r := outboundFrom n (l.drop (8 * k))
    (((fields 8 k l).map mkFlit, 0) :: r.1, r.2)

/-- The delay banks of an NCORE record. -/
def tallyFrom (b : List Byte) : Map Int :=
  (upto (3 * 4096)).foldl (fun m i => mapSet tallyDefault m i (sext 24 (leAt b (3 * i) 3))) []

/-- A tile with the state of its NCORE or TCORE record. -/
def stateTile (r : StateRec) (t : Tile) : Tile :=
  if r.type = 2 then
    let b := r.body.drop (9 * 4096)
    let o := outboundFrom (leAt b 0 4) (b.drop 4)
    let w (i : Nat) : Nat := leAt o.2 (4 * i) 4
    let pg := ((t.pCore.wr 0x108 (w 0)).wr 0x10C (w 1)).wr 0x208 (w 2)
    { t with nc := { t.nc with tally := tallyFrom r.body }, q := { t.q with outbound := o.1 }
             pCore := (upto 8).foldl (fun p i => p.wr (0x300 + 4 * i) (w (3 + i))) pg }
  else
    { t with q := { t.q with outbound := (outboundFrom (leAt r.body 8 4) (r.body.drop 12)).1 }
             pCore := (t.pCore.wr 0x118 (leAt r.body 0 4)).wr 0x11C (leAt r.body 4 4) }

/-- The state of the core tiles put back, in image form. -/
def Chip.loadTileStates (c : Chip) (m : Img) (pm : PlaceMap) (ts : List PTile) : Chip :=
  (ts.filter (fun t => t.core)).foldl (fun c t =>
    let u := c.tile t.key
    let u := match (m.stateOf pm.here t.imgDie.val).find? (fun r => r.tile == t.imgTile.val) with
      | some r => stateTile r u
      | none => u
    let n := foldLength { t := u } (u.q.foldSize / 8 + 1) 0
    c.putTile t.key { u with q := { u.q with foldCount := n } }) c

/-- The pasture-wide records put back: round and skipped rounds always; streams, injections and objects on a restore. -/
def Chip.loadPastureState (c : Chip) (p : Nat) (m : Img) (restore : Bool) : Chip :=
  (m.stateOf 0 255).foldl (fun c r =>
    match r.type with
    | 1 => c.updPast p (fun x => { x with round := BitVec.ofNat 32 (leAt r.body 0 4), skippedRun := BitVec.ofNat 32 (leAt r.body 4 4) })
    | 4 => if restore then
        { c with streams := c.streams.map (fun s => match s.bound with
            | some (q, i) => if q.val = p then { s with frame := BitVec.ofNat 32 (leAt r.body (8 * i) 4), refValid := bit (leAt r.body (8 * i + 4) 1) 0 } else s
            | none => s) }
        else c
    | 5 => if restore then
        c.updPast p (fun x => { x with inject := (fields 8 (r.body.length / 8) r.body).map (fun w => { word := BitVec.ofNat 64 w, entry := none }) })
        else c
    | 6 => match c.ladderOf p with | some (i, l) => c.putLadder i (ladderFrom r.body l) | none => c
    | 7 => if restore then
        (upto (r.body.length / 16)).foldl (fun c i =>
          let b := slice r.body (16 * i) 16
          c.putObj (leAt b 0 2 % 16384)
            { type := BitVec.ofNat 2 (leAt b 2 1), poisoned := false, owned := true, owner := Fin.ofNat 1024 p, value := BitVec.ofNat 32 (leAt b 4 4)
              arrived := BitVec.ofNat 16 (leAt b 8 2), expected := BitVec.ofNat 16 (leAt b 10 2) }) c
        else c
    | _ => c) c

/-- The cores of the replicas of pasture `p`'s ladder found anew on its tiles. -/
def Chip.relinkLadder (c : Chip) (p : Nat) (ts : List PTile) : Chip :=
  match c.ladderOf p with
  | none => c
  | some (i, l) =>
    let f (j : Nat) : Replica := { nth { energy := 0, rung := 0, report := 0, reported := 0, cores := [] } l.replicas j with
                                   cores := c.replicaCores ts i j }
    c.putLadder i { l with replicas := (upto l.replicas.length).map f }

/-- A pasture written from an image under a placement map: tiles, ladder and, from a page image or a checkpoint, state. -/
def Chip.install (c : Chip) (p : Nat) (m : Img) (pm : PlaceMap) (restore : Bool) : Chip :=
  let r := c.writeTiles p m pm
  let c := r.1.updPast p (fun x => { pastOf m pm x with tiles := r.2 })
  let c := if m.type = 0 then c else c.loadTileStates m pm r.2
  let c := c.finishTiles pm r.2
  let c := if (c.ladderOf p).isSome then c.relinkLadder p r.2 else c.loadLadder p m r.2
  if m.type = 0 then c else c.loadPastureState p m restore

end Sys2Proof.Machine
end

