-- ==== Sys2Proof/Machine/Rounds.lean ====
section
/-! DEFINITION. The round: its start with the cut, the phases on each tile, laps and the vote, muster arrival, and the stall
watchdog (R45, R52, R62–R72, R81, R180–R184, R210, R254, R292, R310, R554, R694, R845). -/

namespace Sys2Proof.Machine

/-! ### What enters at the cut (R63, R64, R310, R422, R694) -/

/-- The stream buffer of port `p` with the STREAM page. -/
def Chip.streamBank (c : Chip) (p : Nat) : BankCtx :=
  { b := nth (Bank.init 0) c.streamBanks p, pg := c.page pgSTREAM, off := 0, words := 32768, plain := true }

/-- The stream buffer and the STREAM page put back. -/
def Chip.putStreamBank (c : Chip) (p : Nat) (k : BankCtx) : Chip :=
  { c.putPage pgSTREAM k.pg with streamBanks := listSet c.streamBanks p k.b }

/-- The bank word that holds FIFO event `i` of a context, counted from the oldest. -/
def StreamCtx.fifoWord (s : StreamCtx) (i : Nat) : Nat :=
  s.fifoBase / 8 + (s.fifoHead + i) % max 1 (128 * s.info.fifoKib)

/-- The events of stream context `j` as they stand, oldest first: image word and port tile; an uncorrectable one is
discarded (R710). The FIFO is empty after. -/
def Chip.takeFifo (c : Chip) (j : Nat) : Chip × List (Nat × Nat × Nat) :=
  let s := nth StreamCtx.init c.streams j
  let r := (upto s.fifoCount).foldl (fun (a : Chip × List (Nat × Nat × Nat) × Nat) i =>
    let q := (a.1.streamBank s.info.port).read (s.fifoWord i)
    let c := a.1.putStreamBank s.info.port q.1
    match q.2 with
    | some w => let pt := nth (0, 0) s.fifoPorts i; (c, a.2.1 ++ [(w, pt.1, pt.2)], a.2.2)
    | none => (c.raise pgSTREAM 3, a.2.1, a.2.2 + 1)) (c, [], 0)
  let t : StreamCtx := { s with
    fifoCount := 0, fifoPorts := [], fifoHead := (s.fifoHead + s.fifoCount) % max 1 (128 * s.info.fifoKib)
    cntEntered := BitVec.ofNat 32 (satAdd 32 s.cntEntered.toNat r.2.1.length), cntUe := BitVec.ofNat 32 (satAdd 32 s.cntUe.toNat r.2.2) }
  ({ r.1 with streams := listSet r.1.streams j t }, r.2.1)

/-- The stream contexts of pasture `p` in rising image stream index. -/
def Chip.streamsOf (c : Chip) (p : Nat) : List Nat :=
  (upto 32).filterMap (fun i => (upto 32).find? (fun j => (nth StreamCtx.init c.streams j).bound == some (Fin.ofNat 1024 p, i)))

/-- The port tiles of pasture `p` on die `d` whose slot takes messages from V. -/
def Chip.vTiles (c : Chip) (p d : Nat) : List Nat :=
  let x := c.past p
  (portTiles.filter (fun t => x.tiles.any (fun e => e.key == tileKey d t
    && (nth Slot.empty (c.tile e.key).rt.slots e.slot.val).bindIn.getLsbD 5)))

/-- The data word of an event that enters pasture `p` in round `n`: physical coordinates, the class and the stamp (R102,
R422). -/
def entryWord (pm : PlaceMap) (n cls w : Nat) : Nat :=
  let h := Hdr.of (mapHdr pm.toPhys w)
  ({ h with origin := cls, stamp := n % 256 : Hdr }).word

/-- One event placed among the V events of a port tile. -/
def Chip.feed (c : Chip) (p key w : Nat) : Chip :=
  c.updTile key (fun t => { t with rt := { t.rt with vfeed := { t.rt.vfeed with
    events := t.rt.vfeed.events ++ [(Fin.ofNat 1024 p, [mkFlit w])] } } })

/-- An event without a port of its own enters through the V-fed port tile nearest its destination (assumption 22); none on
that die drops it. The answer is the port tile. -/
def Chip.feedNear (c : Chip) (p w : Nat) : Chip × Option Nat :=
  let h := Hdr.of w
  match nearestIn (tileOf h.x h.y) (c.vTiles p h.die) with
  | some t => (c.feed p (tileKey h.die t) w, some (tileKey h.die t))
  | none => (c, none)

/-- The image-order key of a port tile of the pasture, by which the log lists inputs (R845). -/
def Past.portOrder (x : Past) (key : Nat) : Nat :=
  match x.tiles.find? (fun t => t.key == key) with
  | some t => t.imgDie.val * 256 + t.imgTile.val
  | none => key

/-- The INJECT commands whose events all stand in `l` complete with round `n` (R423). -/
def Chip.injectsEntered (c : Chip) (l : List Injected) (n : Nat) : Chip :=
  (l.filterMap (fun e => e.entry)).eraseDups.foldl (fun c e =>
    if (c.entry e.val).state = .running && (c.entry e.val).opcode = 0x11 then
      c.finish e.val stOK (n + (c.entry e.val).bytes 40 2 * 2 ^ 32) (progressWord 100 0)
    else c) c

/-- The cut of round `n` of pasture `p`: stream events, then host and peer events, then a running ladder's kicks. -/
def Chip.cut (c : Chip) (p n : Nat) : Chip :=
  let pm := (c.past p).map
  let s := (c.streamsOf p).foldl (fun (a : Chip × List (Nat × W64)) j =>
    let q := a.1.takeFifo j
    q.2.foldl (fun (a : Chip × List (Nat × W64)) e =>
      let ph := pm.toPhys pm.here e.2.1 (portTile e.2.2)
      let key := tileKey ph.2.1 ph.2.2
      (a.1.feed p key (entryWord pm n 1 e.1), a.2 ++ [((a.1.past p).portOrder key, BitVec.ofNat 64 e.1)])) (q.1, a.2)) (c, [])
  let inj := (s.1.past p).inject
  let s := inj.foldl (fun (a : Chip × List (Nat × W64)) e =>
    let w := e.word.toNat
    let q := a.1.feedNear p (entryWord pm n (Hdr.of w).origin w)
    (q.1, match q.2 with | some key => a.2 ++ [((a.1.past p).portOrder key, e.word)] | none => a.2)) s
  let c := (s.1.updPast p (fun x => { x with inject := [], entered := s.2 })).injectsEntered inj n
  match c.ladderOf p with
  | none => c
  | some (_, l) =>
    if !l.running then c
    else (l.replicas.flatMap (fun r => r.cores)).foldl (fun c key =>
      let w := ({ kind := kAXON, pkg := c.pkg, die := key / 256, x := tileX (key % 256), y := tileY (key % 256)
                  tag := l.kickBase.toNat + n % max 1 l.colours.toNat, stamp := n % 256 : Hdr }).word
      (c.feedNear p w).1) c

/-! ### The mesh put back -/

/-- What mesh work leaves behind: tiles, messages, holds; a drove entry that cannot be read stalls its pasture (R184). -/
def Chip.putMesh (c : Chip) (m : Mesh) : Chip :=
  let c := { c with tiles := m.tiles, inFlight := c.inFlight ++ m.tx, leaving := c.leaving ++ m.toBase }
  let c := m.droveBad.eraseDups.foldl (fun c p => c.updPast p (fun x => { x with droveBad := true })) c
  let c := m.progress.eraseDups.foldl (fun c p => c.updPast p (fun x => { x with progressAt := c.now })) c
  m.holds.eraseDups.foldl (fun c p => c.holdNext p stUNCORRECTED) c

/-! ### Round start (R62, R71, R91, R210, R292, R554) -/

/-- A Dense-engine pass runs on a core of the pasture. -/
def Chip.passRuns (c : Chip) (x : Past) : Bool :=
  x.cores.any (fun t => match (c.tile t.key).tc.chain with | some ch => ch.round.isNone | none => false)

/-- The next round of pasture `p` is due and may start (R70, R91, R393). -/
def Chip.maystart (c : Chip) (p : Nat) : Bool :=
  let x := c.past p
  x.tickDue && x.resident && x.running && !x.inRound && c.roundsAllowed

/-- A new round of pasture `p` has put no record in an egress ring yet (R667). -/
def Chip.ringsForget (c : Chip) (p : Nat) : Chip :=
  let f (e : Nat × ERing) : Nat × ERing := (e.1, { e.2 with got := e.2.got.filter (· != p) })
  { c with gate := { c.gate with rings := c.gate.rings.map f } }

/-- ROUND_START: the round start issued. -/
def Chip.startRound (c : Chip) (p : Nat) : Chip :=
  let x := c.past p
  let n := x.round.toNat
  let late := x.paced && x.anchored && x.tickTime < c.now
  let c := c.updPast p (fun x => if x.paced && !x.anchored then x.anchorNow c.now else x)
  let c := if late then (c.updPast p (fun x => { x with overruns := BitVec.ofNat 32 (satAdd 32 x.overruns.toNat 1) })).raise pgMUSTER 0 else c
  let idle := 65536 ≤ x.skippedRun.toNat || x.longIdle
  let c := c.updPast p (fun x => { x with
    span := { x.span with sentArrive := false, done := none, woke := false }, droveBad := false, tickDue := false, parked := false, gapWaited := false, longIdle := false, skippedRun := 0, phase := .inject, progressAt := c.now
    tiles := x.tiles.map (fun t => { t with phase := .inject, integrated := false, busy := false }) })
  let c := x.cores.foldl (fun c t =>
    let c := c.wakeTile t.key
    let c := c.updTile t.key (fun u => { u with nc := { u.nc with satFlag := false, modM := 0, marks := [], traceFired := false, clamped := false } })
    if idle && tileKind t.tile.val = .neuron then c.putWork t.key (Work.longIdle { t := c.tile t.key } n) else c) c
  let c := x.tiles.foldl (fun c t => c.wakeTile t.key) c
  let c := (c.ringsForget p).cut p n
  let m := x.tiles.foldl (fun (m : Mesh) t => m.startRound t.key t.slot.val) c.mesh
  c.putMesh m

/-- ROUND_START of pasture `p`: a due round starts unless a Dense-engine pass still runs on its cores, or a gap's work comes
first, which is counted once (R292, R554). -/
def Chip.roundStart (c : Chip) (p : Nat) : Chip :=
  if !c.maystart p || c.passRuns (c.past p) then c
  else if c.gapWork p then
    if (c.past p).gapWaited then c else (c.updPast p (fun x => { x with gapWaited := true })).count pgSTACK 0x150 1
  else c.startRound p

/-- PACER_TICK: the tick of the next round of a paced pasture arrives (R70, R73, R83). -/
def Chip.pacerTick (c : Chip) (p : Nat) : Chip := if (c.past p).paced then c.due p else c

/-- HOLD_EXPIRY: the duration of a hold has passed (R401). -/
def Chip.holdExpiry (c : Chip) (p : Nat) : Chip :=
  match (c.past p).hold with
  | some h => match h.endsAt with
    | some t => if t ≤ c.now then c.endHold p else c
    | none => c
  | none => c

/-! ### Phases on a tile (R62) -/

/-- The tile of pasture `p` at key `k`. -/
def Past.tileAt (x : Past) (k : Nat) : Option PTile := x.tiles.find? (fun t => t.key == k)

/-- The tile's entry changed by `f`. -/
def Past.updTile (x : Past) (k : Nat) (f : PTile → PTile) : Past :=
  { x with tiles := x.tiles.map (fun t => if t.key = k then f t else t) }

/-- The phase of the tile of pasture `p` at key `k`. -/
def Chip.phaseAt (c : Chip) (p k : Nat) : Phase :=
  match (c.past p).tileAt k with | some t => t.phase | none => .none

/-- A stalled pasture does nothing more in its round (R181). -/
def Chip.runsOn (c : Chip) (p : Nat) : Bool := (c.past p).inRound && !(c.past p).stalled

/-- The pasture stalls mid-round: its pages freeze, its outputs stop, and it holds with `st` (R181, R182, R184). -/
def Chip.stall (c : Chip) (p st : Nat) (snap : Nat → Map W32) : Chip :=
  let x := c.past p
  let c := x.tiles.foldl (fun c t => c.updTile t.key (fun u => { u with
    dbg := { frozen := true, stallHeld := true, snap := snap t.key }
    rt := { u.rt with outs := u.rt.outs.map (fun (o : OutPos) => if o.slot = some t.slot then { o with stopped := true } else o) } })) c
  let c := c.updPast p (fun x => { x with stalled := true, stallMapRead := false })
  c.faultHard p st

/-- Tile `k` of pasture `p` enters SPIKE, its INJECT over, and its outputs run as far as they can (R62, R161). -/
def Chip.spike (c : Chip) (p k : Nat) : Chip :=
  if !c.runsOn p || !(c.phaseAt p k == .inject || c.phaseAt p k == .spike) then c
  else
    let c := c.updPast p (fun x => { x.updTile k (fun t => { t with phase := .spike }) with phase := .spike })
    c.putMesh (c.mesh.runTile k)

/-- LAP_START on tile `k`: the first lap follows the compiled section; a later one a vote (R167). -/
def Chip.lapStart (c : Chip) (p k : Nat) : Chip :=
  match (c.past p).tileAt k with
  | none => c
  | some t =>
    if !c.runsOn p || t.phase != .spike then c
    else
      let r := c.mesh.startLap k t.slot.val t.core
      if r.2 then c.putMesh (r.1.runTile k) else c

/-- Every tile of pasture `p` has reported to the lap vote (R65). -/
def Chip.voteDecided (c : Chip) (p : Nat) : Bool :=
  c.runsOn p && (c.past p).tiles.all (fun t => t.phase == .spike && tileVoted (c.tile t.key) t.slot.val)

/-- LAP_VOTE of pasture `p`: every tile has reported, and the children or the root of a pasture that spans packages (R736); a pending source starts another lap on every tile, else SPIKE ends
once every inbound AXON queue is empty (R62, R65, R168). -/
def Chip.lapVote (c : Chip) (p : Nat) : Chip :=
  let x := c.past p
  let root := c.isRoot x
  let own := x.tiles.any (fun t => tilePending (c.tile t.key) t.core p)
  let pending := if root then own || x.span.votes.any (fun v => v.2) else x.span.result.getD false
  if !c.voteDecided p || (if root then !c.childrenIn x x.span.votes else x.span.result.isNone) then c
  else if pending then
    let c := if root && x.spans then c.toChildren p 5 x.round.toNat false true else c
    let c := c.updPast p (fun x => { x with span := { x.span with votes := [], sentVote := false, result := none } })
    c.putMesh (x.tiles.foldl (fun (m : Mesh) t => m.toLapMark t.key t.slot.val) c.mesh)
  else if x.cores.any (fun t => !(c.tile t.key).q.axon.isEmpty) then c
  else
    let c := if root && x.spans then c.toChildren p 5 x.round.toNat false false else c
    let c := c.updPast p (fun x => { x with span := { x.span with votes := [], sentVote := false, result := none } })
    let c := c.putMesh (x.tiles.foldl (fun (m : Mesh) t => m.stopRound t.key t.slot.val) c.mesh)
    c.updPast p (fun x => { x with phase := .integrate, progressAt := c.now, tiles := x.tiles.map (fun t => { t with phase := .integrate }) })

/-- The phase after INTEGRATE. -/
def Past.afterIntegrate (x : Past) : Phase := if x.flags.getLsbD flLEARN then .learn else .muster

/-- The round chain of tile `k` has run to an end or a wait (R286, R300). -/
def Chip.putRoundChain (c : Chip) (p k : Nat) (w : Work) (e : Option ChainEnd) : Chip :=
  let c := c.putWork k w
  match e with
  | some (.waits ch) => c.updTile k (fun t => { t with tc := { chain := some ch } })
  | _ => (c.updTile k (fun t => { t with tc := { chain := none } })).updPast p (fun x =>
      x.updTile k (fun t => { t with integrated := true, phase := x.afterIntegrate }))

/-- INTEGRATE on tile `k` of pasture `p` (R62, R207, R286). -/
def Chip.integrateTile (c : Chip) (p k : Nat) : Chip :=
  match (c.past p).tileAt k with
  | none => c
  | some t =>
    let x := c.past p
    if !c.runsOn p || t.phase != .integrate || t.integrated then c
    else
      let c := c.updPast p (fun x => { x with progressAt := c.now })
      if !t.core then c.updPast p (fun x => x.updTile k (fun t => { t with integrated := true, phase := x.afterIntegrate }))
      else if tileKind t.tile.val = .neuron then
        let c := c.putWork k (Work.integrateNeuron { t := c.tile k } c.pkg x.round.toNat)
        c.updPast p (fun x => x.updTile k (fun t => { t with integrated := true, phase := x.afterIntegrate }))
      else if (c.tile k).tc.chain.isSome then c
      else
        let r := Work.startRoundChain { t := c.tile k } x.round.toNat
        c.putRoundChain p k r.1 r.2

/-- LEARN on tile `k` of pasture `p` (R62, R246). -/
def Chip.learnTile (c : Chip) (p k : Nat) : Chip :=
  match (c.past p).tileAt k with
  | none => c
  | some t =>
    if !c.runsOn p || t.phase != .learn then c
    else
      let n := (c.past p).round.toNat
      let c := if t.core && tileKind t.tile.val = .neuron then c.putWork k (Work.learn { t := c.tile k } n) else c
      c.updPast p (fun x => { x.updTile k (fun t => { t with phase := .muster }) with progressAt := c.now })

/-- A window wait of tile `k` is met: the chain that stands there runs on (R287). -/
def Chip.windowMet (c : Chip) (k : Nat) : Chip :=
  match (c.tile k).tc.chain with
  | none => c
  | some ch =>
    let w := Work.waitWindow { t := c.tile k } ch
    if (c.tile k).pCore.rd (0x118 + 4 * w.1) < w.2 then c
    else match ch.round with
      | none => (c.chainOn k { ch with waiting := false }).serveOrders k {} ((c.tile k).q.command.length + 1)
      | some _ =>
        match c.ownerOf k with
        | none => c
        | some p =>
          if !c.runsOn p then c
          else
            let r := runChainFrom 64 { ch with waiting := false } { t := c.tile k }
            c.putRoundChain p k r.1 (some r.2)

/-- A pass of the Dense engine has waited 10 ms for its window: its chain ends with STALLED (R299). A round chain goes on
waiting (R300). -/
def Chip.windowTimeout (c : Chip) (k : Nat) : Chip :=
  match (c.tile k).tc.chain with
  | none => c
  | some ch =>
    let w := Work.waitWindow { t := c.tile k } ch
    if w.2 ≤ (c.tile k).pCore.rd (0x118 + 4 * w.1) || ch.round.isSome then c
    else
      let c := c.updTile k (fun t => { t with tc := { chain := none } })
      let st := worse ch.status.toNat stSTALLED
      match ch.entry with
      | some e => c.passPart e.val st 0 false
      | none => match (c.tile k).orders.current with
        | some o => (c.endOrder k o st).serveOrders k {} ((c.tile k).q.command.length + 1)
        | none => c

/-! ### Muster arrival (R67, R225, R317) -/

/-- The busy report of a tile (R67). LEARN never makes work due for a later round (R252). -/
def tileBusy (t : Tile) (core : Bool) : Bool :=
  core && (!t.q.outbound.isEmpty || t.q.foldCount != 0 || t.nc.tally.any (fun e => 4096 ≤ e.1)
    || (t.pCore.code = codeNCORE && t.pCore.rd 0x104 != 0))

/-- Tile `k` of pasture `p` arrives at MUSTER and reports whether it is busy; AWAKE_COUNT is formed anew after a bank write
to neuron or breed records (R67, R225). -/
def Chip.musterArrive (c : Chip) (p k : Nat) : Chip :=
  match (c.past p).tileAt k with
  | none => c
  | some t =>
    if !c.runsOn p || t.phase != .muster then c
    else
      let c := if t.core && (c.tile k).nc.recount && tileKind t.tile.val = .neuron then
          c.putWork k (Work.recountAwake { t := c.tile k }) else c
      let b := tileBusy (c.tile k) t.core
      c.updPast p (fun x =>
        let x := x.updTile k (fun t => { t with phase := .none, busy := b })
        { x with progressAt := c.now, phase := if x.tiles.all (fun t => t.phase == .none) then .muster else x.phase })

/-- This package's part of pasture `p` has arrived at MUSTER: every tile has, and no egress record of it waits for room
(R62, R666). -/
def Chip.allArrived (c : Chip) (p : Nat) : Bool :=
  let x := c.past p
  x.inRound && !x.stalled && x.tiles.all (fun t => t.phase == .none) && !(c.gate.rings.any (fun e => e.2.waiting.any (fun w => w.1 == p)))

end Sys2Proof.Machine
end

