-- ==== Sys2Proof/Machine/Anneal.lean ====
section
/-! DEFINITION. The exchange step of a ladder, its best energy, its stop criteria and the latching of temperatures
(R319–R329, R333, R336). -/

namespace Sys2Proof.Machine

/-- Rounds from one exchange muster to the next. -/
def Ladder.span (l : Ladder) : Nat := l.colours.toNat * l.exchSweeps.toNat

def rungInit : Rung := { temp := 0, replica := 0, tried := 0, swapped := 0 }
def replicaInit : Replica := { energy := 0, rung := 0, report := 0, reported := 0, cores := [] }

/-- Every replica of the ladder lies on this package. -/
def Ladder.local (l : Ladder) : Bool := l.replicas.all (fun r => !r.cores.isEmpty)

/-- The energy of replica `r` that a step compares: the latest report on a free ladder across packages (R323, R324). -/
def Ladder.energyOf (l : Ladder) (r : Nat) : Int :=
  let x := nth replicaInit l.replicas r
  if l.freeMode && !l.local then x.reported else x.energy

/-- The acceptance test of R320 for D and draw `r`. -/
def swapTaken (d : Int) (ta tb r : Nat) : Bool :=
  if 0 ≤ d then true
  else
    let l := ((-2 * d * 94548) / ((max 1 (ta * tb) : Nat) : Int)).toNat
    let i := l / 2 ^ 16
    let f := l % 2 ^ 16
    if 32 ≤ i then false else decide (r < ((131072 - f) * 2 ^ 15) / 2 ^ i)

/-- A 32-bit saturating counter raised by one. -/
def up32 (n : W32) : W32 := BitVec.ofNat 32 (satAdd 32 n.toNat 1)

/-- The pair of rungs `a` and `a + 1` decided (R320, R321). The answer names the replicas moved. -/
def Ladder.pair (l : Ladder) (seed rf a : Nat) : Ladder × List Nat :=
  let ra := nth rungInit l.rungs a
  let rb := nth rungInit l.rungs (a + 1)
  let d := (l.energyOf ra.replica.toNat - l.energyOf rb.replica.toNat) * ((rb.temp.toNat : Int) - ra.temp.toNat)
  let take := swapTaken d ra.temp.toNat rb.temp.toNat (draw seed 2 rf (drawLoc 0 0 a 0))
  let ra1 := { ra with tried := up32 ra.tried, swapped := if take then up32 ra.swapped else ra.swapped }
  if !take then ({ l with rungs := listSet l.rungs a ra1 }, [])
  else
    let rs := listSet (listSet l.rungs a { ra1 with replica := rb.replica }) (a + 1) { rb with replica := ra.replica }
    let ps := l.replicas
    let pa := nth replicaInit ps ra.replica.toNat
    let pb := nth replicaInit ps rb.replica.toNat
    let ps := listSet (listSet ps ra.replica.toNat { pa with rung := BitVec.ofNat 7 (a + 1) }) rb.replica.toNat { pb with rung := BitVec.ofNat 7 a }
    ({ l with rungs := rs, replicas := ps }, [ra.replica.toNat, rb.replica.toNat])

/-- The lower rungs of the pairs of exchange muster `j`, rising (R319). -/
def Ladder.pairs (l : Ladder) (j : Nat) : List Nat :=
  (upto l.rungs.length).filter (fun a => a + 1 < l.rungs.length && a % 2 == (j + 1) % 2)

/-- BEST, its ties to the lower replica index, and the count of musters without a new one (R328). -/
def Ladder.best1 (l : Ladder) (j : Nat) : Ladder :=
  let m := (upto l.replicas.length).foldl (fun (a : Option (Int × Nat)) i =>
    let e := l.energyOf i
    match a with | some (b, _) => if e < b then some (e, i) else a | none => some (e, i)) none
  match m with
  | none => l
  | some (e, i) =>
    if !l.bestSet || e < l.best then
      { l with best := e, bestReplica := BitVec.ofNat 7 i, bestExch := BitVec.ofNat 32 j, bestSet := true, stag := 0 }
    else { l with stag := up32 l.stag }

/-- TEMP_NEXT of the cores of replica `r` written with its rung's temperature (R321). -/
def Chip.writeTemp (c : Chip) (l : Ladder) (r : Nat) : Chip :=
  let x := nth replicaInit l.replicas r
  let t := (nth rungInit l.rungs x.rung.toNat).temp.toNat + x.rung.toNat * 2 ^ 16
  x.cores.foldl (fun c k => c.updTile k (fun u => { u with pCore := u.pCore.wr 0x308 t })) c

/-- The exchange step j of ladder `i`, with BEST: pairs in rising order, then the temperatures (R319–R325, R328). -/
def Chip.exchange (c : Chip) (i : Nat) : Chip :=
  let l := c.ladder i
  let x := c.past l.pasture.val
  let j := l.exchIndex.toNat + 1
  let rf := (l.s0.toNat + j * l.span - 1) % 2 ^ 32
  let seed := unitSeed x.seed.toNat x.imgPkg.toNat
  let r := (l.pairs j).foldl (fun (a : Ladder × List Nat) k =>
    let q := a.1.pair seed rf k
    (q.1, a.2 ++ q.2)) (l, [])
  let l := { r.1.best1 j with exchIndex := BitVec.ofNat 32 j }
  let c := (c.putLadder i l).raise pgANNEAL 0
  r.2.foldl (fun c k => c.writeTemp l k) c

/-- The stop criteria in their order: 0 TARGET, 1 ROUND_LIMIT, 2 STAGNATION (R327). -/
def Ladder.stopReason (l : Ladder) : Option Nat :=
  let j := l.exchIndex.toNat
  if (match l.target with | some t => (upto l.replicas.length).any (fun r => l.energyOf r ≤ sext 32 t.toNat) | none => false) then some 0
  else if l.roundLimit != 0 && l.roundLimit.toNat ≤ j * l.span then some 1
  else if l.stagExch != 0 && l.stagExch.toNat ≤ l.stag.toNat then some 2
  else none

/-- TEMP := TEMP_NEXT on the anneal cores of a pasture (R321, R342). -/
def Chip.latchTemps (c : Chip) (x : Past) : Chip :=
  x.cores.foldl (fun c t =>
    if tileKind t.tile.val = .neuron && bit ((c.tile t.key).pCore.rd 0x300) 0 then
      c.updTile t.key (fun u => { u with pCore := u.pCore.wr 0x304 (u.pCore.rd 0x308) })
    else c) c

/-- E_INEXACT of ladder `i` set (R338). -/
def Chip.inexact (c : Chip) (i : Nat) : Chip := (c.putLadder i { c.ladder i with inexact := true }).raise pgANNEAL 2

/-- The ladder of pasture `p` stops: STOPPED, the command completes, and the pasture holds as if by HOLD (R329, R405). -/
def Chip.stopLadder (c : Chip) (p i reason : Nat) : Chip :=
  let l := c.ladder i
  let c := (c.putLadder i { l with stopping := none }).raise pgANNEAL 1
  match (c.past p).run with
  | none => c.putLadder i { l with running := false, stopping := none }
  | some r =>
    let st := worse (if l.inexact || r.saturated then stSATURATED else stOK) (if r.degraded then stDEGRADED else stOK)
    let c := c.updPast p (fun x => { x with run := none, abortRun := false, tickDue := false, parked := false })
    (c.finishRun p r st reason).holdAsIf p

/-- The exchange musters of pasture `p`: at round `n` when it lies on the grid of s₀ (R319, R322–R324). -/
def Chip.ladderMuster (c : Chip) (p n : Nat) : Chip :=
  match c.ladderOf p with
  | none => c
  | some (i, l) =>
    let c := if (c.past p).cores.any (fun t => (c.tile t.key).nc.satFlag) then c.inexact i else c
    let ran := subMod (2 ^ 32) (n + 1) l.s0.toNat
    if !l.running || l.span = 0 || ran % l.span != 0 then c
    else if l.freeMode && !l.local then
      let j := BitVec.ofNat 32 (ran / l.span)
      let l := c.ladder i
      c.putLadder i { l with replicas := l.replicas.map (fun (r : Replica) =>
        if r.cores.isEmpty then r else { r with report := j, reported := r.energy }) }
    else if l.stopping.isSome then c
    else c.exchange i

/-- The stop of a ladder whose step was taken at this muster. -/
def Chip.ladderStop (c : Chip) (p n : Nat) : Chip :=
  match c.ladderOf p with
  | none => c
  | some (i, l) =>
    let ran := subMod (2 ^ 32) (n + 1) l.s0.toNat
    match l.stopping with
    | some r => c.stopLadder p i r.toNat
    | none =>
      if !l.running || l.span = 0 || ran % l.span != 0 || (l.freeMode && !l.local) then c
      else match l.stopReason with
        | some r => c.stopLadder p i r
        | none => c

/-- FREE_LADDER_STEP of ladder `i` on its root: taken once every replica has reported an index of at least the next j
(R323); a stop holds its pasture at the next muster of it, or at once between rounds (R329). -/
def Chip.freeStep (c : Chip) (i : Nat) : Chip :=
  let l := c.ladder i
  if !l.valid || !l.running || l.stopping.isSome || !l.root || !l.freeMode || l.local || !l.replicas.all (fun r => l.exchIndex.toNat < r.report.toNat) then c
  else
    let c := c.exchange i
    let p := l.pasture.val
    match (c.ladder i).stopReason with
    | none => c
    | some r => if (c.past p).between then c.stopLadder p i r else c.putLadder i { c.ladder i with stopping := some (BitVec.ofNat 3 r) }

end Sys2Proof.Machine
end

