-- ==== Sys2Proof/Machine/Log.lean ====
section
/-! DEFINITION. The round digest, its partial sums, checkpoint captures and the round log (R437, R835–R847). -/

namespace Sys2Proof.Machine

/-- The image of a placed pasture without banks and state. -/
def Past.img (x : Past) : Img :=
  { type := 0, kind := x.kind.toNat, owner := 0, flags := x.flags.toNat, stall := x.stallLimit.toNat
    sliceRounds := x.sliceRounds.toNat, seed := x.seed.toNat, round := x.round.toNat, packages := x.packages.toNat
    length := 0, nvFirst := x.nvFirst.toNat, nvPages := x.nvPages.toNat, sections := x.sections }

/-! ### Digests (R835–R838) -/

/-- A 64-bit value rotated left. -/
def rotl64 (n s : Nat) : Nat := (n * 2 ^ s) % 2 ^ 64 + n % 2 ^ 64 / 2 ^ (64 - s)

/-- The core tiles of the whole image in the order of the logical index (R836). -/
def Past.coreOrder (x : Past) : List (Nat × Nat × Nat) :=
  let m := x.img
  (upto x.packages.toNat).flatMap (fun p => (upto 4).flatMap (fun d =>
    ((m.tilesOf p d).filter (fun e => e.core)).map (fun e => (p, d, e.tile))))

/-- The sum of R836 over this package's core tiles. -/
def Chip.partialSum (c : Chip) (x : Past) : W64 :=
  let l := x.coreOrder
  BitVec.ofNat 64 ((upto l.length).foldl (fun a i =>
    let e := nth (0, 0, 0) l i
    match x.cores.find? (fun t => (t.imgPkg.toNat, t.imgDie.val, t.imgTile.val) == e) with
    | some t => a + rotl64 (crcFinal (c.tile t.key).digest.toNat) (i % 64)
    | none => a) 0)

/-- The digest of round `n` is complete (R837). -/
def Past.completeDigest (x : Past) (n : W32) (d : W64) : Past :=
  { x with digestRound := n, digest := d, partials := x.partials.filter (fun e => e.2.1 != n.toNat)
           digests := if x.log.isSome then x.digests ++ [(n, d)] else x.digests }

/-- A partial sum of package `q` for round `n` reaches the root; the digest is complete once every package's is there. -/
def Past.addPartial (x : Past) (q n : Nat) (s : W64) : Past :=
  let x := { x with partials := x.partials ++ [(q, n, s)] }
  let l := x.partials.filter (fun e => e.2.1 == n)
  if x.pkgMap.all (fun k => l.any (fun e => e.1 == k.toNat)) then
    x.completeDigest (BitVec.ofNat 32 n) (l.foldl (fun a e => a + e.2.2) 0)
  else x

/-- The message of R838. -/
def partialMsg (root p here n : Nat) (s : W64) : List Nat :=
  [({ kind := kDATA, pkg := root, qclass := 1, tag := baseTag pgHEALTH : Hdr }).word
  , 2 ^ 63 + 4 * 2 ^ 48 + (pgHEALTH * 4096 + 0x1B0), p + here * 2 ^ 16, n, s.toNat % 2 ^ 32, s.toNat / 2 ^ 32]

/-- The digest of the round that pasture `p` has just completed (R836, R837). -/
def Chip.digestRound (c : Chip) (p : Nat) : Chip :=
  let x := c.past p
  let n := x.round.toNat
  let s := c.partialSum x
  if x.imgPkg = 0 then c.updPast p (fun x => if x.packages.toNat ≤ 1 then x.completeDigest x.round s else x.addPartial c.pkg n s)
  else c.send (partialMsg (nth (0 : Byte) x.pkgMap 0).toNat p c.pkg n s)

/-! ### The round log (R843–R847) -/

/-- A log at its start. -/
def RoundLog.start (addr : W64) (room cap : Nat) (first : W32) : RoundLog :=
  { addr := addr, room := room, cap := cap, first := first, logged := 0, inputUsed := 0, full := false, broken := false }

/-- The 64-byte header of a log (R844). -/
def RoundLog.header (g : RoundLog) : List Byte :=
  natLe 4 0x4C4B4C47 ++ natLe 4 g.first.toNat ++ natLe 4 g.cap ++ natLe 4 g.logged.toNat ++ natLe 4 g.inputUsed.toNat
    ++ natLe 4 (b2n g.full + 2 * b2n g.broken) ++ List.replicate 40 0

/-- The header of a log written, when it fits. -/
def Chip.logHeader (c : Chip) (g : RoundLog) : Chip :=
  if 64 ≤ g.room then c.hostWrite g.addr.toNat g.header else c

/-- The record of round `n` with digest `d` and input words `ws` in a log: FULL when it does not fit (R846, R847). -/
def Chip.logRound (c : Chip) (g : RoundLog) (n : W32) (d : W64) (ws : Option (List W64)) : Chip × RoundLog :=
  let k := (n - g.first).toNat
  let rl := match ws with | some l => 8 + 8 * l.length | none => 0
  if g.full || g.broken then (c, g)
  else if c.hostStatus.isSome then (c.raise pgHEALTH 7, { g with broken := true })
  else if g.cap ≤ k || g.room < 64 + 8 * g.cap + g.inputUsed.toNat + rl then
    let g := { g with full := true }
    (c.logHeader g, g)
  else
    let c := match ws with
      | some l => c.hostWrite (g.addr.toNat + 64 + 8 * g.cap + g.inputUsed.toNat)
          (natLe 4 n.toNat ++ natLe 4 l.length ++ l.flatMap (fun (w : W64) => natLe 8 w.toNat))
      | none => c
    let c := (upto (k + 1 - g.logged.toNat)).foldl (fun c i =>
      let j := g.logged.toNat + i
      c.hostWrite (g.addr.toNat + 64 + 8 * j) (natLe 8 (if j = k then d.toNat else 0))) c
    let g := { g with logged := BitVec.ofNat 32 (k + 1), inputUsed := g.inputUsed + BitVec.ofNat 32 rl }
    (c.logHeader g, g)

/-- LOG_WRITE of pasture `p`: the oldest round whose digest is complete and which the log does not hold (R846). -/
def Chip.logWrite (c : Chip) (p : Nat) : Chip :=
  let x := c.past p
  match x.log, x.digests with
  | some g, (n, d) :: ds =>
    let ws := (x.inputs.find? (fun e => e.1 == n)).map (fun e => e.2)
    let x1 := { x with digests := ds, inputs := x.inputs.filter (fun e => e.1 != n) }
    if (n - g.first).toNat < 2 ^ 31 then
      let r := c.logRound g n d ws
      r.1.putPast p { x1 with log := some r.2 }
    else c.putPast p x1
  | _, _ => c

/-- Every complete round still out of the log written, before the log gives way to another. -/
def Chip.logFlush (c : Chip) (p : Nat) : Nat → Chip
  | 0 => c
  | f + 1 => if (c.past p).digests.isEmpty then c else (c.logWrite p).logFlush p f

/-- The input record of the round that pasture `p` has just completed (R845). -/
def Past.keepInputs (x : Past) : Past :=
  if x.log.isNone || x.entered.isEmpty then x
  else
    let keys := sortNats (x.entered.map (fun e => e.1)).eraseDups
    { x with inputs := x.inputs ++ [(x.round, keys.flatMap (fun k => (x.entered.filter (fun e => e.1 == k)).map (fun e => e.2)))] }

/-! ### Captures (R437, R441, R841–R843) -/

/-- Where a capture goes: its host address, the bytes there, and its ring slot. -/
structure CapPlace where
  addr : Nat
  len : Nat
  slot : Option Nat

/-- The CRC-32C over the BANK and STATE sections of each image die of an image (R856). -/
def sectionCrcs (b : List Byte) : List (Nat × Nat) :=
  let m := Img.read b
  (upto 4).map (fun d => (d, crc32c ((m.sections.filter (fun s =>
    (s.type.toNat == 4 || s.type.toNat == 11) && s.imgDie.toNat == d)).flatMap (fun s => s.bytes))))

/-- A capture of pasture `p` at `w`: it starts a log when LOG_EN is 1 and it goes into a ring. The answer is a status and
the CRCs of its sections. -/
def Chip.captureTo (c : Chip) (p : Nat) (w : CapPlace) : Chip × Nat × List (Nat × Nat) :=
  let r := c.captureImage p 2 0
  match r.2 with
  | none => (r.1, stUNCORRECTED, [])
  | some b0 =>
    if w.len < b0.length then (r.1, stBAD_OPERAND, [])
    else
      let c := c.logFlush p ((c.past p).digests.length + 1)
      let logs := (c.past p).logEnable && w.slot.isSome
      let off := ceilDiv b0.length 64 * 64
      let r := c.captureImage p 2 (if logs && off < w.len then off else 0)
      let b := r.2.getD b0
      match c.hostStatus with
      | some st => (r.1.count pgGATE 0x148 1, st, [])
      | none =>
        let c := r.1.hostWrite w.addr b
        let x := c.past p
        let g := RoundLog.start (BitVec.ofNat 64 (w.addr + off)) (w.len - off) (64 * x.digestCap.toNat) x.round
        let c := c.updPast p (fun x => { x with
          inputs := [], digests := [], roundsSinceCkpt := 0
          log := if w.slot.isNone then x.log else if logs && off < w.len then some g else none })
        let c := if logs && off < w.len then c.logHeader g else c
        (c, stOK, sectionCrcs b)

/-- The ring advances after a capture into slot `s` (R447). -/
def Past.ringDone (x : Past) (s : Nat) : Past :=
  { x with ring := x.ring.map (fun (g : CkptRing) =>
      { g with next := BitVec.ofNat 16 ((s + 1) % max 1 g.slots.toNat), newest := some (BitVec.ofNat 16 s, x.round) }) }

/-- The place of a ring's next slot. -/
def CkptRing.place (g : CkptRing) : CapPlace :=
  { addr := g.base.toNat + g.next.toNat * g.slotLen.toNat, len := g.slotLen.toNat, slot := some g.next.toNat }

/-- The tiles of pasture `p` whose units wait for its checkpoint boundary (R855). -/
def Chip.deferredUnits (c : Chip) (p : Nat) : List Nat :=
  ((c.past p).tiles.flatMap (fun t => if t.core then [coreUnit t.key, bankUnit t.key, routerUnit t.key] else [routerUnit t.key])).filter
    (fun u => (c.unit u).deferred)

/-- A capture at `w` makes its muster a boundary: a maintenance hold while the deferred tests run (R856). -/
def Chip.boundary (c : Chip) (p : Nat) (w : CapPlace) (crcs : List (Nat × Nat)) : Chip :=
  if (c.deferredUnits p).isEmpty then c
  else c.updPast p (fun x => { x with maintenance := true, boundary := some (BitVec.ofNat 64 w.addr, crcs) })

/-- The capture of CHECKPOINT entry `e` of pasture `p` (R437, R447). -/
def Chip.checkpoint (c : Chip) (p e : Nat) : Chip :=
  let x := c.entry e
  let dst := x.bytes 32 8
  let len := x.bytes 40 4
  let reg := bit (x.bytes 44 4) 0
  let slots := bits (x.bytes 44 4) 31 16
  let old := (c.past p).ring
  let place : Option CapPlace :=
    if dst = 0 then (match old with
      | some g => some g.place
      | none => none)
    else some { addr := dst, len := len, slot := if reg then some 0 else none }
  match place with
  | none => c.finishBad e stBAD_OPERAND
  | some w =>
    let c0 := if reg then c.updPast p (fun y => { y with ring := some {
        base := BitVec.ofNat 64 dst, slotLen := BitVec.ofNat 32 len, slots := BitVec.ofNat 16 slots, next := 0, newest := none } }) else c
    let r := c0.captureTo p w
    if r.2.1 != stOK then (r.1.updPast p (fun y => { y with ring := old })).finishBad e r.2.1
    else
      let c := match w.slot with | some s => r.1.updPast p (fun y => y.ringDone s) | none => r.1
      let c := c.boundary p w r.2.2
      c.finishOk e ((c.past p).round.toNat + (w.slot.getD 0) * 2 ^ 32)

end Sys2Proof.Machine
end

