-- ==== Sys2Proof/Machine/Moves.lean ====
section
/-! DEFINITION. Moving a pasture: the page area, page-out and page-in, time-slicing and the shift (R435, R436, R462–R464,
R472–R479, R484, R486, R490, R855). -/

namespace Sys2Proof.Machine

/-! ### The page area (R472, R492) -/

def Chip.areaBase (c : Chip) : Nat := (c.page pgPLACE).rd 0x100 + (c.page pgPLACE).rd 0x104 * 2 ^ 32
def Chip.areaBytes (c : Chip) : Nat := (c.page pgPLACE).rd 0x108 * 2 ^ 20

/-- The page images in the page area, as address and length. -/
def Chip.areaUsed (c : Chip) : List (Nat × Nat) :=
  (c.pasts.filter (fun e => e.2.presence == .pagedOut && e.2.inPageArea)).map (fun e => (e.2.pageAddr.toNat, e.2.pageLen))

/-- First fit of `n` bytes at 64-byte alignment in the page area. -/
def Chip.areaFit (c : Chip) (n : Nat) : Option Nat :=
  let base := c.areaBase
  let used := c.areaUsed
  let free (a : Nat) : Bool := a + n ≤ base + c.areaBytes && used.all (fun u => u.1 + u.2 ≤ a || a + n ≤ u.1)
  ((base :: sortNats (used.map (fun u => ceilDiv (u.1 + u.2) 64 * 64))).filter free).head?

/-! ### Page-out and page-in -/

/-- Pasture `p`, whose image now lies at `a`, leaves its tiles (R435). -/
def Chip.evict (c : Chip) (p a len : Nat) (inArea : Bool) : Chip :=
  (c.freeTiles p (c.past p).tiles).updPast p (fun x => { x with
    presence := .pagedOut, tiles := [], pageAddr := BitVec.ofNat 64 a, pageLen := len, inPageArea := inArea
    tickDue := false, parked := false, phase := .none })

/-- A search over the packages that image package 0 may take: this one first, then the others, where a part of the image
lies here (R462, assumption 20). -/
def Chip.searchAll (c : Chip) (m : Img) (barred : Nat → Bool) : Option PlaceMap :=
  (c.pkg :: (upto c.machineSize).filter (fun q => q != c.pkg)).findSome? (fun b => c.searchFrom m b 0 barred)

/-- Paged-out pasture `p` placed from the page image `b`; the answer is a status (R436). -/
def Chip.pageInFrom (c : Chip) (p : Nat) (b : List Byte) : Chip × Nat :=
  let m := Img.read b
  if !imgOk b b.length 1 || m.owner != p then (c, stBAD_OPERAND)
  else match c.searchAll m (fun _ => false) with
    | none => (c.noPlace, stNO_PLACE)
    | some pm =>
      let c := c.install p m pm false
      ((c.updPast p (fun x => { x with pageLen := 0, inPageArea := false, sliceRan := 0, residentSince := c.now })).placed, stOK)

/-- The image of a pasture paged out to the page area, as it stands in host memory. -/
def Chip.areaImage (c : Chip) (p : Nat) : List Byte := memReadN c.host (c.past p).pageAddr.toNat (c.past p).pageLen

/-- The Shepherd pages pasture `p` in from the page area; a SLICEABLE one that finds no placement joins the slice queue
(R474, R475). -/
def Chip.shepherdIn (c : Chip) (p : Nat) : Chip × Nat :=
  match c.hostStatus with
  | some st => (c, st)
  | none =>
    let r := c.pageInFrom p (c.areaImage p)
    if r.2 = stNO_PLACE && (c.past p).flags.getLsbD flSLICEABLE then
      ({ r.1 with sliceQ := if r.1.sliceQ.any (fun q => q.val == p) then r.1.sliceQ else r.1.sliceQ ++ [Fin.ofNat 1024 p] }, stOK)
    else (if r.2 = stOK then r.1.due p else r.1, r.2)

/-! ### Time-slicing (R475–R477, R486) -/

/-- Without pasture `v`, pasture `h` of the page area could be placed. -/
def Chip.letsIn (c : Chip) (v h : Nat) : Bool :=
  let s := c.evict v 0 0 false
  (s.searchAll (Img.read (c.areaImage h)) (fun _ => false)).isSome

/-- The pasture to page out at a muster of pasture `p` for the head of the slice queue: IDLE and HELD ones first, longest
resident first, then `p` (R476). -/
def Chip.sliceVictim (c : Chip) (p : Nat) : Option (Nat × Nat) :=
  match c.sliceQ with
  | [] => none
  | h :: _ =>
    let x := c.past p
    if !x.flags.getLsbD flSLICEABLE || x.sliceRan.toNat < x.sliceRounds.toNat || c.hostStatus.isSome then none
    else
      let rest := sortBy (fun a b => decide ((c.past a).residentSince ≤ (c.past b).residentSince))
        (c.residents.filter (fun q => q != p && (c.past q).flags.getLsbD flSLICEABLE && !(c.past q).running && (c.past q).between))
      ((rest ++ [p]).find? (fun v => c.letsIn v h.val)).map (fun v => (v, h.val))

/-- A slice exchange: pasture `v` goes to the page area, the head comes in, and `v` joins the tail of the queue. -/
def Chip.sliceOut (c : Chip) (v h : Nat) : Chip :=
  let r := c.captureImage v 1 0
  match r.2 with
  | none => r.1
  | some b =>
    match r.1.areaFit b.length with
    | none => r.1.raise pgPLACE 3
    | some a =>
      let c := (r.1.hostWrite a b).evict v a b.length true
      let q := c.pageInFrom h (c.areaImage h)
      if q.2 != stOK then q.1
      else
        let c := { q.1 with sliceQ := q.1.sliceQ.drop 1 ++ [Fin.ofNat 1024 v] }
        ((c.count pgPLACE 0x16C 1).raise pgPLACE 2).due h

/-! ### Shift (R478, R479, R484, R490) -/

/-- The loaded registers of a core page (R480). -/
def loadedReg (code off : Nat) : Bool :=
  if code = codeNCORE then (0x104 ≤ off && off ≤ 0x110) || (0x200 ≤ off && off ≤ 0x3FF)
  else (0x104 ≤ off && off ≤ 0x120) || 0x380 ≤ off

/-- The loaded registers and local counters of tile `u` put into tile `t`. -/
def copyLoaded (u t : Tile) : Tile :=
  { t with pCore := (u.pCore.regs.filter (fun e => loadedReg u.pCore.code e.1)).foldl (fun p e => p.wr e.1 e.2.toNat) t.pCore.clearCore
           orders := { t.orders with lsync := u.orders.lsync } }

/-- The new map of a shift: every image package on its package, no core tile of the old footprint, off the dies of `avoid`. -/
def Chip.shiftMap (c : Chip) (p avoid : Nat) : Option PlaceMap :=
  let x := c.past p
  let old := x.cores.map (fun t => t.key)
  (c.searchDies { img := x.img, here := x.imgPkg.toNat, avoid := avoid, barred := fun k => old.contains k
                  ignore := fun q => q == p }).map (fun l => { x.map with dies := l })

/-- No unit of the pasture's touched set is FENCED or OFF. -/
def Chip.offFences (c : Chip) (p : Nat) : Bool :=
  (c.past p).tiles.all (fun t =>
    let ok (u : Nat) : Bool := 1 < unitNum (c.unit u).applied
    ok (routerUnit t.key) && (!t.core || (ok (coreUnit t.key) && ok (bankUnit t.key)))
      && (tileKind t.tile.val != .port || ok (vlinkUnit t.key)))

/-- Pasture `p` moved to a new footprint: the answer is a status and the tiles moved. -/
def Chip.shiftPast (c : Chip) (p avoid : Nat) : Chip × Nat × Nat :=
  let x := c.past p
  match c.shiftMap p avoid with
  | none => (c.noPlace, stNO_PLACE, 0)
  | some pm =>
    let r := c.captureImage p 1 0
    match r.2 with
    | none => (r.1.faultHoldPast p stUNCORRECTED, stUNCORRECTED, 0)
    | some b =>
      let old := x.cores.map (fun t => (t, translateTile x.map.toImage (r.1.tile t.key)))
      let c := (r.1.freeTiles p x.tiles).install p (Img.read b) pm false
      let y := c.past p
      let c := old.foldl (fun c e =>
        match y.cores.find? (fun t => t.imgDie == e.1.imgDie && t.imgTile == e.1.imgTile) with
        | some t => c.updTile t.key (copyLoaded (translateTile pm.toPhys e.2))
        | none => c) c
      let moved := (x.tiles.filter (fun t => y.tiles.all (fun s => !(s.imgDie == t.imgDie && s.imgTile == t.imgTile && s.key == t.key)))).length
      let c := (c.count pgPLACE 0x168 1).raise pgPLACE 1
      let c := if (c.past p).faultHold = some (BitVec.ofNat 8 stFENCED) && c.offFences p then c.endFault p else c
      (c, stOK, moved)

/-- SHIFT entry `e` takes effect (R410, R488). -/
def Chip.shift (c : Chip) (p e avoid : Nat) : Chip :=
  let r := c.shiftPast p avoid
  r.1.finish e r.2.1 ((r.1.past p).round.toNat + r.2.2 * 2 ^ 32) (progressWord (if r.2.1 = stOK then 100 else 0) 0)

/-- Live entries of TEST_UNIT that run for unit `u`. -/
def Chip.testsFor (c : Chip) (u : Nat) : List Nat :=
  (c.live.filter (fun e => e.2.state == .running && e.2.opcode == 0x07
    && unitKey (bits (e.2.bytes 32 4) 22 20) (bits (e.2.bytes 32 4) 9 8) (bits (e.2.bytes 32 4) 17 10) == u)).map (fun e => e.1)

/-- Step 1 of R855 for the deferred units of pasture `p`: the shift that frees them, when the pasture is SHIFTABLE. -/
def Chip.testShift (c : Chip) (p : Nat) : Chip :=
  let us := c.deferredUnits p
  if us.isEmpty || !(c.past p).flags.getLsbD flSHIFTABLE || (c.shiftMap p 0).isNone then c
  else
    let r := c.shiftPast p 0
    if r.2.1 != stOK then r.1
    else us.foldl (fun c u =>
      if c.liveUnit u then c
      else (c.testsFor u).foldl (fun c e => c.updEntry e (fun x => { x with testFlags := x.testFlags ||| 1 }))
        (c.updUnit u (fun x => { x with deferred := false, due := true }))) (r.1.count pgHEALTH 0x188 1)

end Sys2Proof.Machine
end

