-- ==== Sys2Proof/Machine/Nv.lean ====
section
/-! DEFINITION. The NV store: page reads with their other copy, page writes in order, the save of an area with its intent and
flip records, loads, and the shelter save (R524–R536, R543, R544). -/

namespace Sys2Proof.Machine

def Chip.nvMeta (c : Chip) (pg : Nat) : NvMeta := mapGet nvInfoDefault c.nv.info pg
def Chip.putMeta (c : Chip) (pg : Nat) (m : NvMeta) : Chip := { c with nv := { c.nv with info := mapSet nvInfoDefault c.nv.info pg m } }

/-- The 4,096 data bytes of page `pg`. -/
def Chip.nvData (c : Chip) (pg : Nat) : List Byte := memReadN c.nv.data (4096 * pg) 4096

/-- The CRC of page `pg` passes (R523). -/
def Chip.nvGood (c : Chip) (pg : Nat) : Bool := crc32c (c.nvData pg) == (c.nvMeta pg).crc.toNat

/-- Page `pg` marked suspect (R524). -/
def Chip.suspect (c : Chip) (pg : Nat) : Chip :=
  let c := if (c.nvMeta pg).suspect then c else c.count pgNVS 0x14C 1
  (c.putMeta pg { c.nvMeta pg with suspect := true }).raise pgNVS 0

/-- Page `pg` read, or the same page `other` of the other copy; none when both fail. The flag tells a page of the other
copy (R524). -/
def Chip.nvRead (c : Chip) (pg other : Nat) : Chip × Option (List Byte × Bool) :=
  let c := c.countWrap pgNVS 0x144 1
  if c.nvGood pg then (c, some (c.nvData pg, false))
  else
    let c := (c.count pgNVS 0x148 3).countWrap pgNVS 0x144 1
    if c.nvGood other then (c.suspect pg, some (c.nvData other, true))
    else (((c.count pgNVS 0x148 3).count pgNVS 0x154 1).raise pgNVS 1, none)

/-- The page of weight-region page `i` in a copy, and the same page of the other copy. -/
def weightPage (copyB : Bool) (i : Nat) : Nat := i + if copyB then 8192 else 0

/-- Bytes off … off + n − 1 of the active copy of the weight region; copy A where no area record covers a page (R433). -/
def Chip.nvBytes (c : Chip) (off n : Nat) : Chip × Option (List Byte) :=
  let first := off / 4096
  let count := if n = 0 then 0 else (off + n - 1) / 4096 + 1 - first
  let r := (upto count).foldl (fun (a : Chip × Option (List Byte)) i =>
    match a.2 with
    | none => a
    | some l =>
      let b := (a.1.validAreas.find? (fun e => e.2.overlaps (first + i) 1)).any (fun e => e.2.activeB)
      let q := a.1.nvRead (weightPage b (first + i)) (weightPage (!b) (first + i))
      (q.1, q.2.map (fun d => l ++ d.1))) (c, some [])
  (r.1, r.2.map (fun l => slice l (off % 4096) n))

/-! ### The pages of an area (R529) -/

/-- The pages of pasture `p`'s area in order: tile key, page of the tile, and the tile's regions. -/
def Past.areaPages (x : Past) : List (Nat × Nat × Nat) :=
  (x.img.areaTiles x.imgPkg.toNat).flatMap (fun e =>
    match x.tiles.find? (fun t => t.imgDie.val == e.1 && t.imgTile.val == e.2.tile) with
    | some t => let r := regionsOf e.2.fold; (upto (ceilDiv r 4)).map (fun j => (t.key, j, r))
    | none => [])

/-- The regions of a page. -/
def pageRegions (j r : Nat) : List Nat := (upto 4).filterMap (fun i => if 4 * j + i < r then some (4 * j + i) else none)

/-- Region `i` of tile `k` is dirty; a dirty-map word that cannot be corrected counts as dirty. -/
def Chip.dirty (c : Chip) (k i : Nat) : Bool :=
  match (Work.read { t := c.tile k } (offDirty / 8 + i / 64)).2 with
  | some d => bit d (i % 64)
  | none => true

/-- The dirty bit of region `i` of tile `k` cleared. -/
def Chip.cleanRegion (c : Chip) (k i : Nat) : Chip :=
  let w := offDirty / 8 + i / 64
  let r := Work.read { t := c.tile k } w
  match r.2 with
  | some d => if bit d (i % 64) then c.putWork k (Work.write r.1 w (d - 2 ^ (i % 64))).recountDirty else c
  | none => c.putWork k r.1

/-- The dirty bits of the regions a failed save has read are set again (R531). -/
def Chip.soilRegions (c : Chip) (l : List (Nat × Nat)) : Chip :=
  l.foldl (fun c e => c.putWork e.1 (Work.setDirty { t := c.tile e.1 } (1024 * e.2))) c

/-- Region `i` of tile `k` read for a save, its dirty bit cleared; none when a word cannot be corrected. -/
def Chip.readRegion (c : Chip) (k i : Nat) : Chip × Option (List Byte) :=
  let r := Work.reads { t := (c.cleanRegion k i).tile k } (128 * i) 128
  let c := (c.cleanRegion k i).putWork k r.1
  (c, if r.2.all (fun w => w.isSome) then some (r.2.flatMap (fun w => natLe 8 (w.getD 0))) else none)

/-- A page of the area read from the banks: its bytes and the regions read. -/
def Chip.readAreaPage (c : Chip) (e : Nat × Nat × Nat) : Chip × Option (List Byte) × List (Nat × Nat) :=
  let l := pageRegions e.2.1 e.2.2
  let r := l.foldl (fun (a : Chip × Option (List Byte)) i =>
    let q := a.1.readRegion e.1 i
    (q.1, match a.2, q.2 with | some x, some y => some (x ++ y) | _, _ => none)) (c, some [])
  (r.1, r.2.map (fun b => b ++ List.replicate (4096 - b.length) 0), l.map (fun i => (e.1, i)))

/-! ### Saves (R526, R531) -/

/-- The copy of area record `i` to write: the one with the lower generation (R525). -/
def Chip.recordWrite (c : Chip) (i : Nat) : NvWrite :=
  let a := sysPage (784 + i / 2)
  let b := sysPage (816 + i / 2)
  let ga := (c.nvMeta a).gen.toNat
  let gb := (c.nvMeta b).gen.toNat
  { page := if ga ≤ gb then a else b, data := none, gen := BitVec.ofNat 32 (max ga gb + 1), why := .save i }

def Chip.queueWrites (c : Chip) (l : List NvWrite) : Chip := { c with nv := { c.nv with queue := c.nv.queue ++ l } }

/-- The job of area `i`. -/
def Chip.jobOf (c : Chip) (i : Nat) : Option SaveJob := c.nv.jobs.find? (fun j => j.area == i)
def Chip.putJob (c : Chip) (j : SaveJob) : Chip :=
  { c with nv := { c.nv with jobs := c.nv.jobs.map (fun k => if k.area = j.area then j else k) } }
def Chip.dropJob (c : Chip) (i : Nat) : Chip :=
  { c with nv := { c.nv with jobs := c.nv.jobs.filter (fun k => k.area != i)
                             queue := c.nv.queue.filter (fun w => w.why != .save i) } }

/-- Steps 1 to 3 of a save of pasture `p`'s area begun now, for command `e` or for the shelter save. The answer is a status. -/
def Chip.beginSave (c : Chip) (p : Nat) (all : Bool) (e : Option EntryId) : Chip × Nat :=
  match c.areaOf p with
  | none => (c, stBAD_OPERAND)
  | some (i, a) =>
    let pages := (c.past p).areaPages
    if pages.any (fun g => !c.bankOn g.1) then (c, stASLEEP)
    else
      let isDirty (n : Nat) : Bool := match pages.drop n with
        | g :: _ => (pageRegions g.2.1 g.2.2).any (fun r => c.dirty g.1 r)
        | [] => false
      let readSet := (upto a.pages).filter (fun n => all || !a.written || isDirty n)
      let catchUp := a.lag.filter (fun n => !readSet.contains n)
      let r := readSet.foldl (fun (s : Chip × Bool × List NvWrite × List (Nat × Nat)) n =>
        let pg := weightPage (!a.activeB) (a.first + n)
        let mk (b : List Byte) : NvWrite := { page := pg, data := some b, gen := (s.1.nvMeta pg).gen + 1, why := .save i }
        match pages.drop n with
        | [] => (s.1, s.2.1, s.2.2.1 ++ [mk (List.replicate 4096 0)], s.2.2.2)
        | g :: _ =>
          let q := s.1.readAreaPage g
          match q.2.1 with
          | some b => (q.1, s.2.1, s.2.2.1 ++ [mk b], s.2.2.2 ++ q.2.2)
          | none => (q.1, false, s.2.2.1, s.2.2.2 ++ q.2.2)) (c, true, [], [])
      if !r.2.1 then (r.1.soilRegions r.2.2.2, stUNCORRECTED)
      else
        let j : SaveJob := { area := i, pasture := Fin.ofNat 1024 p, entry := e, stage := .intent, readSet := readSet
                             catchUp := catchUp, writes := r.2.2.1, cleaned := r.2.2.2, left := 1, written := 0 }
        let c := { r.1 with nv := { r.1.nv with jobs := r.1.nv.jobs ++ [j] } }
        (c.queueWrites [c.recordWrite i], stOK)

/-- SHELTER_STATUS and SHELTER_TIME of a shelter save that has nothing left to do; SHELTER_DONE (R533–R535, R548). -/
def Chip.shelterDone (c : Chip) : Chip :=
  match c.nv.shelter with
  | none => c
  | some s =>
    if !s.waiting.isEmpty || c.nv.jobs.any (fun j => j.entry.isNone) then c
    else
      let c := { c with nv := { c.nv with shelter := none } }
      (c.updPage pgNVS (fun p => (p.wr 0x124 (2 + 4 * b2n s.failed + s.saved % 256 * 2 ^ 8 + min 0xFFFF s.written * 2 ^ 16)).wr 0x128
        ((c.now - s.startedAt) / 1000))).raise pgNVS 5

def Chip.updShelter (c : Chip) (f : Shelter → Shelter) : Chip := { c with nv := { c.nv with shelter := c.nv.shelter.map f } }

/-- An area of the shelter save has failed. -/
def Chip.shelterFail (c : Chip) : Chip := (c.updShelter (fun s => { s with failed := true })).raise pgNVS 6

/-- Pasture `p` holds with POWER_STORM: at once when no round is coming, else at its next muster (R395, R446, R779). -/
def Chip.stormHoldPast (c : Chip) (p : Nat) : Chip :=
  let x := c.past p
  if !x.resident then c else if x.run.isNone || x.held then c.faultNow p stPOWER_STORM else c.holdNext p stPOWER_STORM

/-- The shelter save reads the pasture `p` now, unless a save of its area still runs (R534, R535); with STORM_POLICY HOLD it
then holds (R779). -/
def Chip.shelterRead (c : Chip) (p : Nat) : Chip :=
  match c.nv.shelter with
  | none => c
  | some s =>
    if !(s.waiting.any (fun q => q.val == p)) || (match c.areaOf p with | some (i, _) => (c.jobOf i).isSome | none => false) then c
    else
      let c := c.updShelter (fun s => { s with waiting := s.waiting.filter (fun q => q.val != p) })
      let r := if (c.past p).resident then c.beginSave p false none else (c, stBUSY_PASTURE)
      let c := if r.2 = stOK then r.1 else (if r.2 = stBUSY_PASTURE then c else r.1.shelterFail).shelterDone
      if s.hold then c.stormHoldPast p else c

/-- A shelter save starts: every area of a resident pasture with a dirty region, in rising pasture (R533–R535). -/
def Chip.shelterStart (c : Chip) : Chip :=
  if c.nv.shelter.isSome || !c.domOn domNV then c
  else
    let soiled (p : Nat) : Bool := (c.areaOf p).isSome
      && (c.past p).areaPages.any (fun g => c.bankOn g.1 && (pageRegions g.2.1 g.2.2).any (fun r => c.dirty g.1 r))
    let ps := c.residents.filter soiled
    let c := c.updPage pgNVS (fun p => p.wr 0x124 0)
    let s : Shelter := { waiting := ps.map (fun p => Fin.ofNat 1024 p), saved := 0, written := 0, failed := false, startedAt := c.now, hold := false }
    let c := { c with nv := { c.nv with shelter := some s } }
    (ps.foldl (fun c p => if (c.past p).between then c.shelterRead p else c) c).shelterDone

/-- POWER_STORM, with STORM_POLICY HOLD when `hold` is set (R533, R535, R779). -/
def Chip.powerStorm (c : Chip) (hold : Bool) : Chip :=
  let c := c.shelterStart
  if !hold then c
  else
    let c := c.updShelter (fun s => { s with hold := true })
    let waits (p : Nat) : Bool := match c.nv.shelter with | some s => s.waiting.any (fun q => q.val == p) | none => false
    (c.residents.filter (fun p => !waits p)).foldl (fun c p => c.stormHoldPast p) c

/-- POWER_CALM ends every hold with POWER_STORM (R780). -/
def Chip.powerCalm (c : Chip) : Chip :=
  let c := c.updShelter (fun s => { s with hold := false })
  c.residents.foldl (fun c p =>
    let x := c.past p
    let c := c.updPast p (fun x => { x with storm := false
                                            pendingFault := if x.pendingFault = some (BitVec.ofNat 8 stPOWER_STORM) then none else x.pendingFault })
    if x.storm then c.resume p else c) c

/-- The save of area `i` ends with `st`: its command completes, or the shelter save counts it. A save that fails leaves the
active copy and sets the dirty bits again (R531). -/
def Chip.endSave (c : Chip) (i st : Nat) : Chip :=
  match c.jobOf i with
  | none => c
  | some j =>
    let c := c.dropJob i
    let c := if st = stOK then c else c.soilRegions j.cleaned
    let c := match j.entry with
      | some e => if st = stOK then c.finishOk e.val j.written else c.finish e.val st 0 (progressWord 0 j.written)
      | none => if st = stOK then c.updShelter (fun s => { s with saved := s.saved + 1, written := s.written + j.written }) else c.shelterFail
    (c.shelterRead j.pasture.val).shelterDone

/-- A sorted list without repeats. -/
def sortedSet (l : List Nat) : List Nat := sortNats l.eraseDups

/-- The stage of a save that has no write left ends, and the next begins (R531). -/
def Chip.nextStage (c : Chip) (i : Nat) : Chip :=
  match c.jobOf i with
  | none => c
  | some j =>
    if j.left != 0 then c
    else
      let a := c.area i
      let flip (c : Chip) (j : SaveJob) : Chip := (c.putJob { j with stage := .flip, left := 1 }).queueWrites [c.recordWrite i]
      match j.stage with
      | .intent =>
        let c := c.putArea i { a with lag := sortedSet (a.lag ++ j.readSet ++ j.catchUp), gen := a.gen + 1 }
        let r := j.catchUp.foldl (fun (s : Chip × Bool × List NvWrite) n =>
          let q := s.1.nvRead (weightPage a.activeB (a.first + n)) (weightPage (!a.activeB) (a.first + n))
          let pg := weightPage (!a.activeB) (a.first + n)
          match q.2 with
          | some b => (q.1, s.2.1, s.2.2 ++ [{ page := pg, data := some b.1, gen := (q.1.nvMeta pg).gen + 1, why := .save i }])
          | none => (q.1, false, s.2.2)) (c, true, [])
        if !r.2.1 then r.1.endSave i stNV_COPY_FAIL
        else
          let l := j.writes ++ r.2.2
          if l.isEmpty then flip r.1 j
          else (r.1.putJob { j with stage := .pages, left := l.length, writes := [] }).queueWrites l
      | .pages => flip c j
      | .flip =>
        let old := a.activeB
        let bad := (upto a.pages).filter (fun n => (c.nvMeta (weightPage old (a.first + n))).suspect)
        let c := c.putArea i { a with activeB := !old, written := true, lag := sortedSet (j.readSet ++ bad), gen := a.gen + 1 }
        c.endSave i stOK

/-- One programming of page `pg`. -/
def Chip.program (c : Chip) (pg : Nat) : Chip :=
  let m := c.nvMeta pg
  let c := c.putMeta pg { m with writes := m.writes + 1 }
  if m.writes.toNat + 1 = 100000 then c.raise pgNVS 4 else c

/-- NV_PAGE_WRITE: the page write at the head of the queue is programmed and verified, once more when that fails (R526,
R527, R544). -/
def Chip.nvPageWrite (c : Chip) (ok retry : Bool) : Chip :=
  match c.nv.queue with
  | [] => c
  | w :: q =>
    let c := { c with nv := { c.nv with queue := q } }
    let c := c.program w.page
    let c := if ok then c else (((c.program w.page).count pgNVS 0x158 1).raise pgNVS 2)
    let good := ok || retry
    let c := match w.data with
      | some b =>
        let m := c.nvMeta w.page
        let crc := crc32c b ^^^ b2n (!good)
        ({ c with nv := { c.nv with data := memWriteN c.nv.data (4096 * w.page) b } }).putMeta w.page
          { m with gen := w.gen, crc := BitVec.ofNat 32 crc, suspect := m.suspect && !good }
      | none => c.putMeta w.page { c.nvMeta w.page with gen := w.gen }
    let c := c.countWrap pgNVS 0x140 1
    let c := if good then c
      else ((c.putMeta w.page { c.nvMeta w.page with worn := true }).count pgNVS 0x15C 1).raise pgNVS 3
    match w.why with
    | .save i =>
      if !good then c.endSave i stUNCORRECTED
      else match c.jobOf i with
        | none => c
        | some j => (c.putJob { j with left := j.left - 1, written := j.written + b2n w.data.isSome }).nextStage i
    | .firmware =>
      if good then c else { c with crook := { c.crook with session := c.crook.session.map (fun s => { s with failed := true }) } }

/-- NV_LOAD of pasture `p`: the pages read, the pages taken from the other copy, and a status (R532). -/
def Chip.nvLoad (c : Chip) (p : Nat) : Chip × Nat × Nat × Nat :=
  match c.areaOf p with
  | none => (c, stBAD_OPERAND, 0, 0)
  | some (_, a) =>
    if !a.written then (c, stBAD_OPERAND, 0, 0)
    else
      let pages := (c.past p).areaPages
      (upto a.pages).foldl (fun (s : Chip × Nat × Nat × Nat) n =>
        if s.2.1 != stOK then s
        else
          let r := s.1.nvRead (weightPage a.activeB (a.first + n)) (weightPage (!a.activeB) (a.first + n))
          match r.2 with
          | none => (r.1, stNV_COPY_FAIL, s.2.2.1, s.2.2.2)
          | some (b, other) =>
            let c := if other && a.lag.contains n then r.1.count pgNVS 0x150 1 else r.1
            let c := match pages.drop n with
              | g :: _ => (pageRegions g.2.1 g.2.2).foldl (fun c i =>
                  (upto 128).foldl (fun c w => c.putWork g.1 (Work.write { t := c.tile g.1 } (128 * i + w) (leAt b (1024 * (i % 4) + 8 * w) 8))) c) c
              | [] => c
            (c, stOK, s.2.2.1 + 1, s.2.2.2 + b2n other)) (c, stOK, 0, 0)

end Sys2Proof.Machine
end

