-- ==== Sys2Proof/Machine/Muster.lean ====
section
/-! DEFINITION. The completion of a muster: digest and log, the counters of the round, the exchange step, checkpoint, shift,
RUN replacement, holds, faults and the slice exchange, in their order, and the next round (R68, R85, R333, R400, R408, R420,
R441, R442, R446, R476, R486, R488, R534, R836, R855). -/

namespace Sys2Proof.Machine

/-- The pasture runs on degraded resources: a die of it below its target, or one of its vertical links at half width
(R29, R416). -/
def Chip.degradedPast (c : Chip) (x : Past) : Bool :=
  x.tiles.any (fun t => (c.die t.die.val).applied < (c.die t.die.val).target
    || (tileKind t.tile.val == .port && ((c.vlink t.die.val (portIndex t.tile.val)).up.half || (c.vlink t.die.val (portIndex t.tile.val)).down.half)))

/-- The vector of each enabled egress ring that got a record of pasture `p` in its round (R658, R667). -/
def Chip.ringVectors (c : Chip) (p : Nat) : Chip :=
  let got := c.gate.rings.filter (fun e => e.2.got.contains p)
  let c := c.ringsForget p
  got.foldl (fun c e => if e.2.en && e.2.vecEn then c.msix e.2.vector.toNat else c) c

/-- What a completed round leaves in the counters of pasture `p`: the delay banks rotate and the round counter advances
(R45, R68, R118, R421). -/
def Chip.closeRound (c : Chip) (p : Nat) : Chip :=
  let x := c.past p
  let sat := x.cores.any (fun t => (c.tile t.key).nc.satFlag)
  let deg := c.degradedPast x
  let quiet := x.tiles.all (fun t => !t.busy) && x.span.arrives.all (fun a => !a.2)
  let c := (c.rotateAll x).count pgSPIKE 0x108 1
  let c := c.updPast p (fun x => { x with
    phase := .none, quiet := quiet, span := { x.span with arrives := [], votes := [], sentArrive := false, sentVote := false, result := none }, entered := [], gapWaited := false
    run := x.run.map (fun r => { r with saturated := r.saturated || sat, degraded := r.degraded || deg }) })
  c.advance p

/-- The captures of a muster: CHECKPOINT commands, then a forced one for tests past DEFER_LIMIT (R437, R855, R859). -/
def Chip.captures (c : Chip) (p : Nat) : Chip :=
  let es := (c.past p).ckpts
  let c := c.updPast p (fun x => { x with ckpts := [] })
  let c := es.foldl (fun c e => c.checkpoint p e.val) c
  let us := (c.deferredUnits p).filter (fun u => (c.unit u).forced)
  if us.isEmpty || (c.past p).maintenance then c
  else
    let x := c.past p
    let size := c.pageSize p
    let w : Option CapPlace := match x.ring with
      | some g => if size ≤ g.slotLen.toNat then some g.place else none
      | none => (c.areaFit size).map (fun a => { addr := a, len := size, slot := none })
    match w with
    | none => c.raise pgHEALTH 6
    | some w =>
      let r := c.captureTo p w
      if r.2.1 != stOK then r.1.raise pgHEALTH 6
      else
        let c := match w.slot with | some s => r.1.updPast p (fun y => y.ringDone s) | none => r.1
        let c := us.foldl (fun c u => (c.testsFor u).foldl (fun c e => c.updEntry e (fun x => { x with testFlags := x.testFlags ||| 4 })) c) c
        (c.count pgHEALTH 0x18C 1).boundary p w r.2.2

/-- The shifts of a muster; a slice page-out at the same muster comes alone (R488, R855). -/
def Chip.shifts (c : Chip) (p : Nat) : Chip :=
  let es := (c.past p).shifts
  let c := c.updPast p (fun x => { x with shifts := [] })
  let out := match c.sliceVictim p with | some (v, _) => v == p | none => false
  let c := es.foldl (fun c e => if out then c.noPlace.finishBad e.1.val stNO_PLACE else c.shift p e.1.val e.2.toNat) c
  if out || (c.past p).maintenance then c else c.testShift p

/-- The RUN that waits replaces the present one, which completes with its own count, or with ABORTED (R408, R420). -/
def Chip.replaceRun (c : Chip) (p : Nat) : Chip :=
  let x := c.past p
  match x.nextRun with
  | none => c
  | some r =>
    let same := x.paced && x.period == r.period && r.period != 0
    let c := c.updPast p (fun x => { x with
      run := some r, nextRun := none, abortRun := false, abortNext := false, passedOver := [], paced := r.period != 0, period := r.period, anchored := x.anchored && same })
    let c := match x.run with
      | some old => c.finishRun p old (if x.abortRun then stABORTED else runStatus old) 0
      | none => c
    x.passedOver.foldl (fun c r => c.finishRun p r (runStatus r) 0) c

/-- The hold of an aborted RUN or LADDER, which completes with ABORTED unless it has been replaced (R408). -/
def Chip.abortNow (c : Chip) (p : Nat) (replaced : Bool) : Chip :=
  let c := if replaced then c else c.endRun p stABORTED
  c.holdAsIf p

/-- Holds of a muster: HOLD, the abort, then a fault (R400, R408, R446). -/
def Chip.musterHolds (c : Chip) (p : Nat) (abort replaced : Bool) : Chip :=
  let c := c.takePending p
  let c := if abort then c.abortNow p replaced else c
  match (c.past p).pendingFault with
  | some st => c.faultNow p st.toNat
  | none => c

/-- MUSTER_COMPLETE of pasture `p`: once its children have arrived, at the root, or MUSTER_DONE has come (R62, R736). -/
def Chip.musterComplete (c : Chip) (p : Nat) : Chip :=
  let x := c.past p
  let root := c.isRoot x
  if !c.allArrived p || (if root then !c.childrenIn x x.span.arrives else x.span.done.isNone) then c
  else
    let n := (c.past p).round.toNat
    let c := ((c.ringVectors p).updPast p Past.keepInputs).digestRound p
    let c := c.closeRound p
    let c := if x.spans && root then c.announce p (c.skipOk p) else c
    let c := c.ladderMuster p n
    let c := (c.ladderStop p n).latchTemps (c.past p)
    let c := (c.captures p).shifts p
    let c := c.countReached p
    let x := c.past p
    let next := x.abortNext && x.nextRun.isSome
    let abort := (x.abortRun && x.run.isSome) || next
    let c := (c.replaceRun p).musterHolds p abort (x.nextRun.isSome && !next)
    let c := c.shelterRead p
    let c := match c.sliceVictim p with
      | some (v, h) => c.sliceOut v h
      | none => c
    c.due p

end Sys2Proof.Machine
end

