-- ==== Sys2Proof/Machine/RegRead.lean ====
section
/-! DEFINITION. What a register read shows: the common header, the registers of tile pages with the QDBG snapshot, and the
registers of base-die pages that show structured state (R189–R193, R235, R302, R340, R381, R384, R386, R387, R492, R548,
R574–R578, R611–R617, R644, R646, R681, R712–R715, R754, R829, R831, R881, R887–R898, R905, R914, R916). -/

namespace Sys2Proof.Machine

/-! ### The common header (R887–R898) -/

/-- BLK_CAPS of a page kind (R890). -/
def pageCaps (code : Nat) : Nat :=
  b2n ((regsOf code).any (fun r => r.acc == .rwl))
  + 2 * b2n ([codeSPIKE, codeDENSE, codeANNEAL, codeXFER, codeNVS, codeBANK, codePLACE].contains code)
  + 4 * b2n ([codeROUTER, codeNCORE, codeTCORE, codeBANK, codeCOMMONS, codeCROOK, codeSTREAM, codeLINK].contains code)
  + 8 * b2n ([codeROUTER, codePORT, codeBANK, codeCOMMONS, codeANNEAL, codeNVS, codeSHEP, codeMUSTER, codeXFER, codePLACE, codeHEALTH,
      codeSTREAM, codeGATE, codeLINK, codePOWER, codeWAKE, codeSTACK].contains code)

/-- The package is in RECOVERY (R641). -/
def Chip.recovery (c : Chip) : Bool := c.stage == 8

/-- A header register, given what the page itself cannot tell: its BLK_ID above CODE, its generation, its domain with
DRAINING, its progress and its BLK_AUTH. -/
def headerReg (p : Page) (id gen dom progress auth off : Nat) : Nat :=
  if off = 0x000 then p.code + id * 2 ^ 16
  else if off = 0x004 then 0x100 + gen * 2 ^ 16
  else if off = 0x008 then pageCaps p.code
  else if off = 0x00C then b2n p.lock
  else if off = 0x010 then dom + 8 * b2n p.lock + 16 * b2n (p.fault != 0) + 32 * b2n (p.ev &&& p.en != 0)
  else if off = 0x014 || off = 0x01C then p.ev.toNat
  else if off = 0x018 then p.en.toNat
  else if off = 0x020 then progress
  else if off = 0x024 then p.fault.toNat + p.further.toNat * 2 ^ 8 + p.fclass.toNat * 2 ^ 16
  else if off = 0x028 then p.faddr.toNat
  else if off = 0x02C then p.ce.toNat
  else if off = 0x030 then auth + p.lastClass.toNat * 2 ^ 16 + b2n p.refused * 2 ^ 20
  else 0

/-- DOMAIN and DRAINING of a switched domain. -/
def Chip.domWord (c : Chip) (n : Nat) : Nat := domNum (c.dom n).state + 4 * b2n (c.dom n).draining

/-- The progress of a scoreboard entry's command (R351, R421, R329). -/
def Chip.entryProgress (c : Chip) (e : Nat) : Nat :=
  let x := c.entry e
  if x.state != .running then x.progress.toNat
  else if x.opcode = 0x10 || x.opcode = 0x30 then
    match (c.past x.pasture).run with
    | some r =>
      if r.entry != some (Fin.ofNat 512 e) then x.progress.toNat
      else if r.ladder then (match c.ladderOf x.pasture with | some (_, l) => (ladderProgress l r.advanced.toNat).toNat | none => x.progress.toNat)
      else (runProgress r).toNat
    | none => x.progress.toNat
  else x.progress.toNat

/-- The oldest RUNNING command of a unit. -/
def Chip.oldestOf (c : Chip) (unit : Nat) : Option Nat :=
  (sortBy (fun a b => decide (a.2.fetchNo ≤ b.2.fetchNo))
    (c.live.filter (fun e => e.2.state == .running && unitOf e.2.opcode == unit))).head?.map (fun e => e.1)

/-- BLK_PROGRESS of a base-die page (R894). -/
def Chip.pageProgress (c : Chip) (code : Nat) : Nat :=
  let of (u : Nat) : Nat := match c.oldestOf u with | some e => c.entryProgress e | none => 0xFF000000
  if code = codeSPIKE then of 0 else if code = codeDENSE then of 1 else if code = codeANNEAL then of 2 else if code = codeXFER then of 3
  else if code = codeNVS then
    match c.nv.jobs with
    | j :: _ => (progressWord (j.written * 100 / max 1 (j.readSet.length + j.catchUp.length)) j.written).toNat
    | [] => 0xFF000000
  else 0xFF000000

/-- BLK_AUTH's WRITE and READ of a page (R797, R898); every class may read IDENT (chapter 22). -/
def Chip.authBits (c : Chip) (code : Nat) : Nat :=
  if code = codeIDENT then 0x1F1D
  else if c.recovery && !([codeCROOK, codeAUTH].contains code) then 0x0101 else 0x1D1D

/-! ### Tile pages -/

/-- A flit's data. -/
def flitData (f : Flit) : Nat := (readFlit f).2.getD 0

/-- The pasture that QDBG shows: the core's, else that of the lowest valid slot. -/
def Chip.shownPast (c : Chip) (k : Nat) : Option Nat :=
  match c.ownerOf k with
  | some p => some p
  | none => ((c.tile k).rt.slots.find? (fun s => s.valid)).map (fun s => s.pasture.val)

/-- The number of a phase in SNAP_PHASE. -/
def phaseNum : Phase → Nat
  | .inject => 0 | .spike => 1 | .integrate => 2 | .learn => 3 | .muster => 4 | .none => 5

/-- The number of a WAIT_ON reason (R193). -/
def waitNum : WaitOn → Nat
  | .message => 0 | .headOther => 1 | .join => 2 | .ack => 3 | .control => 4 | .vote => 5 | .excess => 6

/-- The head word of a list of messages. -/
def headWord (l : List (List W64)) : Nat := match l with | m :: _ => (nth (0 : W64) m 0).toNat | [] => 0

/-- HEAD word `i` (R191). -/
def headOf (t : Tile) (i : Nat) : Nat :=
  match i with
  | 0 => match t.q.axon with | f :: _ => flitData f | [] => 0
  | 1 => match t.q.outbound with | m :: _ => flitData (nth 0 m.1 0) | [] => 0
  | 2 => if t.q.foldCount = 0 then 0 else (Work.read { t := t } (foldWord t.q 0)).2.getD 0
  | 3 => headWord t.q.data
  | 4 => headWord t.q.command
  | 5 => headWord t.q.sync
  | _ => if 6 ≤ i && i ≤ 10 then
      match (nth [] t.rt.inputs (i - 6)).findSome? (fun x => match x with | .msg f _ => some f | .close => none) with
      | some f => flitData (nth 0 f 0)
      | none => 0
    else 0

/-- A QDBG register as it stands (R191). -/
def Chip.qdbgNow (c : Chip) (k off : Nat) : Nat :=
  let t := c.tile k
  let p := c.shownPast k
  let ph : Phase := match p with | some p => (match (c.past p).tileAt k with | some e => if (c.past p).inRound then (if (c.past p).phase == .muster then .muster else e.phase) else .none | none => .none) | none => .none
  let lap := t.rt.outs.any (fun (o : OutPos) => o.inLap)
  if off = 0x104 then (match p with | some p => p + 2 ^ 15 | none => 0)
  else if off = 0x108 then (match p with | some p => (c.past p).round.toNat | none => 0)
  else if off = 0x10C then phaseNum ph + 8 * b2n lap + t.rt.laps.toNat * 2 ^ 16
  else if 0x110 ≤ off && off ≤ 0x124 then
    let i := (off - 0x110) / 4
    let n := if i = 0 then t.q.axon.length else if i = 1 then outFlits t.q else if i = 2 then t.q.foldCount
      else if i = 3 then (t.q.data.map (fun m => m.length)).sum else if i = 4 then t.q.command.length else t.q.sync.length
    n % 2 ^ 16 + (nth 0 t.q.high i).toNat * 2 ^ 16
  else if 0x130 ≤ off && off ≤ 0x140 then
    let l := nth [] t.rt.inputs ((off - 0x130) / 4)
    bufFlits l % 8 + (l.filter (fun x => x == .close)).length % 8 * 2 ^ 4
  else if 0x150 ≤ off && off ≤ 0x164 then
    let o := nth OutPos.idle t.rt.outs ((off - 0x150) / 4)
    o.pos.toNat + b2n o.inLap * 2 ^ 12
      + (match o.waitOn with | some w => 2 ^ 13 + waitNum w * 2 ^ 14 | none => 0) + min 0x3FFF o.n * 2 ^ 18
  else if 0x170 ≤ off && off ≤ 0x184 then (nth 0 t.q.outwait ((off - 0x170) / 4)).toNat
  else if 0x200 ≤ off && off ≤ 0x28C then
    let i := (off - 0x200) / 8
    headOf t i / (if (off - 0x200) / 4 % 2 = 0 then 1 else 2 ^ 32) % 2 ^ 32
  else 0

/-- The offsets that a snapshot captures. -/
def snapOffsets : List Nat :=
  [0x104, 0x108, 0x10C] ++ (upto 6).map (fun i => 0x110 + 4 * i) ++ (upto 5).map (fun i => 0x130 + 4 * i)
    ++ (upto 6).map (fun i => 0x150 + 4 * i) ++ (upto 6).map (fun i => 0x170 + 4 * i) ++ (upto 36).map (fun i => 0x200 + 4 * i)

def snapDefault : Nat → W32 := fun _ => 0

/-- A snapshot of the QDBG page of tile `k` (R192). -/
def Chip.snapshot (c : Chip) (k : Nat) : Map W32 :=
  snapOffsets.foldl (fun m o => mapSet snapDefault m o (BitVec.ofNat 32 (c.qdbgNow k o))) []

/-- A QDBG register. -/
def Chip.qdbgReg (c : Chip) (k off : Nat) : Nat :=
  let d := (c.tile k).dbg
  if off = 0x100 then 2 * b2n d.frozen
  else if d.frozen then (mapGet snapDefault d.snap off).toNat else c.qdbgNow k off

/-- A ROUTER register (R188, R189). -/
def Chip.routerReg (c : Chip) (k off : Nat) : Nat :=
  let t := c.tile k
  let i := t.pRouter.rd 0x100 % 8
  let s := nth Slot.empty t.rt.slots i
  let run := s.valid && (c.past s.pasture.val).resident && (c.past s.pasture.val).running
  if off = 0x104 then (if s.valid then s.pasture.val + 2 ^ 15 + b2n run * 2 ^ 16 else 0)
  else if off = 0x108 then s.bindOut.toNat + s.bindIn.toNat * 2 ^ 8
  else if off = 0x10C then
    let m (j : Nat) : Nat := (nth (0 : BitVec 6) s.closeMask j).toNat
    m 0 + m 1 * 2 ^ 6 + m 2 * 2 ^ 12 + m 3 * 2 ^ 18 + m 5 * 2 ^ 24
  else if off = 0x110 then s.exitX.toNat + s.exitY.toNat * 16
  else if off = 0x114 then s.lapMax.toNat
  else if off = 0x118 then s.foldBase.toNat + s.foldSize.toNat * 2 ^ 16
  else if 0x120 ≤ off && off ≤ 0x134 then
    let l := nth { base := 0, len := 0 } s.lists ((off - 0x120) / 4)
    l.base % 2048 + l.len % 4096 * 2 ^ 12
  else if off = 0x140 then let e := c.ctlExit k; tileX e + 16 * tileY e
  else if off = 0x154 then ((readFlit (mapGet droveDefault t.rt.drove (t.pRouter.rd 0x150 % 2048))).2.getD 0) % 2 ^ 32
  else t.pRouter.rd off

/-- A core register: NCORE, TCORE or PORT. -/
def Chip.coreReg (c : Chip) (k off : Nat) : Nat :=
  let t := c.tile k
  let code := t.pCore.code
  if code = codePORT then
    let e := mapGet egressDefault t.egress (t.pCore.rd 0x100 % 4096)
    if off = 0x104 then e.word0.toNat else if off = 0x108 then e.word1.toNat
    else if off = 0x10C then (match e.owner with | some p => p.val + 2 ^ 15 | none => 0)
    else t.pCore.rd off
  else if off = 0x100 then
    if code = codeTCORE then (match t.tc.chain with | some ch => 2 * b2n ch.waiting + 4 * b2n (!ch.waiting) | none => 1) else 1
  else if off = 0x380 then
    match t.orders.current with
    | some o =>
      let w := ordBytes o.words 4 2
      t.pCore.rd 0x380 % 2 ^ 16 + b2n (t.tc.chain.isSome) * 2 ^ 16 + b2n (!t.tc.chain.isSome) * 2 ^ 17 + w % 16 * 2 ^ 18
    | none => t.pCore.rd 0x380 % 2 ^ 16
  else if 0x390 ≤ off && off ≤ 0x3CC then (nth 0 t.orders.lsync ((off - 0x390) / 4)).toNat
  else t.pCore.rd off

/-- The bank registers that show structured state, at BANK offset `off` (R546). -/
def bankReg (b : Bank) (p : Page) (base dom off : Nat) : Nat :=
  if off = 0x100 then dom
  else if off = 0x11C then
    match b.spares[p.rd (0x118 + base) % 64]? with
    | some s => s.region.toNat + b2n s.used * 2 ^ 16 + b2n s.shadow * 2 ^ 17 + b2n s.bad * 2 ^ 18
    | none => 0
  else if off = 0x120 then
    freeCount b.spares + (b.spares.filter (fun s => s.used)).length * 2 ^ 8 + (b.spares.filter (fun s => s.bad)).length * 2 ^ 16
  else p.rd (off + base)

/-- Page `j` of tile `k`: 0 ROUTER, 1 CORE, 2 BANK, 3 QDBG (R885). -/
def Tile.pageAt (t : Tile) (j : Nat) : Page := if j = 0 then t.pRouter else if j = 1 then t.pCore else if j = 2 then t.pBank else t.pQdbg

def Tile.setPage (t : Tile) (j : Nat) (p : Page) : Tile :=
  if j = 0 then { t with pRouter := p } else if j = 1 then { t with pCore := p } else if j = 2 then { t with pBank := p } else { t with pQdbg := p }

/-- Register `off` of page `j` of tile `k`. An absent page reads 0 (R886). -/
def Chip.tileReg (c : Chip) (k j off : Nat) : Nat :=
  let t := c.tile k
  let p := t.pageAt j
  if p.code = 0 then 0
  else if off < 0x100 then
    let dom := domNum (if j = 1 && p.code != codePORT then c.coreDom k else c.routerDom k)
    headerReg p (k % 256 + k / 256 * 2 ^ 8) (nth 0 c.fuses.dieGens (k / 256)).toNat dom 0xFF000000 (c.authBits p.code) off
  else if j = 0 then c.routerReg k off
  else if j = 1 then c.coreReg k off
  else if j = 2 then bankReg t.bank p 0 (domNum (c.dom k).state) off
  else c.qdbgReg k off

/-! ### The event summary (R905) -/

/-- Tile `k` has an event pending on one of its pages. -/
def Tile.eventful (t : Tile) : Bool := t.pRouter.pending || t.pCore.pending || t.pBank.pending || t.pQdbg.pending

/-- Word `w` of SUM_BASE. -/
def Chip.sumBase (c : Chip) (w : Nat) : Nat :=
  ((upto 32).map (fun i => match directory[32 * w + i]? with | some r => b2n (c.page r.1).pending * 2 ^ i | none => 0)).sum

/-- Word `w` of SUM_DIE of die `d`. -/
def Chip.sumDie (c : Chip) (d w : Nat) : Nat := ((upto 32).map (fun i => b2n (c.tile (tileKey d (32 * w + i))).eventful * 2 ^ i)).sum

/-- EVT_ANY. -/
def Chip.evtAny (c : Chip) : Nat :=
  b2n (c.pages.any (fun e => e.2.pending)) + ((upto 4).map (fun d => b2n (c.tiles.any (fun e => e.1 / 256 == d && e.2.eventful)) * 2 ^ (d + 1))).sum

/-! ### Base-die pages -/

/-- SHEP's context registers (R381). -/
def Chip.shepReg (c : Chip) (off : Nat) : Nat :=
  let q := c.ctxSel
  let x := c.ctx q
  let st (s : SbState) : Nat := (c.sb.filter (fun e => e.2.state == s)).length
  let e := (c.page pgSHEP).rd 0x170 % 512
  let y := c.entry e
  match off with
  | 0x104 => (match x.state with | .disabled => 0 | .active => 1 | .stopping => 2 | .stopped => 3 | .error => 4) + c.onBoard q * 2 ^ 16
  | 0x10C => x.ring.toNat % 2 ^ 32
  | 0x110 => x.ring.toNat / 2 ^ 32
  | 0x114 => x.logSq.toNat + x.logCq.toNat * 2 ^ 8
  | 0x118 => x.cqRing.toNat % 2 ^ 32
  | 0x11C => x.cqRing.toNat / 2 ^ 32
  | 0x120 => x.shadow.toNat % 2 ^ 32
  | 0x124 => x.shadow.toNat / 2 ^ 32
  | 0x128 => x.priority.toNat + x.weight.toNat * 2 ^ 8 + x.inflight.toNat * 2 ^ 16
  | 0x12C => x.vector.toNat + x.modCount.toNat * 2 ^ 11 + x.modDelay.toNat * 2 ^ 19 + b2n x.irqEn * 2 ^ 31
  | 0x130 => x.seqNext.toNat + x.dupLast.toNat * 2 ^ 16
  | 0x134 => x.pi.toNat
  | 0x138 => x.ci.toNat
  | 0x13C => x.cqPi.toNat
  | 0x140 => x.cqCi.toNat
  | 0x144 => x.dups.toNat + x.dbErrors.toNat * 2 ^ 16
  | 0x148 => x.vtime.toNat % 2 ^ 32
  | 0x14C => x.vtime.toNat / 2 ^ 32
  | 0x160 => st .waiting + st .ready * 2 ^ 10 + st .running * 2 ^ 20
  | 0x164 => (512 - c.live.length) + st .completing * 2 ^ 10
  | 0x174 => (match y.state with | .free => 0 | .waiting => 1 | .ready => 2 | .running => 3 | .completing => 4)
      + 8 * b2n (y.state != .free && y.w0Met && (y.wait 0).2.1) + 16 * b2n (y.state != .free && y.w1Met && (y.wait 1).2.1)
      + (if y.state = .free then 0 else y.ctx % 4096 * 2 ^ 8)
  | 0x178 => if y.state = .free then 0 else y.opcode + y.seq * 2 ^ 16
  | 0x17C => if y.state = .free then 0 else c.entryProgress e
  | _ => (c.page pgSHEP).rd off

/-- An unmet wait of entry `x` on object `o`. -/
def SbEntry.waitsOn (x : SbEntry) (o : Nat) : Bool :=
  x.state == .waiting && ((!x.w0Met && (x.wait 0).2.1 && (x.wait 0).1 == o) || (!x.w1Met && (x.wait 1).2.1 && (x.wait 1).1 == o))

/-- Scoreboard entries with an unmet wait on object `o`. -/
def Chip.waitersOf (c : Chip) (o : Nat) : List Nat := (c.live.filter (fun e => e.2.waitsOn o)).map (fun e => e.1)

/-- MUSTER (R384). -/
def Chip.musterReg (c : Chip) (off : Nat) : Nat :=
  let pg := c.page pgMUSTER
  let o := c.obj (pg.rd 0x100 % 16384)
  let x := c.past (pg.rd 0x120 % 1024)
  match off with
  | 0x104 => o.type.toNat + 4 * b2n o.poisoned + o.owner.val * 2 ^ 16 + b2n o.owned * 2 ^ 31
  | 0x108 => o.value.toNat
  | 0x10C => o.aux
  | 0x114 => (c.waitersOf (pg.rd 0x100 % 16384)).length
  | 0x124 => x.round.toNat
  | 0x128 => b2n x.resident + 2 * b2n (x.resident && x.running) + 4 * b2n (x.presence != .free && x.held) + 8 * b2n x.paced
      + 16 * b2n x.parked + 32 * b2n (65536 ≤ x.skippedRun.toNat)
  | 0x12C => if x.paced then x.period.toNat else 0
  | 0x130 => x.overruns.toNat
  | 0x134 => x.skippedTotal.toNat
  | _ => pg.rd off

/-- XFER_E (R387). -/
def Chip.xferReg (c : Chip) (off : Nat) : Nat :=
  let pg := c.page pgXFER
  let h := nth { entry := none } c.channels (pg.rd 0x100 % 16)
  match off with
  | 0x104 => (match h.entry with | some e => 1 + (c.entry e.val).ctx % 4096 * 2 ^ 4 + (c.entry e.val).seq * 2 ^ 16 | none => 0)
  | 0x108 => (match h.entry with | some e => c.entryProgress e.val | none => 0)
  | 0x10C =>
    let s := nth { used := 0, queue := [] } c.pools 0
    (128 - s.used) + s.queue.length * 2 ^ 8 + (c.live.filter (fun e => e.2.state == .ready && e.2.waitedPool)).length % 32 * 2 ^ 16
  | _ => pg.rd off

/-- A signed 3-bit value. -/
def s3 (i : Int) : Nat := unsext 3 i

/-- PLACE (R492, R493). -/
def Chip.placeReg (c : Chip) (off : Nat) : Nat :=
  let pg := c.page pgPLACE
  let p := pg.rd 0x120 % 1024
  let x := c.past p
  let u := pg.rd 0x140 % 8192
  let k := tileKey (u % 4) (u / 4 % 256)
  let n (kind : Nat) (s : UnitState) : Nat := ((upto 1024).filter (fun k =>
    let v := unitKey kind (k / 256) (k % 256); unitExists v && (c.unit v).applied == s)).length
  let here := x.resident && !x.tiles.isEmpty
  match off with
  | 0x10C => ceilDiv ((c.areaUsed.map (fun e => e.2)).sum) 1024
  | 0x124 => if x.presence = .free then 0 else
      x.kind.toNat + 4 * b2n x.resident + 8 * b2n (x.presence == .pagedOut) + 16 * b2n (x.flags.getLsbD flSHIFTABLE)
        + 32 * b2n (x.flags.getLsbD flSLICEABLE) + 64 * b2n (c.sliceQ.any (fun q => q.val == p)) + (x.packages.toNat - 1) % 256 * 2 ^ 8
  | 0x128 => x.tiles.length + x.cores.length * 2 ^ 16
  | 0x12C => if !here then 0 else (x.dies.map (fun d => (d.die.val + s3 (d.dx.tdiv 4) * 2 ^ 2 + s3 (d.dy.tdiv 4) * 2 ^ 5) * 2 ^ (8 * d.imgDie.val))).sum
  | 0x130 => if x.presence = .free then 0 else ceilDiv (c.pageSize p) 1024
  | 0x134 => min 0xFFFF x.sliceRan.toNat + (match (upto c.sliceQ.length).find? (fun i => nth 0 c.sliceQ i == Fin.ofNat 1024 p) with
      | some i => i * 2 ^ 16 | none => 0)
  | 0x138 => if !here then 0 else (x.dies.map (fun d => 2 ^ d.imgDie.val)).sum + x.imgPkg.toNat * 2 ^ 8 + 2 ^ 16
  | 0x144 =>
    let s := c.unit u
    unitNum s.applied + 8 * b2n s.clearing + (match c.ownerOf k with | some q => q * 2 ^ 4 | none => 0)
      + ((c.tile k).rt.slots.filter (fun s => s.valid)).length * 2 ^ 14 % 2 ^ 18
      + (((c.tile k).rt.slots.filter (fun s => s.valid)).map (fun s => (s.lists.map (fun l => l.len)).sum)).sum % 4096 * 2 ^ 18
  | 0x150 => n 0 .inService % 1024 + n 0 .spare % 1024 * 2 ^ 10 + n 1 .inService % 128 * 2 ^ 20 + n 1 .spare % 32 * 2 ^ 27
  | 0x154 => c.residents.length % 128
  | _ => pg.rd off

/-- ANNEAL_E (R340). -/
def Chip.annealReg (c : Chip) (off : Nat) : Nat :=
  let pg := c.page pgANNEAL
  let l := c.ladder (pg.rd 0x100 % 64)
  if 0x104 ≤ off && off ≤ 0x124 then ladderReg l off
  else if 0x144 ≤ off && off ≤ 0x14C then rungReg l (pg.rd 0x140 % 128) off
  else if 0x154 ≤ off && off ≤ 0x15C then replicaReg l (pg.rd 0x150 % 128) off
  else pg.rd off

/-- The page that WEAR_SEL selects. -/
def Chip.wearPage (c : Chip) : Nat :=
  let v := (c.page pgNVS).rd 0x130
  if bit v 16 then sysPage (v % 1024) else v % 16384

/-- NVS (R548). -/
def Chip.nvsReg (c : Chip) (off : Nat) : Nat :=
  let a := c.area ((c.page pgNVS).rd 0x104 % 64)
  match off with
  | 0x100 => b2n (c.nv.jobs.any (fun j => j.entry.isSome)) + 2 * b2n c.nv.shelter.isSome + min 8 c.nv.queue.length * 2 ^ 3
  | 0x108 => a.first % 8192 + a.pages % 2 ^ 14 * 2 ^ 16
  | 0x10C => b2n a.valid + 2 * b2n a.activeB + 4 * b2n a.written + (match a.owner with | some p => 8 + p.val * 2 ^ 4 | none => 0)
      + a.lag.length % 2 ^ 14 * 2 ^ 16
  | 0x110 => a.gen.toNat
  | 0x124 => (match c.nv.shelter with
      | some s => 1 + 4 * b2n s.failed + s.saved % 256 * 2 ^ 8 + min 0xFFFF s.written * 2 ^ 16
      | none => (c.page pgNVS).rd 0x124)
  | 0x134 => (c.nvMeta c.wearPage).writes.toNat
  | 0x138 => let m := c.nvMeta c.wearPage; b2n m.suspect + 2 * b2n m.worn + 4 * b2n (100000 ≤ m.writes.toNat)
  | _ => (c.page pgNVS).rd off

/-- COMMONS (R304, R546). -/
def Chip.commonsReg (c : Chip) (off : Nat) : Nat :=
  let pg := c.page pgCOMMONS
  if off = 0x104 then (c.merge.filter (fun e => e.2.line.isSome)).length
  else if off = 0x2F0 then pg.ev2.toNat
  else if off = 0x2F4 then pg.en2.toNat
  else if 0x200 ≤ off then bankReg c.commons pg 0x100 (domNum (c.dom domCOMMONS).state) (off - 0x100)
  else pg.rd off

/-- HEALTH (R881). -/
def Chip.healthReg (c : Chip) (off : Nat) : Nat :=
  let pg := c.page pgHEALTH
  let u := c.unit (pg.rd 0x100 % 8192)
  let x := c.past (pg.rd 0x140 % 1024)
  let d := nth none c.disagree (pg.rd 0x130 % 16)
  match off with
  | 0x104 => unitNum u.applied + unitNum u.crook * 2 ^ 3 + unitNum u.shepherd * 2 ^ 6 + u.watch.toNat % 32 * 2 ^ 9 + b2n u.testing * 2 ^ 14
      + b2n u.due * 2 ^ 15 + b2n u.deferred * 2 ^ 16
  | 0x108 => u.lastTest.toNat
  | 0x10C => u.fails.toNat
  | 0x134 => (match d with | some d => d.unit % 2 ^ 13 + d.crook.toNat * 2 ^ 13 + d.shepherd.toNat * 2 ^ 16 + 2 ^ 31 | none => 0)
  | 0x138 => (match d with | some d => d.time.toNat | none => 0)
  | 0x144 => b2n x.logEnable + 2 * b2n x.autoRestart + x.digestCap.toNat * 2 ^ 12
  | 0x148 => x.digestRound.toNat
  | 0x14C => x.digest.toNat % 2 ^ 32
  | 0x150 => x.digest.toNat / 2 ^ 32
  | 0x154 => (match x.log with
      | some g => b2n (!g.full && !g.broken) + 2 * b2n g.full + 4 * b2n g.broken
          + (match x.ring with | some r => (match r.newest with | some (s, _) => s.toNat * 2 ^ 16 | none => 0) | none => 0)
      | none => 0)
  | 0x158 => min 3 (x.restarts.filter (fun t => c.now < t + 3600000000)).length + x.restartStatus.toNat * 2 ^ 8
      + x.restartRound.toNat % 2 ^ 16 * 2 ^ 16
  | _ => pg.rd off

/-- STREAM (R715). -/
def Chip.streamReg (c : Chip) (off : Nat) : Nat :=
  let s := nth StreamCtx.init c.streams ((c.page pgSTREAM).rd 0x100 % 32)
  match off with
  | 0x104 => (match s.bound with
      | some (p, i) => (if s.stopped then 2 else 1) + p.val * 2 ^ 2 + i % 32 * 2 ^ 12 + s.info.port % 8 * 2 ^ 17 + s.info.vc % 4 * 2 ^ 20
          + b2n s.refValid * 2 ^ 22
      | none => 0)
  | 0x108 => s.fifoCount % 2 ^ 16 + (if s.bound.isSome then 128 * s.info.fifoKib % 2 ^ 16 * 2 ^ 16 else 0)
  | 0x10C => s.high % 2 ^ 16
  | 0x110 => s.frame.toNat
  | 0x118 => s.cntRx.toNat
  | 0x11C => s.cntEntered.toNat
  | 0x120 => s.cntDrop.toNat
  | 0x124 => s.cntUnmapped.toNat
  | 0x128 => s.cntRange.toNat
  | 0x12C => s.cntMalformed.toNat
  | 0x130 => s.cntStopped.toNat
  | 0x134 => s.cntUe.toNat
  | 0x140 => c.mapFree
  | _ => (c.page pgSTREAM).rd off

/-- GATE (R681). -/
def Chip.gateReg (c : Chip) (off : Nat) : Nat :=
  let pg := c.page pgGATE
  let g := c.gate
  let r := mapGet eringDefault g.rings (pg.rd 0x120 % 64)
  match off with
  | 0x100 => g.width % 32 + g.speed % 8 * 2 ^ 5 + b2n g.dlUp * 2 ^ 8 + b2n g.l1 * 2 ^ 9 + b2n g.l12 * 2 ^ 10 + b2n g.d3hot * 2 ^ 11
  | 0x108 => pg.rd 0x108 % 256 + min 255 (c.reads.filter (fun o => o.issuer == pgGATE)).length * 2 ^ 8
  | 0x124 => r.base.toNat % 2 ^ 32
  | 0x128 => r.base.toNat / 2 ^ 32
  | 0x12C => r.logSize.toNat + r.vector.toNat * 2 ^ 16 + b2n r.vecEn * 2 ^ 30 + b2n r.en * 2 ^ 31
  | 0x130 => r.pi.toNat
  | 0x134 => r.ci.toNat
  | 0x138 => min 0xFFFF r.waiting.length
  | _ => pg.rd off

/-- The number of a link phase in LINK_STATE. -/
def linkNum : LinkPhase → Nat
  | .off => 0 | .whistle => 1 | .training => 2 | .locking => 3 | .hello => 4 | .up => 5 | .holding => 6 | .ctrlOnly => 7

/-- LINKk; 0x180 and above are machine registers held on LINK0's page (R754). -/
def Chip.linkReg (c : Chip) (i off : Nat) : Nat :=
  let l := nth Link.init c.links i
  let m := c.page pgLINK
  let credit (k : Nat) : Nat := let x := nth LinkClass.init l.classes k; min 255 (x.txLimit - x.txCount).toNat
  match off with
  | 0x104 => linkNum l.phase + l.peerPort.toNat * 2 ^ 4 + l.peerPkg.toNat * 2 ^ 8 + (if l.phase = .up then l.epoch.toNat * 2 ^ 16 else 0)
  | 0x110 => l.txSeq.toNat + l.replay.length % 4096 * 2 ^ 16
  | 0x114 => l.rxSeq.toNat
  | 0x118 => credit 0 + credit 1 * 2 ^ 8 + credit 2 * 2 ^ 16 + credit 3 * 2 ^ 24
  | 0x180 => m.rd 0x180
  | 0x184 => m.rd 0x184 % 2 ^ 16 + c.pkg % 256 * 2 ^ 16
  | 0x188 => m.rd 0x188
  | 0x18C => (mapGet lsDefault c.lsmap (m.rd 0x188 % 256)).toNat
  | 0x190 => m.rd 0x190
  | _ => (c.page (pgLINK + i)).rd off

/-- AERk (R714). -/
def Chip.aerReg (c : Chip) (k off : Nat) : Nat :=
  let a := nth Aer.init c.aers k
  if off = 0x100 then
    b2n a.req + 2 * b2n a.ack + 4 * b2n (a.req || a.ack) + 8 * b2n (c.streams.any (fun s => s.bound.isSome && s.info.port == 4 + k))
  else (c.page (pgAER + k)).rd off

/-- POWER (R611). -/
def Chip.powerReg (c : Chip) (off : Nat) : Nat :=
  let pg := c.page pgPOWER
  let n := pg.rd 0x100 % 1024
  let d := c.dom n
  match off with
  | 0x104 => if domKind n = .nothing then 0 else
      domNum d.state + 4 * b2n d.draining + 8 * b2n d.waking + 16 * b2n (!d.queued.isEmpty || d.current.isSome) + d.lastStatus.toNat * 2 ^ 8
        + d.drainTime.toNat * 2 ^ 16
  | 0x128 => min (2 ^ 19 - 1) (c.die 0).power + (c.die 0).capVolt % 1024 * 2 ^ 20
  | 0x12C => min (2 ^ 19 - 1) (c.die 1).power + (c.die 1).capVolt % 1024 * 2 ^ 20
  | 0x130 => min (2 ^ 19 - 1) (c.die 2).power + (c.die 2).capVolt % 1024 * 2 ^ 20
  | 0x134 => min (2 ^ 19 - 1) (c.die 3).power + (c.die 3).capVolt % 1024 * 2 ^ 20
  | _ => pg.rd off

/-- PADS (R613). -/
def Chip.padsReg (c : Chip) (off : Nat) : Nat :=
  if 0x104 ≤ off && off ≤ 0x10C then
    let g := (off - 0x104) / 4
    let l := nth Latch.init c.latches g
    let d := c.padDrive g
    b2n l.latched + 2 * b2n l.value + 4 * b2n l.enable + 8 * b2n d.1 + 16 * b2n d.2 + 32 * b2n (l.value == d.1 && l.enable == d.2)
  else if 0x120 ≤ off && off ≤ 0x128 then
    let l := nth Latch.init c.latches ((off - 0x120) / 4)
    b2n l.value + 2 * b2n l.enable
  else 0

/-- WAKE (R615). -/
def Chip.wakeReg (c : Chip) (off : Nat) : Nat :=
  let pg := c.page pgWAKE
  let s := pg.rd 0x110 % 16
  match off with
  | 0x108 => ((upto 16).map (fun i => b2n (c.wakes.any (fun w => w.src == i)) * 2 ^ i)).sum
  | 0x114 => (mapGet (fun _ => (0 : W32)) c.routes (8 * s + pg.rd 0x110 / 16 % 8)).toNat
  | 0x118 => (mapGet (fun _ => (0 : W32)) c.wakeCounts s).toNat
  | _ => pg.rd off

/-- RTC (R617). -/
def Chip.rtcReg (c : Chip) (off : Nat) : Nat :=
  let r := c.rtc
  match off with
  | 0x100 => r.time.toNat % 2 ^ 32
  | 0x104 => r.timeHi.toNat
  | 0x108 => c.timeMs
  | 0x10C => b2n r.valid + 2 * b2n r.internal + 4 * b2n r.locked
  | 0x120 => r.alarm0.toNat % 2 ^ 32
  | 0x124 => r.alarm0.toNat / 2 ^ 32
  | 0x128 => r.alarm1.toNat % 2 ^ 32
  | 0x12C => r.alarm1.toNat / 2 ^ 32
  | _ => (c.page pgRTC).rd off

/-- The number of a thermal state. -/
def thermNum : Thermal → Nat
  | .normal => 0 | .throttle => 1 | .hold => 2 | .trip => 3

/-- THERM (R576). -/
def Chip.thermReg (c : Chip) (off : Nat) : Nat :=
  if 0x160 ≤ off && off ≤ 0x16C then
    let d := c.die ((off - 0x160) / 4)
    (match d.temp with | some t => unsext 12 t | none => 0) + thermNum d.thermal * 2 ^ 12 + d.ceiling % 1024 * 2 ^ 16
  else (c.page pgTHERM).rd off

/-- STACK (R574). -/
def Chip.stackReg (c : Chip) (off : Nat) : Nat :=
  let pg := c.page pgSTACK
  let s := pg.rd 0x110
  let d := s % 4
  let i := s / 4 % 16
  let v := c.vlink d i
  let up := !bit s 6
  let w := if up then v.up else v.down
  let u := c.unit (vlinkUnit (tileKey d (portTile i)))
  match off with
  | 0x100 => (c.die 0).hs.toNat + (c.die 1).hs.toNat * 4 + (c.die 2).hs.toNat * 16 + (c.die 3).hs.toNat * 64
  | 0x104 => c.fuses.baseGen.toNat + c.fuses.baseFeatures.toNat * 2 ^ 8
  | 0x114 => (if unitNum u.applied ≤ 1 then 2 else b2n w.half) + unitNum u.applied * 2 ^ 2
      + (w.spares.filter (fun l => l != 0x7F)).length * 2 ^ 5 + popcount 76 w.failed.toNat % 128 * 2 ^ 8 + b2n (w.rails != 0) * 2 ^ 15
  | 0x118 => ((upto 4).map (fun k => (nth (0x7F : BitVec 7) w.spares k).toNat * 2 ^ (8 * k))).sum
  | 0x11C => w.failed.toNat % 2 ^ 32
  | 0x120 => w.failed.toNat / 2 ^ 32 % 2 ^ 32
  | 0x124 => w.failed.toNat / 2 ^ 64
  | 0x128 => v.lastCheck.toNat
  | 0x12C =>
    let base := if up then 0 else 128
    let n (l : Nat) : Nat := mapGet (fun _ => 0) v.ce (base + l)
    let best := (upto 76).foldl (fun b l => if n b < n l then l else b) 0
    best + min 0xFFFF (n best) * 2 ^ 16
  | _ => pg.rd off

/-- DIEd (R578). -/
def Chip.dieReg (c : Chip) (d off : Nat) : Nat :=
  let r := c.die d
  match off with
  | 0x100 => (nth 0 c.fuses.dieGens d).toNat + (nth 0 c.fuses.dieFeatures d).toNat * 2 ^ 8 + (if r.hs = 1 then c.features d * 2 ^ 16 else 0)
  | 0x104 => (match r.state with | .off => 0 | .on => 1 | .tripped => 2 | .dead => 3) + 4 * b2n r.step.isSome
  | 0x108 => r.target % 1024
  | 0x10C => r.applied % 1024 + r.ceiling % 1024 * 2 ^ 16 + b2n (r.applied < r.target && r.applied == r.ceiling) * 2 ^ 28
      + b2n (r.applied < r.target && r.applied == r.capVolt) * 2 ^ 29
  | _ => (c.page (pgDIE + d)).rd off

/-- CROOK (R829). -/
def Chip.crookReg (c : Chip) (off : Nat) : Nat :=
  let k := c.crook
  if 0x300 ≤ off then leAt (k.mbox.headD []) (off - 0x300) 4
  else match off with
  | 0x100 => k.fwVersion.toNat
  | 0x104 => k.fwRollback.toNat + popcount 64 c.fuses.rollback.toNat * 2 ^ 16
  | 0x108 => b2n k.versionA.isSome + 2 * b2n k.versionB.isSome + 4 * b2n k.fwCopyB + 8 * b2n k.session.isSome
  | 0x10C => (k.versionA.getD 0).toNat
  | 0x110 => (k.versionB.getD 0).toNat
  | 0x124 => b2n k.mboxHeld.isSome + 2 * b2n (!k.mbox.isEmpty) + min 15 k.mbox.length * 4
  | _ => (c.page pgCROOK).rd off

/-- AUTH (R831); AUTH_STATE.CERTIFIED is stored at boot. -/
def Chip.authReg (c : Chip) (off : Nat) : Nat :=
  let d := c.dbgLock
  match off with
  | 0x100 => b2n d.isOpen + 2 * b2n d.ever + 4 * b2n (bit ((c.page pgAUTH).rd 0x100) 2 && !d.ever) + 8 * b2n c.fuses.debugBlock + 16 * b2n c.fuses.revoke0
      + (if d.isOpen then d.scope.toNat * 2 ^ 8 else 0)
  | 0x108 => c.fuses.serial.toNat % 2 ^ 32
  | 0x10C => c.fuses.serial.toNat / 2 ^ 32
  | 0x110 => d.challenge.toNat % 2 ^ 32
  | 0x114 => d.challenge.toNat / 2 ^ 32
  | 0x118 => if d.isOpen then ceilDiv (d.endsAt - c.now) 1000000 else 0
  | 0x130 => c.crook.auditHead.toNat
  | 0x134 => c.crook.auditAck.toNat
  | 0x138 => c.crook.auditLost.toNat
  | _ => (c.page pgAUTH).rd off

/-- PROFILE (R644). -/
def Chip.profileReg (c : Chip) (off : Nat) : Nat :=
  if off = 0x104 then (match c.next with | some n => n.toNat + 2 ^ 8 | none => 0) else (c.page pgPROFILE).rd off

/-- IDENT (R646, R900, R905, R914). -/
def Chip.identReg (c : Chip) (off : Nat) : Nat :=
  if off = 0x104 then 0x0100 + c.fuses.baseGen.toNat * 2 ^ 16 + (nth 0 c.fuses.dieGens 0).toNat * 2 ^ 20
  else if off = 0x108 then c.pkg % 256 + c.homePkg * 2 ^ 8 + c.machineSize % 512 * 2 ^ 16
  else if off = 0x10C then c.fuses.neuronGrade.toNat + c.fuses.tensorGrade.toNat * 2 ^ 16
  else if off = 0x120 then
    let v := (c.page pgIDENT).rd 0x120
    setBits (setBits (setBits v 12 12 (b2n c.crook.fwCopyB)) 13 13 (b2n c.gate.ready)) 14 14 (b2n c.rtc.valid)
  else if off = 0x140 then c.evtAny
  else if 0x180 ≤ off && off ≤ 0x19C then c.sumBase ((off - 0x180) / 4)
  else if 0x200 ≤ off && off ≤ 0x27C then c.sumDie ((off - 0x200) / 32) ((off - 0x200) / 4 % 8)
  else if 0x400 ≤ off && off ≤ 0xBFC then
    match directory[(off - 0x400) / 8]? with
    | some r => if (off - 0x400) / 4 % 2 = 0 then r.2.1 + r.2.2.1 * 2 ^ 16 else r.1 + r.2.2.2 * 2 ^ 16
    | none => 0
  else (c.page pgIDENT).rd off

/-- SPIKE_E and DENSE_E (R386). -/
def Chip.spikeReg (c : Chip) (off : Nat) : Nat :=
  if off = 0x100 then ((c.live.filter (fun e => e.2.state == .running && unitOf e.2.opcode == 0)).map (fun e => e.2.pasture)).eraseDups.length % 128
  else (c.page pgSPIKE).rd off

def Chip.denseReg (c : Chip) (off : Nat) : Nat :=
  if off = 0x100 then ((upto 1024).filter (fun k => tileKind (k % 256) == .tensor && 2 ≤ unitNum (c.unit (coreUnit k)).applied
    && !c.denseBarred k)).length % 256
  else if off = 0x104 then (c.live.filter (fun e => e.2.state == .ready && e.2.opcode == 0x20)).length
  else (c.page pgDENSE).rd off

/-- The number of base-die page `n` among its kind. -/
def pageIndex (n : Nat) : Nat := match directory.find? (fun r => r.1 == n) with | some r => r.2.2.1 | none => 0

/-- A block-specific register of base-die page `n`. -/
def Chip.blockReg (c : Chip) (n off : Nat) : Nat :=
  let code := baseCode n
  let i := pageIndex n
  if code = codeIDENT then c.identReg off else if code = codeCROOK then c.crookReg off else if code = codeAUTH then c.authReg off
  else if code = codePROFILE then c.profileReg off else if code = codeHEALTH then c.healthReg off else if code = codeSHEP then c.shepReg off
  else if code = codePLACE then c.placeReg off else if code = codeMUSTER then c.musterReg off else if code = codeSPIKE then c.spikeReg off
  else if code = codeDENSE then c.denseReg off else if code = codeANNEAL then c.annealReg off else if code = codeXFER then c.xferReg off
  else if code = codeCOMMONS then c.commonsReg off else if code = codeNVS then c.nvsReg off else if code = codeSTREAM then c.streamReg off
  else if code = codeGATE then c.gateReg off else if code = codeLINK then c.linkReg i off else if code = codeAER then c.aerReg i off
  else if code = codePOWER then c.powerReg off else if code = codePADS then c.padsReg off else if code = codeWAKE then c.wakeReg off
  else if code = codeRTC then c.rtcReg off else if code = codeTHERM then c.thermReg off else if code = codeSTACK then c.stackReg off
  else if code = codeDIE then c.dieReg i off else (c.page n).rd off

/-- The domain in which the registers of base-die page `n` are held (R899). -/
def heldIn (n : Nat) : Nat :=
  match directory.find? (fun r => r.1 == n) with
  | some r => if r.2.2.2 = domCONTROL then domCONTROL else domCROOK
  | none => domCROOK

/-- Register `off` of base-die page `n`; an absent page, and an offset that its table does not list, reads 0 (R20, R886). -/
def Chip.baseReg (c : Chip) (n off : Nat) : Nat :=
  let code := baseCode n
  if code = 0 then 0
  else if off < 0x100 then
    headerReg (c.page n) (pageIndex n) c.fuses.baseGen.toNat (c.domWord (heldIn n)) (c.pageProgress code) (c.authBits code) off
  else match (regsOf code).find? (fun r => r.off == off) with
    | some r => if r.acc = .wo then 0 else c.blockReg n off % 2 ^ 32
    | none => 0

end Sys2Proof.Machine
end

