-- ==== Sys2Proof/Machine/Data.lean ====
section
/-! DEFINITION. Bank accesses: the commons bank with its merge buffer (R290, R291, R296), DATA writes into a tile's
bank and into the commons bank (R120, R121, R138, R225, R287), and bank reads (R126, R127). -/

namespace Sys2Proof.Machine

/-! ### The commons bank -/

/-- The commons bank as a bank context: 16 MiB, its registers 0x100 up (R495, R546). -/
def Chip.commonsCtx (c : Chip) : BankCtx :=
  { b := c.commons, pg := c.page pgCOMMONS, off := 0x100, words := 2097152, plain := false }

/-- The commons bank and its page replaced. -/
def Chip.putCommons (c : Chip) (k : BankCtx) : Chip := { c with commons := k.b }.putPage pgCOMMONS k.pg

/-- The slot of the merge buffer that holds line `l` (R290). -/
def slotOf (m : Map MergeSlot) (l : Nat) : Option Nat :=
  (m.find? (fun e => e.2.line == some (BitVec.ofNat 18 l))).map (fun e => e.1)

/-- The least recently used slot of the merge buffer, a free one first (R290). -/
def oldestSlot (m : Map MergeSlot) : Nat :=
  let get := mapGet mergeDefault m
  let age (i : Nat) : Nat := if (get i).line.isSome then (get i).lastUse + 1 else 0
  (upto 64).foldl (fun a i => if age i < age a then i else a) 0

/-- Slot `i` serves line `l` now. -/
def useSlot (m : Map MergeSlot) (i l : Nat) : Map MergeSlot :=
  let last := m.foldl (fun a e => max a e.2.lastUse) 0
  mapSet mergeDefault m i { line := some (BitVec.ofNat 18 l), lastUse := last + 1 }

/-- Line `l` of the commons bank served to a send or a bank read: its eight words, an uncorrectable one as 0, and
whether one was uncorrectable (R290, R291, R299). -/
def Chip.serveLine (c : Chip) (l : Nat) : Chip × List Nat × Bool :=
  let en := bit ((c.page pgCOMMONS).rd 0x100) 0
  let hit := if en then slotOf c.merge l else none
  let c := match hit with
    | some i => { c.countWrap pgCOMMONS 0x114 1 with merge := useSlot c.merge i l }
    | none =>
      let c := c.countWrap pgCOMMONS 0x110 1
      if en then { c with merge := useSlot c.merge (oldestSlot c.merge) l } else c
  let r := c.commonsCtx.readWords (8 * l) 8
  let c := c.putCommons r.1
  let bad := r.2.any (fun w => w.isNone)
  let c := if bad then c.raise pgCOMMONS 0 else c
  (c, r.2.map (fun w => w.getD 0), bad)

/-- Words of the commons bank from word `w`, `n` of them, read through the merge buffer: the words, and whether one was
uncorrectable (R127, R290). -/
def Chip.commonsRead (c : Chip) (w n : Nat) : Chip × List Nat × Bool :=
  let first := w / 8
  let lines := if n = 0 then 0 else (w + n - 1) / 8 + 1 - first
  let r := (upto lines).foldl
    (fun (s : Chip × List Nat) i => let x := s.1.serveLine (first + i); (x.1, s.2 ++ x.2.1)) (c, [])
  let ws := slice r.2 (w - 8 * first) n
  let bad := (upto n).any (fun i =>
    let x := wordRaw c.commons.mem (c.commonsCtx.phys (w + i))
    match eccClass x.1 x.2 with | .uncorrectable => true | _ => false)
  (r.1, ws, bad)

/-- Words written into the commons bank from word `w`; each line written that a slot holds counts a write hit (R296). -/
def Chip.commonsWrite (c : Chip) (w : Nat) (ws : List Nat) : Chip :=
  let c := c.putCommons (c.commonsCtx.writeWords w ws)
  let lines := if ws.isEmpty then 0 else (w + ws.length - 1) / 8 + 1 - w / 8
  let hits := (upto lines).filter (fun i => (slotOf c.merge (w / 8 + i)).isSome)
  c.countWrap pgCOMMONS 0x120 hits.length

/-! ### A tile's bank -/

/-- Whether writing bytes [a, a + n) of a neuron bank reaches the neuron records or the breed table (R225). -/
def touchesRecords (a n : Nat) : Bool := decide (offRecords < a + n) || (decide (offParams < a + n) && decide (a < offRules))

/-- The core of tile `k` serves a DATA bank write of words `ws` at byte offset `a` (R134, R225, R287). -/
def Chip.tileWrite (c : Chip) (k a : Nat) (ws : List Nat) : Chip :=
  let t := c.tile k
  let t := { t with q := raiseHigh t.q 3 (t.q.data.length + 1) }
  let t := t.putBank (t.bankCtx.writeWords (a / 8) ws)
  match tileKind (k % 256) with
  | .neuron =>
    c.putTile k (if touchesRecords a (8 * ws.length) then { t with nc := { t.nc with recount := true } } else t)
  | .tensor => c.putTile k (Work.countWindow { t := t } a (8 * ws.length)).t
  | .port => c

/-- A DATA bank write that finds its bank asleep is dropped (R588). -/
def Chip.asleepDrop (c : Chip) : Chip := c.count pgPOWER 0x14C 1

/-- The second word of a DATA or READ_REQ keeps R120 for a bank write of `ws` words. -/
def bankShape (w2 n : Nat) : Bool :=
  !bit w2 63 && bits w2 62 56 = 0 && bits w2 47 25 = 0 && 1 ≤ bits w2 55 48 && bits w2 55 48 ≤ 30 && bits w2 55 48 = n

/-- The bytes [a, a + n) lie in a bank of `words` words, at a multiple of 8 (R121). -/
def inBank (a n words : Nat) : Bool := decide (a % 8 = 0) && decide (a + n ≤ 8 * words)

/-- Words in the bank of tile `k` (R495). -/
def tileWords (k : Nat) : Nat := match tileKind (k % 256) with | .neuron => 65536 | .tensor => 131072 | .port => 0

/-- A discard of a message by base-die page `n` (R138, R139): misaddressed and malformed record BAD_OPERAND, an
unauthorised message NO_AUTHORITY. -/
def Chip.baseDiscard (c : Chip) (n : Nat) (d : Discard) (hdr : Nat) : Chip :=
  let cls := (Hdr.of hdr).origin
  if baseCode n = 0 then c
  else match d with
  | .malformed => c.fault n stBAD_OPERAND (bits hdr 63 32) cls
  | .misaddressed => c.fault n stBAD_OPERAND (bits hdr 63 32) cls
  | .unauthorised => c.fault n stNO_AUTHORITY (bits hdr 63 32) cls
  | .stale => c
  | .fenced => c

/-- The header of a message to a base-die block names this package and keeps R97–R99 and R106. -/
def Chip.baseNames (c : Chip) (h : Hdr) : Bool := h.pkg == c.pkg && h.die = 0 && h.x = 0 && h.y = 0

/-- A message header is well formed for a control kind (R97, R98, R106). -/
def hdrShape (h : Hdr) : Bool :=
  kindClass h.kind == some h.qclass && h.origin < 5 && (2048 ≤ h.tag || h.tag = 0)

/-- A DATA bank write arrives at its target (R120, R121, R138, R588, R797): `sender` is the pasture whose tile sent it,
none for an engine of the base die. -/
def Chip.bankWrite (c : Chip) (sender : Option Nat) (hdr : Nat) (words : List Nat) : Chip :=
  let h := Hdr.of hdr
  let w2 := words.headD 0
  let ws := words.drop 1
  let a := bits w2 24 0
  let n := 8 * ws.length
  if 2048 ≤ h.tag then
    let pg := h.tag - 2048
    if !hdrShape h || !bankShape w2 ws.length then c.baseDiscard pg .malformed hdr
    else if !c.baseNames h || h.kind ≠ kDATA || pg ≠ pgCOMMONS || !inBank a n 2097152 then c.baseDiscard pg .misaddressed hdr
    else if h.origin = 1 || ((h.origin = 2 || h.origin = 3) && sender.isSome) then c.baseDiscard pg .unauthorised hdr
    else if !c.domOn domCOMMONS then c.asleepDrop
    else c.commonsWrite (a / 8) ws
  else
    let k := tileKey h.die (tileOf h.x h.y)
    let shape := hdrShape h && bankShape w2 ws.length
    if !c.routerServes k then c
    else if !shape then c.tileDiscard k .malformed hdr
    else if h.pkg ≠ c.pkg || h.kind ≠ kDATA || tileKind (k % 256) = .port || !inBank a n (tileWords k) then
      c.tileDiscard k .misaddressed hdr
    else if h.origin = 1 then c.tileDiscard k .unauthorised hdr
    else if (h.origin = 2 || h.origin = 3) && (c.touching k).isEmpty then c.tileDiscard k .unauthorised hdr
    else if (h.origin = 2 || h.origin = 3) && sender.isSome && !(sender.map (fun p => (c.touching k).contains p)).getD true then
      c.tileDiscard k .unauthorised hdr
    else if h.origin = 0 && !c.mayReach sender k then c.tileDiscard k .fenced hdr
    else if !c.bankOn k then c.asleepDrop
    else if !c.coreServes k then c.asleepDrop
    else (c.wakeTile k).tileWrite k a ws

/-! ### Bank reads -/

/-- Words of tile `k`'s bank from word `w`, `n` of them: the words, an uncorrectable one as 0, and whether there was
one (R127). -/
def Chip.tileRead (c : Chip) (k w n : Nat) : Chip × List Nat × Bool :=
  let t := c.tile k
  let r := t.bankCtx.readWords w n
  (c.putTile k (t.putBank r.1), r.2.map (fun x => x.getD 0), r.2.any (fun x => x.isNone))

/-- A READ_RESP to the requester that the second word `w2` of a READ_REQ names: the status, and the data words unless
the request is refused (R126, R127). -/
def readAnswer (hdr w2 st : Nat) (words : Option (List Nat)) : List Nat :=
  let h := Hdr.of hdr
  let base := bit w2 55
  let loc := bits w2 54 44
  let h' : Hdr := { kind := kREADRESP, pkg := bits w2 63 56, die := if base then 0 else bits loc 10 9
                    x := if base then 0 else bits loc 8 5, y := if base then 0 else bits loc 4 1, qclass := 1
                    origin := h.origin, tag := if base then baseTag loc else 0, stamp := 0, payload := 0 }
  let empty := words.isNone
  h'.word :: (bits w2 43 32 * 2 ^ 52 + bits w2 31 28 * 2 ^ 48 + st * 2 ^ 40 + bits w2 27 27 * 2 ^ 39 + b2n empty * 2 ^ 38
    + bits w2 24 0) :: words.getD []

/-- The classes whose READ_REQ for bank words reaches a bank (R797): a HOST or OPERATOR request comes only from an engine
carrying out a command, within the footprint of some pasture. -/
def Chip.bankReadAllowed (c : Chip) (tile : Option Nat) (hdr w2 : Nat) : Bool :=
  let o := (Hdr.of hdr).origin
  let engine := bit w2 55 && [pgSHEP, pgPLACE, pgDENSE, pgXFER].contains (bits w2 54 44)
  let within := match tile with | some k => !(c.touching k).isEmpty | none => true
  o = 0 || o = 4 || ((o = 2 || o = 3) && engine && within)

end Sys2Proof.Machine
end

