-- ==== Sys2Proof/Machine/Commands.lean ====
section
/-! DEFINITION. Starting a READY command (R360, R373, R394, R441) and the Shepherd's commands NOP to SET_OP_POINT
(R396–R416), written once for a host's command and for the share of another package (R904). -/

namespace Sys2Proof.Machine

/-! ### Operands -/

/-- The opcodes of which one at a time runs per pasture (R394). -/
def exclusiveOp (op : Nat) : Bool := op == 0x05 || op == 0x06 || op == 0x12 || (0x41 ≤ op && op ≤ 0x47)

/-- A target of PASS: image package, die and tile (R426). -/
def SbEntry.targets (x : SbEntry) : List (Nat × Nat × Nat) :=
  ((upto 4).map (fun i => x.bytes (32 + 4 * i) 4)).filterMap (fun w =>
    if bit w 31 then some (bits w 17 10, bits w 9 8, bits w 7 0) else none)

/-- The tile of pasture `x` at image package, die and tile, when it lies in this package. -/
def Past.imageTile (x : Past) (p d t : Nat) : Option PTile :=
  x.tiles.find? (fun u => u.imgPkg.toNat == p && u.imgDie.val == d && u.imgTile.val == t)

/-- The image package and the bank offset of a tile-bank location of COPY (R431). -/
def copyTile (loc : Nat) : Nat × Nat × Nat × Nat := (bits loc 42 35, bits loc 34 33, bits loc 32 25, bits loc 24 0)

/-- The domains, by number, that a COPY end needs in this package (R588). -/
def Chip.copyDoms (c : Chip) (x : SbEntry) (kind loc : Nat) : List Nat :=
  if kind = 1 then
    let l := copyTile loc
    match (c.past x.pasture).imageTile l.1 l.2.1 l.2.2.1 with | some t => [t.key] | none => []
  else if kind = 2 then (if bits loc 42 35 = c.pkg then [domCOMMONS] else [])
  else []

/-- The domains that a command needs, in the order of R588: destination then source for COPY, the commons bank then
the targets for PASS, the NV store for its users. -/
def Chip.needs (c : Chip) (x : SbEntry) : List Nat :=
  let op := x.opcode
  if op = 0x40 then
    let k := x.bytes 52 1
    c.copyDoms x (bits k 3 2) (x.bytes 40 8) ++ c.copyDoms x (bits k 1 0) (x.bytes 32 8)
  else if op = 0x20 then
    (if bit (x.bytes 52 4) 31 then [domCOMMONS] else [])
      ++ x.targets.filterMap (fun t => ((c.past x.pasture).imageTile t.1 t.2.1 t.2.2).map (fun u => u.key))
  else if op = 0x46 || op = 0x47 || (op = 0x41 && bit (x.bytes 44 1) 0) then [domNV]
  else []

/-! ### Room (R360, R373, R394, R427) -/

/-- A Transfer channel is free. -/
def Chip.channelFree (c : Chip) : Bool := c.channels.any (fun h => h.entry.isNone)

/-- Another command of R394 runs on the pasture of entry `e`. -/
def Chip.exclusiveRuns (c : Chip) (e : Nat) : Bool :=
  let x := c.entry e
  exclusiveOp x.opcode && c.live.any (fun y => y.1 != e && y.2.state == .running && exclusiveOp y.2.opcode && y.2.pasture == x.pasture)

/-- The unit of entry `e` has room for it. -/
def Chip.hasRoom (c : Chip) (e : Nat) : Bool :=
  let x := c.entry e
  let op := x.opcode
  !c.exclusiveRuns e
    && !(unitOf op == 3 && !c.channelFree)
    && !(x.woke && (c.needs x).any (fun n => (c.dom n).waking))
    && !((op == 0x46 || op == 0x47) && c.nv.shelter.isSome)
    && !(op == 0x20 && x.targets.any (fun t => match (c.past x.pasture).imageTile t.1 t.2.1 t.2.2 with
          | some u => c.denseBarred u.key | none => false))
    && !(op == 0x11 && (c.past x.pasture).presence != .free && 4096 < (c.past x.pasture).inject.length + x.bytes 40 2
          && x.bytes 40 2 ≤ 4096)

/-- Entry `e` stands before entry `f` at a unit or on a pasture that both use (R360, R441). -/
def Chip.aheadOf (c : Chip) (e f : Nat) : Bool :=
  let x := c.entry e
  let y := c.entry f
  decide (x.readyNo < y.readyNo)
    && (unitOf x.opcode == unitOf y.opcode || (!namesNone x.opcode && !namesNone y.opcode && x.pasture == y.pasture))

/-- Entry `e` is READY with opcode `op`, and its unit takes it now. -/
def Chip.startable (c : Chip) (e op : Nat) : Bool :=
  let x := c.entry e
  x.state == .ready && x.opcode == op && c.hasRoom e
    && !(c.live.any (fun y => y.1 != e && y.2.state == .ready && c.aheadOf y.1 e && c.hasRoom y.1))

/-- Entry `e` becomes RUNNING, with a Transfer channel when its unit is the Transfer engine. -/
def Chip.running (c : Chip) (e : Nat) : Chip :=
  let c := c.updEntry e (fun x => { x with state := .running })
  if unitOf (c.entry e).opcode ≠ 3 then c
  else match (upto 16).find? (fun i => (nth ({ entry := none } : Channel) c.channels i).entry.isNone) with
    | some i => { c with channels := listSet c.channels i { entry := some (Fin.ofNat 512 e) } }
    | none => c

/-- What a command needs of its domains: it goes on, it waits for the one wake, or it ends (R586, R588). -/
inductive DomGate
  | go
  | waits (n : Nat)
  | ends (st : Nat)
  deriving DecidableEq, Repr

/-- The domains of entry `e` tested in their order (R586, R588). -/
def Chip.domGate (c : Chip) (e : Nat) : DomGate :=
  let x := c.entry e
  let ns := c.needs x
  match ns.find? (fun n => (c.dom n).state != .on) with
  | some n => if x.flag 19 && !x.woke then .waits n else .ends stASLEEP
  | none => if ns.any (fun n => (c.dom n).draining) then .ends stDRAINING else .go

/-- A command that names a pasture of several packages sends its share to the Shepherd of each other package (R904);
the packages out of reach, if any. -/
def Chip.shareOut (c : Chip) (e : Nat) : Chip × Bool :=
  let x := c.entry e
  let ps := ((c.past x.pasture).pkgMap.map (fun b => b.toNat)).filter (fun q => q != c.pkg)
  match x.source with
  | .share => (c, true)
  | .ctx _ =>
    if namesNone x.opcode || !ps.all (fun q => c.hasPath q) then (c, ps.isEmpty || namesNone x.opcode)
    else (c.sendAll (ps.map (fun q => ({ kind := kCOMMAND, pkg := q, qclass := 2, origin := 0, tag := baseTag pgSHEP : Hdr }).word
            :: x.words.map (fun w => w.toNat))), true)

/-- The command of entry `e` starts, if it has opcode `op` and its unit takes it: its domains are tested, its share goes
out to other packages, and `f` carries it out. A Transfer command that finds no channel waits for one, which is counted
once (R372, R373). -/
def Chip.start (c : Chip) (e op : Nat) (f : Chip → Chip) : Chip :=
  if c.startable e op then
    match c.domGate e with
    | .waits n => (c.wakeDomain n).updEntry e (fun x => { x with woke := true })
    | .ends st => (c.running e).finishBad e st
    | .go =>
      let r := (c.running e).shareOut e
      if r.2 then f r.1 else r.1.finishBad e stPATH_LOST
  else if (c.entry e).state = .ready && (c.entry e).opcode = op && unitOf op = 3 && !c.channelFree && !(c.entry e).waitedPool then
    (c.count pgXFER 0x128 1).updEntry e (fun x => { x with waitedPool := true })
  else c

/-- The command of entry `e` acts on a pasture that exists; otherwise BAD_OPERAND (R391). -/
def Chip.onPast (c : Chip) (e : Nat) (f : Nat → Past → Chip) : Chip :=
  let p := (c.entry e).pasture
  if (c.past p).presence = .free then c.finishBad e stBAD_OPERAND else f p (c.past p)

/-! ### NOP and SYNC_CFG -/

/-- NOP. -/
def Chip.doNop (c : Chip) (e : Nat) : Chip := c.onPast e (fun _ _ => c.finishOk e 0)

/-- INIT lies in the range of TYPE (R397). -/
def initOk (t v : Nat) : Bool :=
  if t = 0 then v = 0 else if t = 1 then true else if t = 2 then 1 ≤ v && v ≤ 32767 else v ≤ 1

/-- SYNC_CFG (R397, R398). -/
def Chip.doSyncCfg (c : Chip) (e : Nat) : Chip :=
  let x := c.entry e
  let w := x.bytes 32 4
  let o := bits w 13 0
  let t := bits w 17 16
  let n := (c.waitersOf o).length
  if n ≠ 0 then c.finish e stBAD_OPERAND n (progressWord 0 0)
  else if !initOk t (x.bytes 36 4) || (bit w 31 && (c.past x.pasture).presence = .free) then c.finishBad e stBAD_OPERAND
  else (c.putObj o (objInit t (x.bytes 36 4) (if bit w 31 then some x.pasture else none))).finishOk e 0

/-! ### HOLD and RELEASE -/

/-- HOLD (R399–R404): pending until the next muster, or at once between rounds. -/
def Chip.doHold (c : Chip) (e : Nat) : Chip :=
  c.onPast e (fun p x =>
    let r := c.entry e
    let me : List EntryId := [Fin.ofNat 512 e]
    let dur : W32 := BitVec.ofNat 32 (r.bytes 32 4)
    let h : PendingHold := match x.pendingHold with
      | some q => { q with duration := dur, entries := q.entries ++ me }
      | none => { duration := dur, stopStreams := bit (r.bytes 36 4) 0, entries := me }
    if x.between then c.takeHold p h else c.updPast p (fun x => { x with pendingHold := some h }))

/-- RELEASE (R405, R406). -/
def Chip.doRelease (c : Chip) (e : Nat) : Chip :=
  c.onPast e (fun p x =>
    if x.restoreFailed then c.finishBad e stBAD_OPERAND
    else
      let ended := x.hold.isSome || x.pendingHold.isSome
      let c := match x.pendingHold with
        | some q => q.entries.foldl (fun (c : Chip) (f : EntryId) => c.finishBad f.val stABORTED) (c.updPast p (fun x => { x with pendingHold := none }))
        | none => c
      let still := { c.past p with hold := none }.held
      let c := (c.finishOk e (x.round.toNat + b2n ended * 2 ^ 32 + b2n still * 2 ^ 33)).endHold p
      if x.hold.isSome then c.startParked p else c)

/-! ### ABORT -/

/-- The effect of ABORT on entry `t`: whether it is aborted (R404, R408). -/
def Chip.abortOne (c : Chip) (t : Nat) : Chip × Bool :=
  let y := c.entry t
  let op := y.opcode
  let me := some (Fin.ofNat 512 t : EntryId)
  if op = 0x02 || op = 0x03 || op = 0x04 then (c, false)
  else if y.state = .waiting || y.state = .ready then (c.finishBad t stABORTED, true)
  else if y.state ≠ .running then (c, false)
  else if op = 0x10 || op = 0x30 then
    let p := y.pasture
    let x := c.past p
    if (x.run.bind (fun r => r.entry)) = me then
      if x.between then ((c.endRun p stABORTED).holdAsIf p, true) else (c.updPast p (fun x => { x with abortRun := true }), true)
    else if (x.nextRun.bind (fun r => r.entry)) = me then (c.updPast p (fun x => { x with abortNext := true }), true)
    else (c, false)
  else if op = 0x40 || op = 0x20 then (c.updEntry t (fun z => { z with aborting := true }), true)
  else (c, false)

/-- The commands that ABORT entry `e` of pasture `p` names: all of the pasture, or those of one SEQ and context (R407). -/
def Chip.abortHits (c : Chip) (e p : Nat) : List Nat :=
  let w := (c.entry e).bytes 32 4
  let hit (y : Nat × SbEntry) : Bool := y.2.state != .completing &&
    (if bit w 31 then !namesNone y.2.opcode && y.2.pasture == p
     else y.2.seq == bits w 15 0 && y.2.ctx == bits w 27 16 && (match y.2.source with | .ctx _ => true | .share => false))
  (c.live.filter hit).map (fun y => y.1)

/-- ABORT (R407–R409, R443). -/
def Chip.doAbort (c : Chip) (e : Nat) : Chip :=
  c.onPast e (fun p _ =>
    let w := (c.entry e).bytes 32 4
    if bit w 31 && bits w 27 0 ≠ 0 then c.finishBad e stBAD_OPERAND
    else
      let s := (c.abortHits e p).foldl (fun (s : Chip × Nat × Nat) t =>
        let q := s.1.abortOne t
        if q.2 then (q.1, s.2.1 + 1, s.2.2) else (q.1, s.2.1, s.2.2 + 1)) (c, 0, 0)
      s.1.finishOk e (s.2.1 + s.2.2 * 2 ^ 16))

/-! ### SHIFT and UNLOAD -/

/-- SHIFT (R410, R445, R484): at the next muster, or at once between rounds. -/
def Chip.doShift (c : Chip) (e : Nat) : Chip :=
  c.onPast e (fun p x =>
    let avoid := bits ((c.entry e).bytes 32 1) 3 0
    let fenced := x.faultHold = some (BitVec.ofNat 8 stFENCED)
    if !x.flags.getLsbD flSHIFTABLE && !fenced then c.finishBad e stBAD_OPERAND
    else if !x.resident then c.finishBad e stNO_PLACE
    else if x.between then c.shift p e avoid
    else c.updPast p (fun x => { x with shifts := x.shifts ++ [(Fin.ofNat 512 e, BitVec.ofNat 4 avoid)] }))

/-- The sync objects that pasture `p` owns return to NONE and their waiters complete with ABORTED (R411). -/
def Chip.dropObjs (c : Chip) (p : Nat) : Chip :=
  let os := (c.objs.filter (fun o => o.2.owned && o.2.owner.val == p)).map (fun o => o.1)
  os.foldl (fun c o =>
    let ws := c.waitersOf o
    let c := c.putObj o SyncObj.init
    ws.foldl (fun c e => if (c.entry e).state = .waiting then c.finishBad e stABORTED else c) c) c

/-- Pasture `p` and its identifier are freed: its streams, its ladder and its NV area's owner with it (R411, R530). -/
def Chip.forget (c : Chip) (p : Nat) : Chip :=
  let c := ((c.freeTiles p (c.past p).tiles).unbind p).dropLadder p
  let c := match c.areaOf p with | some (i, a) => c.putArea i { a with owner := none } | none => c
  { c with sliceQ := c.sliceQ.filter (fun q => q.val != p), pasts := mapErase c.pasts p }

/-- UNLOAD (R411). -/
def Chip.doUnload (c : Chip) (e : Nat) : Chip :=
  c.onPast e (fun p x =>
    if x.running || x.pendingHold.isSome then c.finishBad e stBUSY_PASTURE
    else
      let ws := (c.live.filter (fun y => y.1 != e && (y.2.state == .waiting || y.2.state == .ready) && !namesNone y.2.opcode
        && y.2.pasture == p)).map (fun y => y.1)
      let c := ws.foldl (fun c f => if (c.entry f).state = .waiting || (c.entry f).state = .ready then c.finishBad f stABORTED else c) c
      let c := c.endRun p stABORTED
      ((c.dropObjs p).forget p).finishOk e x.tiles.length)

/-! ### SET_DOMAIN and SET_OP_POINT -/

/-- The class of the context of an entry as an origin. -/
def SbEntry.asOrigin (x : SbEntry) : Origin := match x.origin with | 3 => .operator | 2 => .host | _ => .internal

/-- SET_DOMAIN (R415, R584). -/
def Chip.doSetDomain (c : Chip) (e : Nat) : Chip :=
  let x := c.entry e
  let w := x.bytes 32 4
  match domOf (bits w 17 16) with
  | none => c.finishBad e stBAD_OPERAND
  | some s => c.askDomain (bits w 9 0) { target := s, asker := .command (Fin.ofNat 512 e), origin := x.asOrigin }

/-- SET_OP_POINT (R416): the step is taken at once when no pasture on the die is RUNNING, and otherwise in the next gap. -/
def Chip.doSetOpPoint (c : Chip) (e : Nat) : Chip :=
  let x := c.entry e
  let d := bits (x.bytes 32 1) 1 0
  let mv := x.bytes 36 2
  if mv < 550 || 900 < mv || mv % 5 ≠ 0 then c.finishBad e stBAD_OPERAND
  else
    let c := c.updDie d (fun r => { r with target := mv, waiters := r.waiters ++ [Fin.ofNat 512 e] })
    let c := c.dueStep d
    if c.residents.any (fun p => (c.past p).touchesDie d && (c.past p).running) && (c.die d).step.isSome then c else c.takeStep d

end Sys2Proof.Machine
end

