-- ==== Sys2Proof/Machine/Engine.lean ====
section
/-! DEFINITION. The commands of the Spike, Dense, Anneal and Transfer engines (R418–R440, R447) but REPLAY_CHECK, which
stands in Replay.lean. A command that reads host memory, COPY apart, reads it when it starts (assumption 30). -/

namespace Sys2Proof.Machine

/-! ### RUN (R418–R421, R474) -/

/-- A RUN starts for pasture `p`, replacing one in flight at its next muster (R419, R420). -/
def Chip.beginRun (c : Chip) (p : Nat) (r : RunRec) : Chip :=
  let x := c.past p
  match x.run with
  | none =>
    let c := c.updPast p (fun x => { x with run := some r, paced := r.period != 0, period := r.period, anchored := false })
    c.due p
  | some _ =>
    let c := c.updPast p (fun x => { x with nextRun := some r, passedOver := x.passedOver ++ x.nextRun.toList, abortNext := false })
    if x.between then
      let c := c.replaceRun p
      if (c.past p).held then c else (c.updPast p (fun x => { x with tickDue := false, parked := false })).due p
    else c

/-- The Shepherd pages pasture `p` in when its image lies in the page area (R474). -/
def Chip.callIn (c : Chip) (p : Nat) : Chip × Nat :=
  let x := c.past p
  if x.presence = .pagedOut && x.inPageArea && !(c.sliceQ.any (fun q => q.val == p)) then c.shepherdIn p else (c, stOK)

/-- RUN. -/
def Chip.doRun (c : Chip) (e : Nat) : Chip :=
  c.onPast e (fun p x =>
    let r := c.entry e
    let period := r.bytes 32 4
    if 1000000 < period || x.restoreFailed then c.finishBad e stBAD_OPERAND
    else if x.run.any (fun q => q.ladder) then c.finishBad e stBUSY_PASTURE
    else
      let q := c.callIn p
      if q.2 != stOK then q.1.finishBad e q.2
      else q.1.beginRun p { entry := some (Fin.ofNat 512 e), ladder := false, period := BitVec.ofNat 32 period
                            rounds := BitVec.ofNat 32 (r.bytes 36 4), advanced := 0, saturated := false, degraded := false })

/-! ### INJECT (R422, R423) -/

/-- An injected word keeps R422 for pasture `x`. -/
def injectOk (x : Past) (w : Nat) : Bool :=
  let h := Hdr.of w
  (h.kind = kAXON || h.kind = kTALLY) && h.qclass = 0
    && (x.img.tilesOf h.pkg h.die).any (fun t => t.tile == tileOf h.x h.y)

/-- INJECT. -/
def Chip.doInject (c : Chip) (e : Nat) : Chip :=
  c.onPast e (fun p x =>
    let r := c.entry e
    let src := r.bytes 32 8
    let n := r.bytes 40 2
    if src % 8 ≠ 0 || n < 1 || 4096 < n then c.finishBad e stBAD_OPERAND
    else match c.hostStatus with
      | some st => c.finishBad e st
      | none =>
        let ws := fields 8 n (memReadN c.host src (8 * n))
        if !ws.all (injectOk x) then c.finishBad e stBAD_OPERAND
        else
          let waits := x.resident && x.running
          let me : Option EntryId := if waits then some (Fin.ofNat 512 e) else none
          let c := c.updPast p (fun x => { x with inject := x.inject ++ ws.map (fun w => { word := BitVec.ofNat 64 w, entry := me }) })
          if waits then c.unpark p
          else if x.held || !x.resident then
            ((c.finish e stHELD (n * 2 ^ 32) (progressWord 0 0)).callIn p).1
          else c.finishOk e (0xFFFFFFFF + n * 2 ^ 32))

/-! ### PASS (R426, R427) -/

/-- The window registers of a target loaded as its image gives them (R427, R301). -/
def Chip.loadWindows (c : Chip) (x : Past) (t : PTile) : Chip :=
  (upto 4).foldl (fun c i =>
    let off := 0x108 + 4 * i
    c.updTile t.key (fun u => { u with pCore := u.pCore.wr off (x.img.reg t.imgPkg.toNat t.imgDie.val t.imgTile.val off) })) c

/-- Line `i` of a stage sent to each target in order (R289). -/
def Chip.stageLine (c : Chip) (line off win : Nat) (ts : List PTile) (s : Nat) (i : Nat) : Chip × Nat :=
  let r := c.serveLine (line + i)
  let c := (r.1.countWrap pgCOMMONS 0x118 ts.length).count pgDENSE 0x10C 1
  let c := ts.foldl (fun c t =>
    let a := (c.tile t.key).pCore.fld (0x108 + 8 * win) 19 0 + off + 64 * i
    if inBank a 64 (tileWords t.key) then (c.wakeTile t.key).tileWrite t.key a r.2.1 else c.tileDiscard t.key .misaddressed 0) c
  (c, if r.2.2 then worse s stUNCORRECTED else s)

/-- PASS. -/
def Chip.doPass (c : Chip) (e : Nat) : Chip :=
  c.onPast e (fun _ x =>
    let r := c.entry e
    let ts := r.targets
    let here := ts.filterMap (fun t => x.imageTile t.1 t.2.1 t.2.2)
    let ok (t : Nat × Nat × Nat) : Bool :=
      tileKind t.2.2 = .tensor && (x.img.tilesOf t.1 t.2.1).any (fun u => u.tile == t.2.2 && u.core)
    let stage := bit (r.bytes 52 4) 31
    let line := bits (r.bytes 52 4) 17 0
    let n := bits (r.bytes 56 4) 15 0
    let off := bits (r.bytes 60 4) 19 0
    if ts.isEmpty || !ts.all ok || (stage && (n = 0 || 262144 < line + n || off % 64 ≠ 0)) then c.finishBad e stBAD_OPERAND
    else if !x.resident then c.finishBad e stBUSY_PASTURE
    else
      let c := here.foldl (fun c t => (c.loadWindows x t).wakeTile t.key) c
      let win := bits (r.bytes 56 4) 16 16
      let s := if stage then (upto n).foldl (fun (s : Chip × Nat) i => s.1.stageLine line off win here s.2 i) (c, stOK) else (c, stOK)
      let keys := (here.map (fun t => t.key)).eraseDups
      if keys.isEmpty then s.1.finish e s.2 0 (progressWord 100 0)
      else
        let c := s.1.updEntry e (fun x => { x with parts := keys.length, status := BitVec.ofNat 8 s.2, result := 0, done := 0 })
        keys.foldl (fun c k => c.chainOn k { desc := BitVec.ofNat 6 (r.bytes 48 4), waiting := false
                                             entry := some (Fin.ofNat 512 e), round := none, status := 0 }) c)

/-! ### LADDER (R428, R429) -/

/-- The ladder of pasture `p` starts anew: s₀, its exchange count, BEST and the stop parameters (R327–R329). -/
def Ladder.begin (l : Ladder) (s0 : W32) (e : Option EntryId) (target : Option W32) (limit : W32) (stag : W16) : Ladder :=
  { l with running := true, inexact := false, s0 := s0, exchIndex := 0, best := 0, bestReplica := 0, bestExch := 0, bestSet := false
           stag := 0, entry := e, target := target, roundLimit := limit, stagExch := stag, stopping := none
           replicas := l.replicas.map (fun r => { r with report := 0 }) }

/-- LADDER. -/
def Chip.doLadder (c : Chip) (e : Nat) : Chip :=
  c.onPast e (fun p x =>
    let r := c.entry e
    let period := r.bytes 48 4
    match c.ladderOf p with
    | none => c.finishBad e stBAD_OPERAND
    | some (i, l) =>
      if 1000000 < period || x.restoreFailed || x.kind ≠ 1 || !l.root then c.finishBad e stBAD_OPERAND
      else if x.run.isSome then c.finishBad e stBUSY_PASTURE
      else
        let q := c.callIn p
        if q.2 != stOK then q.1.finishBad e q.2
        else
          let me : Option EntryId := some (Fin.ofNat 512 e)
          let target : Option W32 := if bit (r.bytes 36 4) 0 then some (BitVec.ofNat 32 (r.bytes 32 4)) else none
          let c := q.1.putLadder i (l.begin x.round me target (BitVec.ofNat 32 (r.bytes 40 4)) (BitVec.ofNat 16 (r.bytes 44 2)))
          c.beginRun p { entry := me, ladder := true, period := BitVec.ofNat 32 period, rounds := 0, advanced := 0
                         saturated := false, degraded := false })

/-! ### COPY (R430–R432, R447) -/

/-- Operands of COPY in range (R430, R431): kinds, length, alignment and the ends within their banks. -/
def Chip.copyOk (c : Chip) (x : Past) (r : SbEntry) : Bool :=
  let len := bits (r.bytes 48 4) 24 0
  let k := r.bytes 52 1
  let side (kind loc : Nat) : Bool :=
    loc % 8 = 0 &&
    (if kind = 0 then true
     else if kind = 1 then
       let l := copyTile loc
       loc / 2 ^ 43 = 0 && (x.img.tilesOf l.1 l.2.1).any (fun t => t.tile == l.2.2.1 && t.core)
         && inBank l.2.2.2 len (tileWords l.2.2.1) && x.resident
     else loc / 2 ^ 43 = 0 && bits loc 34 24 = 0 && bits loc 23 0 + len ≤ 16777216
       && (bits loc 42 35 = c.pkg || c.hasPath (bits loc 42 35)))
  8 ≤ len && len ≤ 16777216 && len % 8 = 0 && bits k 1 0 < 3 && bits k 3 2 < 3 && bits k 3 0 ≠ 0
    && side (bits k 1 0) (r.bytes 32 8) && side (bits k 3 2) (r.bytes 40 8)

/-- COPY ends with status `st` after `n` bytes (R432). -/
def Chip.copyEnd (c : Chip) (e st : Nat) : Chip :=
  let r := c.entry e
  let len := bits (r.bytes 48 4) 24 0
  c.finish e st r.done (progressWord (100 * r.done / max len 1) (r.done / 1024))

/-- The bytes moved counted on the XFER_E page (R387). -/
def Chip.moved (c : Chip) (n : Nat) : Chip :=
  c.updPage pgXFER (fun p =>
    let v := p.rd 0x120 + 2 ^ 32 * p.rd 0x124 + n
    (p.wr 0x120 (v % 2 ^ 32)).wr 0x124 (v / 2 ^ 32 % 2 ^ 32))

/-- Words cut into the pieces of 30 that DATA messages carry (R99, R432). -/
def cut30 : Nat → List Nat → List (List Nat)
  | 0, _ => []
  | f + 1, l => if l.isEmpty then [] else l.take 30 :: cut30 f (l.drop 30)

/-- Words written at offset `off` of the destination, as bank writes or in host memory; a status when the destination
cannot take them. -/
def Chip.copyPut (c : Chip) (e off : Nat) (ws : List Nat) : Chip × Nat :=
  let r := c.entry e
  let x := c.past r.pasture
  let kind := bits (r.bytes 52 1) 3 2
  let loc := r.bytes 40 8
  let pieces := cut30 (ws.length + 1) ws
  if kind = 0 then
    match c.hostStatus with
    | some st => (c, st)
    | none => (c.hostWrite (loc + off) (ws.flatMap (natLe 8)), stOK)
  else if kind = 1 then
    let l := copyTile loc
    if !x.resident then (c, stBAD_OPERAND)
    else match x.imageTile l.1 l.2.1 l.2.2.1 with
      | some t =>
        if !c.bankOn t.key then (c, stASLEEP)
        else
          let s := pieces.foldl (fun (s : Chip × Nat) q =>
            ((s.1.wakeTile t.key).tileWrite t.key s.2 q, s.2 + 8 * q.length)) (c, l.2.2.2 + off)
          (s.1, stOK)
      | none =>
        let q := x.map.toPhys l.1 l.2.1 l.2.2.1
        if !c.hasPath q.1 then (c, stPATH_LOST)
        else
          let s := pieces.foldl (fun (s : List (List Nat) × Nat) w =>
            (s.1 ++ [dataWrite q.1 q.2.1 (tileX q.2.2) (tileY q.2.2) r.origin 0 s.2 w], s.2 + 8 * w.length)) ([], l.2.2.2 + off)
          (c.sendAll s.1, stOK)
  else
    let a := bits loc 23 0 + off
    let pkg := bits loc 42 35
    if pkg = c.pkg then
      if !c.domOn domCOMMONS then (c, stASLEEP)
      else
        let s := pieces.foldl (fun (s : Chip × Nat) q => (s.1.commonsWrite (s.2 / 8) q, s.2 + 8 * q.length)) (c, a)
        (s.1, stOK)
    else if !c.hasPath pkg then (c, stPATH_LOST)
    else
      let s := pieces.foldl (fun (s : List (List Nat) × Nat) w =>
        (s.1 ++ [({ kind := kDATA, pkg := pkg, qclass := 1, origin := r.origin, tag := baseTag pgCOMMONS : Hdr }).word
          :: (w.length * 2 ^ 48 + s.2) :: w], s.2 + 8 * w.length)) ([], a)
      (c.sendAll s.1, stOK)

/-- What the source of a COPY gives for the bytes [off, off + n): words of this package's banks, a request that has to be
answered, or a failure. -/
inductive CopySrc
  | words (ws : List Nat) (bad : Bool)
  | host
  | remote (m : List Nat)
  | fails (st : Nat)

/-- The words before the first one of a bank that is uncorrectable. -/
def goodWords (k : BankCtx) (w : Nat) : Nat → List Nat → List Nat
  | _, [] => []
  | i, d :: l =>
    let x := wordRaw k.b.mem (k.phys (w + i))
    match eccClass x.1 x.2 with
    | .uncorrectable => []
    | _ => d :: goodWords k w (i + 1) l

/-- The source of COPY entry `e` read at offset `off` for `n` bytes. -/
def Chip.copyGet (c : Chip) (e off n : Nat) : Chip × CopySrc :=
  let r := c.entry e
  let x := c.past r.pasture
  let kind := bits (r.bytes 52 1) 1 0
  let loc := r.bytes 32 8
  let req (pkg die x y base a : Nat) : List Nat :=
    [({ kind := kREADREQ, pkg := pkg, die := die, x := x, y := y, qclass := 1, origin := r.origin, tag := base : Hdr }).word,
     c.pkg * 2 ^ 56 + 2 ^ 55 + pgXFER * 2 ^ 44 + e * 2 ^ 32 + (min n 128 / 8 - 1) * 2 ^ 28 + a % 2 ^ 25]
  if kind = 0 then (match c.hostStatus with | some st => (c, .fails st) | none => (c, .host))
  else if kind = 1 then
    let l := copyTile loc
    let a := l.2.2.2 + off
    if !x.resident then (c, .fails stBAD_OPERAND)
    else match x.imageTile l.1 l.2.1 l.2.2.1 with
      | some t =>
        if !c.bankOn t.key then (c, .fails stASLEEP)
        else
          let q := c.tileRead t.key (a / 8) (n / 8)
          (q.1, .words (goodWords (q.1.tile t.key).bankCtx (a / 8) 0 q.2.1) q.2.2)
      | none =>
        let q := x.map.toPhys l.1 l.2.1 l.2.2.1
        if !c.hasPath q.1 then (c, .fails stPATH_LOST)
        else (c, .remote (req q.1 q.2.1 (tileX q.2.2) (tileY q.2.2) 0 a))
  else
    let a := bits loc 23 0 + off
    let pkg := bits loc 42 35
    if pkg = c.pkg then
      if !c.domOn domCOMMONS then (c, .fails stASLEEP)
      else
        let q := c.commonsRead (a / 8) (n / 8)
        (q.1, .words (goodWords q.1.commonsCtx (a / 8) 0 q.2.1) q.2.2)
    else if !c.hasPath pkg then (c, .fails stPATH_LOST)
    else (c, .remote (req pkg 0 0 0 (baseTag pgCOMMONS) a))

/-- Words that came from the source of COPY entry `e` written on; `bad` ends it with UNCORRECTED (R447). -/
def Chip.copyTake (c : Chip) (e : Nat) (ws : List Nat) (bad : Bool) : Chip × Bool :=
  let q := c.copyPut e (c.entry e).done ws
  if q.2 != stOK then (q.1.copyEnd e q.2, false)
  else
    let c := (q.1.moved (8 * ws.length)).updEntry e (fun x => { x with done := x.done + 8 * ws.length })
    if bad then (c.copyEnd e stUNCORRECTED, false)
    else
      let r := c.entry e
      let len := bits (r.bytes 48 4) 24 0
      if len ≤ r.done then (c.copyEnd e stOK, false)
      else if r.aborting && r.done % 4096 = 0 then (c.copyEnd e stABORTED, false)
      else (c.updEntry e (fun x => { x with progress := progressWord (100 * x.done / max len 1) (x.done / 1024) }), true)

/-- COPY entry `e` goes on in chunks of 4 KiB, until it ends or waits for an answer. -/
def Chip.copyOn (c : Chip) (e : Nat) : Nat → Chip
  | 0 => c
  | f + 1 =>
    let r := c.entry e
    let len := bits (r.bytes 48 4) 24 0
    let n := min (4096 - r.done % 4096) (len - r.done)
    let q := c.copyGet e r.done n
    match q.2 with
    | .fails st => q.1.copyEnd e st
    | .host => q.1
    | .remote m => { q.1.send m with reads := q.1.reads ++ [{ rtag := e, issuer := pgXFER, count := min n 128 / 8, pkg := (Hdr.of (nth 0 m 0)).pkg }] }
    | .words ws bad =>
      let s := q.1.copyTake e ws bad
      if s.2 then s.1.copyOn e f else s.1

/-- COPY. -/
def Chip.doCopy (c : Chip) (e : Nat) : Chip :=
  c.onPast e (fun _ x => if c.copyOk x (c.entry e) then c.copyOn e 4097 else c.finishBad e stBAD_OPERAND)

/-! ### LOAD (R433, R434) -/

/-- The placement of a LOAD: from this package first, or, for the share of another package's LOAD, from the first other
package from which a part falls here (R904, assumption 20). -/
def Chip.loadMap (c : Chip) (share : Bool) (m : Img) : Option PlaceMap :=
  if share then ((upto c.machineSize).filter (fun q => q != c.pkg)).findSome? (fun b => c.searchFrom m b 0 (fun _ => false))
  else c.searchAll m (fun _ => false)

/-- The image of LOAD is placed for pasture `p`; the answer is a status. -/
def Chip.place (c : Chip) (share : Bool) (p : Nat) (b : List Byte) : Chip × Nat :=
  let m := Img.read b
  if !imgOk b b.length 0 || m.syncs.any (fun w => (c.obj (bits w 13 0)).type != 0) then (c, stBAD_OPERAND)
  else match c.loadMap share m with
    | none => (c.noPlace, stNO_PLACE)
    | some pm =>
      if c.areaBad p m pm.here then (c, stBAD_OPERAND)
      else match c.bindStreams p pm.here m with
        | none => (c.noPlace, stNO_PLACE)
        | some c =>
          let c := ((c.install p m pm false).claimArea p m).loadSyncs p m
          ((c.updPast p (fun x => { x with residentSince := c.now })).placed, stOK)

/-- No unit under test any more. -/
def Chip.testsEnded (c : Chip) : Chip := { c with units := c.units.map (fun u => (u.1, { u.2 with testing := false })) }

/-- The command of entry `e` has found no map only because of TESTING units, for the first time; it waits until those tests
end (R853). `again` is the status that its search gives. -/
def Chip.blocked (c : Chip) (e : Nat) (st : Nat) (again : Chip → Nat) : Bool :=
  st = stNO_PLACE && (c.entry e).parts = 0 && c.units.any (fun u => u.2.testing) && again c.testsEnded != stNO_PLACE

/-- Entry `e` waits for its second search. -/
def Chip.waitTests (c : Chip) (e : Nat) : Chip := c.updEntry e (fun x => { x with parts := 1 })

/-- LOAD. -/
def Chip.doLoad (c : Chip) (e : Nat) : Chip :=
  let r := c.entry e
  let p := r.pasture
  let src := r.bytes 32 8
  let len := r.bytes 40 4
  let nv := bit (r.bytes 44 1) 0
  if (c.past p).presence != .free then c.finishBad e stBUSY_PASTURE
  else if !nv && src % 64 ≠ 0 then c.finishBad e stBAD_OPERAND
  else
    let got : Chip × Nat × List Byte :=
      if nv then
        (if 33554432 < src + len then (c, stBAD_OPERAND, [])
         else match c.nvBytes src len with | (c, some b) => (c, stOK, b) | (c, none) => (c, stNV_COPY_FAIL, []))
      else match c.hostStatus with | some st => (c, st, []) | none => (c, stOK, memReadN c.host src len)
    if got.2.1 != stOK then got.1.finishBad e got.2.1
    else
      let share := r.source == .share
      let q := got.1.place share p got.2.2
      if c.blocked e q.2 (fun c => (c.place share p got.2.2).2) then c.waitTests e
      else if q.2 != stOK then q.1.finishBad e q.2
      else
        let x := q.1.past p
        let c := (q.1.shareOut e).1
        c.finishOk e (x.tiles.length % 65536 + (x.packages.toNat - 1) % 256 * 2 ^ 16 + x.round.toNat * 2 ^ 32)

/-! ### PAGE_OUT and PAGE_IN (R435, R436) -/

/-- PAGE_OUT. -/
def Chip.doPageOut (c : Chip) (e : Nat) : Chip :=
  c.onPast e (fun p x =>
    let r := c.entry e
    let a := r.bytes 32 8
    let len := r.bytes 40 4
    if !x.resident || a % 64 ≠ 0 then c.finishBad e stBAD_OPERAND
    else if x.running then c.finishBad e stBUSY_PASTURE
    else
      let q := c.captureImage p 1 0
      match q.2 with
      | none => q.1.finishBad e stUNCORRECTED
      | some b =>
        if len < b.length then q.1.finish e stBAD_OPERAND b.length (progressWord 0 0)
        else match c.hostStatus with
          | some st => q.1.finishBad e st
          | none =>
            let inArea := decide (c.areaBase ≤ a) && decide (a + b.length ≤ c.areaBase + c.areaBytes)
            ((q.1.hostWrite a b).evict p a b.length inArea).finishOk e b.length)

/-- PAGE_IN. -/
def Chip.doPageIn (c : Chip) (e : Nat) : Chip :=
  c.onPast e (fun p x =>
    let r := c.entry e
    let a := r.bytes 32 8
    if x.resident then c.finishBad e stBUSY_PASTURE
    else if a % 64 ≠ 0 then c.finishBad e stBAD_OPERAND
    else match c.hostStatus with
      | some st => c.finishBad e st
      | none =>
        let b := memReadN c.host a (r.bytes 40 4)
        let q := c.pageInFrom p b
        if c.blocked e q.2 (fun c => (c.pageInFrom p b).2) then c.waitTests e
        else if q.2 != stOK then q.1.finishBad e q.2
        else
          let c := { q.1 with sliceQ := q.1.sliceQ.filter (fun y => y.val != p) }
          (c.finishOk e 0).resume p)

/-! ### CHECKPOINT and RESTORE (R437, R438) -/

/-- CHECKPOINT: captured at the next muster, or at once between rounds. -/
def Chip.doCheckpoint (c : Chip) (e : Nat) : Chip :=
  c.onPast e (fun p x =>
    let r := c.entry e
    let dst := r.bytes 32 8
    let reg := bit (r.bytes 44 4) 0
    let slots := bits (r.bytes 44 4) 31 16
    if dst % 64 ≠ 0 || (reg && (dst = 0 || slots < 2)) || (!reg && slots ≠ 0) || (dst = 0 && x.ring.isNone) then
      c.finishBad e stBAD_OPERAND
    else if !x.resident then c.finishBad e stBUSY_PASTURE
    else if x.between then c.checkpoint p e
    else c.updPast p (fun x => { x with ckpts := x.ckpts ++ [Fin.ofNat 512 e] }))

/-- The placement that a restore of pasture `p` from image `m` uses: its own footprint unless that touches a FENCED unit;
a search for a pasture that is not resident (R438). -/
def Chip.restoreMap (c : Chip) (p : Nat) (m : Img) : Option PlaceMap :=
  if (c.past p).resident then (if c.offFences p then some (c.past p).map else c.shiftMap p 0) else c.searchAll m (fun _ => false)

/-- Pasture `p` takes the state of checkpoint `b` and holds as if by HOLD; the answer is a status (R438). -/
def Chip.restoreFrom (c : Chip) (p : Nat) (b : List Byte) : Chip × Nat :=
  let m := Img.read b
  if !imgOk b b.length 2 || m.owner != p then (c, stBAD_OPERAND)
  else match c.restoreMap p m with
    | none => (c.noPlace, stNO_PLACE)
    | some pm =>
      let x := c.past p
      let fresh := x.presence = .free
      match (if fresh then c.bindStreams p pm.here m else some c) with
      | none => (c.noPlace, stNO_PLACE)
      | some c =>
        let c := (c.freeTiles p x.tiles).install p m pm true
        let c := if fresh then c.claimArea p m else c
        let c := c.updPast p (fun x => { x with
          pageLen := 0, inPageArea := false, sliceRan := 0, residentSince := c.now, faultHold := none, pendingFault := none
          restoreFailed := false, stalled := false, droveBad := false, phase := .none
          anchored := false, tickDue := false, parked := false, quiet := false, entered := [] })
        ((c.holdAsIf p).placed, stOK)

/-- RESTORE. -/
def Chip.doRestore (c : Chip) (e : Nat) : Chip :=
  let r := c.entry e
  let p := r.pasture
  let x := c.past p
  if x.resident && x.running then c.finishBad e stBUSY_PASTURE
  else match c.hostStatus with
    | some st => c.finishBad e st
    | none =>
      let b := memReadN c.host (r.bytes 32 8) (r.bytes 40 4)
      let q := c.restoreFrom p b
      if c.blocked e q.2 (fun c => (c.restoreFrom p b).2) then c.waitTests e
      else if q.2 != stOK then q.1.finishBad e q.2
      else q.1.finishOk e ((q.1.past p).round.toNat)

/-! ### NV_SAVE and NV_LOAD (R439, R440) -/

/-- NV_SAVE. -/
def Chip.doNvSave (c : Chip) (e : Nat) : Chip :=
  c.onPast e (fun p x =>
    if (c.areaOf p).isNone then c.finishBad e stBAD_OPERAND
    else if !x.resident then c.finishBad e stBUSY_PASTURE
    else
      let q := c.beginSave p (bit ((c.entry e).bytes 32 1) 0) (some (Fin.ofNat 512 e))
      if q.2 = stOK then q.1 else q.1.finishBad e q.2)

/-- NV_LOAD. -/
def Chip.doNvLoad (c : Chip) (e : Nat) : Chip :=
  c.onPast e (fun p x =>
    if x.running || !x.resident then c.finishBad e stBUSY_PASTURE
    else
      let q := c.nvLoad p
      q.1.finish e q.2.1 (q.2.2.1 + q.2.2.2 % 65536 * 2 ^ 32) (progressWord (if q.2.1 = stOK then 100 else 0) 0))

/-! ### The second search (R853) -/

/-- PLACEMENT_RETRY: the tests that blocked the search of entry `e` have ended, and it searches once more. -/
def Chip.placementRetry (c : Chip) (e : Nat) : Chip :=
  let x := c.entry e
  if x.state != .running || x.parts ≠ 1 then c
  else
    let c := c.testsEnded.updEntry e (fun x => { x with parts := 2 })
    if x.opcode = 0x41 then c.doLoad e else if x.opcode = 0x43 then c.doPageIn e else if x.opcode = 0x45 then c.doRestore e else c

end Sys2Proof.Machine
end

