-- ==== Sys2Proof/Machine/Health.lean ====
section
/-! DEFINITION. Field tests, deferral under live state, watch, the return of units and the two views of a unit (R412–R414,
R851–R863, R867–R869, R875), and the scrubbing and shearing of banks (R507–R519, R541). Tests take place whole in one
step (assumption 31). -/

namespace Sys2Proof.Machine

/-! ### Running tests -/

/-- The tests that apply to a unit (R413, R851). -/
def unitTests (u : Nat) : Nat :=
  match unitKind u with
  | 0 => 1
  | 1 => 17
  | 2 => 4
  | 3 => 2
  | 4 => 8
  | _ => 0

/-- A tile is cleared again after a test of unit `u` of it that carries no live state (R852). -/
def Chip.clearTested (c : Chip) (u : Nat) : Chip :=
  let k := unitTileKey u
  let f (s : Slot) : Bool := !(c.past s.pasture.val).resident
  if unitKind u = 2 then c.clearRoute k f else c.clearCore k f

/-- TEST_UNIT commands that wait on unit `u` complete. -/
def Chip.endTests (c : Chip) (u bad : Nat) : Chip :=
  (c.testsFor u).foldl (fun c e => c.finishTest e (bits ((c.entry e).bytes 36 4) 4 0) (bad &&& bits ((c.entry e).bytes 36 4) 4 0)) c

/-- The tests `ran` of a unit without live state, with the failures `bad`. -/
def Chip.testNow (c : Chip) (u ran bad : Nat) : Chip := ((c.recordTest u ran (bad &&& ran)).clearTested u).endTests u (bad &&& ran)

/-- The CRC-32C of each BANK and STATE section of the capture at `a`, as it now stands in host memory (R857). -/
def Chip.captureCrcs (c : Chip) (a : Nat) : List (Nat × Nat) :=
  let n := leAt (memReadN c.host a 16) 8 4
  sectionCrcs (memReadN c.host a n)

/-- The maintenance hold of pasture `p` ends: with a failed unit no write-back takes place; a recorded CRC that does not
match holds the pasture with UNCORRECTED (R856, R857, R875). -/
def Chip.endMaintenance (c : Chip) (p : Nat) : Chip :=
  match (c.past p).boundary with
  | none => c
  | some (a, crcs) =>
    let c := c.updPast p (fun x => { x with maintenance := false, boundary := none })
    if !c.offFences p then c
    else if c.captureCrcs a.toNat != crcs then c.faultNow p stUNCORRECTED
    else c.resume p

/-- The deferred tests `ran` of unit `u` take place in the maintenance hold of pasture `p` (R856). -/
def Chip.testHeld (c : Chip) (p u ran bad : Nat) : Chip :=
  let c := (c.testsFor u).foldl (fun c e => c.updEntry e (fun x => { x with testFlags := x.testFlags ||| 2 })) c
  let c := (c.recordTest u ran (bad &&& ran)).endTests u (bad &&& ran)
  if (c.deferredUnits p).isEmpty then c.endMaintenance p else c

/-- The pasture in whose maintenance hold a deferred unit is tested now. -/
def Chip.heldFor (c : Chip) (u : Nat) : Option Nat :=
  if (c.unit u).deferred then (c.unitPastures u).find? (fun p => (c.past p).maintenance && (c.past p).boundary.isSome) else none

/-- A test of unit `u` that has fallen due: run at once, in a maintenance hold, or deferred (R854–R856). -/
def Chip.testUnitNow (c : Chip) (u ran bad : Nat) : Chip :=
  match c.heldFor u with
  | some p => c.testHeld p u ran bad
  | none =>
    if !c.liveUnit u then c.testNow u ran bad
    else
      let x := c.unit u
      let c := c.updUnit u (fun y => { y with due := true, deferred := true, deferredAt := if x.deferred then x.deferredAt else c.now })
      (c.unitPastures u).foldl (fun c p => if (c.past p).between && !(c.past p).maintenance then c.testShift p else c) c

/-! ### TEST_UNIT (R412–R414) -/

/-- The unit that TEST_UNIT names. -/
def SbEntry.testUnit (x : SbEntry) : Nat :=
  unitKey (bits (x.bytes 32 4) 22 20) (bits (x.bytes 32 4) 9 8) (bits (x.bytes 32 4) 17 10)

/-- TEST_UNIT starts: refused, run, put off to the link's next gap, or deferred. -/
def Chip.doTestUnit (c : Chip) (e bad : Nat) : Chip :=
  let x := c.entry e
  let w := x.bytes 32 4
  let u := x.testUnit
  let ran := bits (x.bytes 36 4) 4 0
  if bits w 7 0 ≠ c.pkg then c.finishBad e (if c.hasPath (bits w 7 0) then stBAD_OPERAND else stPATH_LOST)
  else if !unitExists u || (ran &&& unitTests u) ≠ ran || (c.unit u).applied = .off then c.finishBad e stBAD_OPERAND
  else if ran = 0 then c.finishTest e 0 0
  else if unitKind u = 4 then
    let d := unitDie u
    let i := portIndex (unitTile u)
    let v := c.vlink d i
    (c.putVlink d i { v with due := true, tests := v.tests ++ [Fin.ofNat 512 e] })
  else if c.liveUnit u && x.flag 20 then c.finishBad e stBUSY_PASTURE
  else c.testUnitNow u ran bad

/-- TEST_UNIT that runs already goes on when its unit can be tested (R855, R856). -/
def Chip.moreTest (c : Chip) (e bad : Nat) : Chip :=
  let x := c.entry e
  let u := x.testUnit
  if x.state != .running || x.opcode ≠ 0x07 || unitKind u = 4 then c
  else if (c.heldFor u).isSome || !c.liveUnit u then c.testUnitNow u (bits (x.bytes 36 4) 4 0) bad
  else c

/-! ### Periodic tests (R851, R855, R859) -/

/-- TEST_DUE of unit `u`: its tests run, or are deferred. A vertical link's run at its next gap; a FENCED unit or one that
is OFF is not tested. -/
def Chip.testDue (c : Chip) (u bad : Nat) : Chip :=
  if !unitExists u || unitNum (c.unit u).applied ≤ 1 then c
  else if unitKind u = 4 then
    let d := unitDie u
    let i := portIndex (unitTile u)
    (c.updUnit u (fun x => { x with due := true })).putVlink d i { c.vlink d i with due := true }
  else c.testUnitNow u (unitTests u) bad

/-- The forced capture of every pasture that carries unit `u`, at its next muster or at once between rounds (R855). -/
def Chip.forceCapture (c : Chip) (u : Nat) : Chip :=
  (c.unitPastures u).foldl (fun c p => if (c.past p).between then c.captures p else c) c

/-- DEFER_LIMIT of unit `u`. -/
def Chip.deferLimit (c : Chip) (u : Nat) : Chip :=
  let x := c.unit u
  if !x.deferred || x.forced then c
  else (c.updUnit u (fun y => { y with forced := true })).forceCapture u

/-- DEFER_RETRY of unit `u`: a stuck forced capture is tried again, and a unit in its maintenance hold is tested. -/
def Chip.deferRetry (c : Chip) (u bad : Nat) : Chip :=
  let x := c.unit u
  if !x.deferred || !x.forced then c
  else
    let c := c.forceCapture u
    match c.heldFor u with
    | some p => c.testHeld p u (unitTests u) bad
    | none => c

/-! ### Returning a unit, reconciling views (R863, R867–R869) -/

/-- A FENCED bank serves scrub and shear again from their first positions (R518). -/
def Chip.bankServes (c : Chip) (u : Nat) : Chip :=
  if unitKind u ≠ 3 then c
  else c.updTile (unitTileKey u) (fun t =>
    let b : Bank := { t.bank with fenced := false, burst := false, urgent := none }
    { t with bank := b, pBank := (t.pBank.wr 0x108 0).wr 0x110 0 })

/-- UNIT_CMD RETURN on the selected unit; the answer stands in UNIT_CMD_STATUS (R863). -/
def Chip.unitReturn (c : Chip) (bad : Nat) : Chip :=
  let u := (c.page pgHEALTH).rd 0x100 % 8192
  let status (c : Chip) (st : Nat) : Chip := c.updPage pgHEALTH (fun p => p.wr 0x114 st)
  if !unitExists u || (c.unit u).applied ≠ .fenced then status c stBAD_OPERAND
  else
    let bad := bad &&& unitTests u
    let c := c.recordTest u (unitTests u) bad
    let c := if c.liveUnit u then c else if unitKind u = 4 then c else c.clearTested u
    if bad ≠ 0 || (unitKind u = 3 && freeCount (c.tile (unitTileKey u)).bank.spares = 0) then status c stFENCED
    else status ((c.setUnit u .spare).bankServes u) stOK

/-- UNIT_CMD RECONCILE on the selected unit (R869). -/
def Chip.reconcileUnit (c : Chip) : Chip :=
  let u := (c.page pgHEALTH).rd 0x100 % 8192
  let status (c : Chip) (st : Nat) : Chip := c.updPage pgHEALTH (fun p => p.wr 0x114 st)
  if !unitExists u then status c stBAD_OPERAND
  else
    let c := c.setUnit u (c.unit u).applied
    status { c with disagree := c.disagree.map (fun d => match d with | some e => if e.unit = u then none else some e | none => none) } stOK

/-- A difference of the two views of unit `u` recorded once (R868). -/
def Chip.disagreeOn (c : Chip) (u : Nat) : Chip :=
  let x := c.unit u
  if x.crook = x.shepherd || c.disagree.any (fun d => match d with | some e => e.unit == u | none => false) then c
  else
    let c := c.raise pgHEALTH 2
    match (upto 16).find? (fun i => (nth (none : Option Disagree) c.disagree i).isNone) with
    | some i =>
      let d : Disagree := { unit := u, crook := BitVec.ofNat 3 (unitNum x.crook), shepherd := BitVec.ofNat 3 (unitNum x.shepherd)
                            time := BitVec.ofNat 32 c.timeMs }
      { c with disagree := listSet c.disagree i (some d) }
    | none => c.count pgHEALTH 0x19C 1

/-- VIEW_SWEEP (R867). -/
def Chip.viewSweep (c : Chip) : Chip := (c.units.map (fun u => u.1)).foldl (fun c u => c.disagreeOn u) c

/-! ### Scrubbing and shearing (R507–R519) -/

/-- The bank context that a bank key names, and whether the bank is in ON. -/
def Chip.bankOfKey (c : Chip) : BankKey → BankCtx × Bool
  | .tile d t => ((c.tile (tileKey d.val t.val)).bankCtx, tileKind t.val != .port && c.bankOn (tileKey d.val t.val))
  | .commons => (c.commonsCtx, c.domOn domCOMMONS)
  | .crook => ({ b := c.crookBank, pg := c.page pgCROOK, off := 0, words := 32768, plain := true }, true)
  | .stream p => (c.streamBank p.val, c.domOn 298)

/-- A bank key's bank and page replaced. -/
def Chip.putBankKey (c : Chip) (key : BankKey) (k : BankCtx) : Chip :=
  match key with
  | .tile d t => c.updTile (tileKey d.val t.val) (fun u => u.putBank k)
  | .commons => c.putCommons k
  | .crook => { c with crookBank := k.b }.putPage pgCROOK k.pg
  | .stream p => c.putStreamBank p.val k

/-- The bank of tile `k` has raised CE_BURST: its unit goes on watch or counts anew, and its test falls due (R509, R860,
R861). -/
def Chip.bankBurst (c : Chip) (k : Nat) : Chip :=
  let u := bankUnit k
  let c := if (c.unit u).applied = .watch then c.updUnit u (fun x => { x with watch := 0 }) else c.watchUnit u
  if unitNum (c.unit u).applied ≤ 1 then c else c.updUnit u (fun x => { x with due := true })

/-- The bursts of every tile bank since state `c0`. -/
def Chip.bursts (c0 c : Chip) : Chip :=
  ((c.tiles.filter (fun t => t.2.bank.burst && !(c0.tile t.1).bank.burst)).map (fun t => t.1)).foldl (fun c k => c.bankBurst k) c

/-- An uncorrectable word met by the scrubber holds the pasture whose core tile it is (R508). -/
def Chip.scrubUe (c : Chip) (key : BankKey) (ue : Bool) : Chip :=
  match key with
  | .tile d t =>
    if ue then (match c.ownerOf (tileKey d.val t.val) with | some p => c.faultHoldPast p stUNCORRECTED | none => c) else c
  | _ => c

/-- The Crook has released the muster unit (R545, R625). -/
def Chip.mustered (c : Chip) : Bool := !c.held && c.stage == 7

/-- The next position of a scrub pass after `pos`, positions of spares that are not free left out: none at the end of the
pass (R507, R546). -/
def nextPos (words : Nat) (l : List Spare) (pos : Nat) : Nat → Option Nat
  | 0 => none
  | f + 1 =>
    if pos < words then some pos
    else match l[(pos - words) / 128]? with
      | none => none
      | some s => if !s.used && !s.shadow && !s.bad then some pos else nextPos words l (words + 128 * ((pos - words) / 128 + 1)) f

/-- SCRUB_VISIT: the word at SCRUB_POS is visited and the position moves on; a plain bank keeps no position register, and
its visits run over the words it lists (R501–R507, R509). -/
def Chip.scrubVisit (c : Chip) (key : BankKey) : Chip :=
  let r := c.bankOfKey key
  let k := r.1
  if !r.2 || k.b.fenced || !c.mustered then c
  else if k.plain then
    let s := (listedWords k.b.mem).foldl (fun (s : BankCtx) w => (s.scrubWord w).1) k
    c.putBankKey key s
  else if !bit (k.pg.rd (0x104 + k.off)) 0 then c
  else
    let pos := k.pg.rd (0x108 + k.off)
    let k := if pos = 0 then { k with pg := k.pg.wr (0x138 + k.off) 0, b := { k.b with burst := false } } else k
    let w := if pos < k.words then k.phys pos else pos
    let s := k.scrubWord w
    let k := s.1
    let next := nextPos k.words k.b.spares (pos + 1) (k.b.spares.length + 1)
    let k := { k with pg := k.pg.wr (0x108 + k.off) (next.getD 0) }
    let k := if next.isSome then k else { k with pg := k.pg.cntSat (0x13C + k.off) 1 }
    let k := if s.2 then { k with b := { k.b with urgent := some (pos / 128) } } else k
    (c.putBankKey key k).scrubUe key s.2

/-- The raw words of 128 array words from `a` copied to `b` (R514, R541). -/
def copyRegion (m : Memory) (a b : Nat) : Memory :=
  (upto 128).foldl (fun m i => let x := wordRaw m (a + i); wordPut m (b + i) x.1 x.2) m

/-- 128 array words from `a` written as 0. -/
def zeroRegion (m : Memory) (a : Nat) : Memory := (upto 128).foldl (fun m i => wordPut m (a + i) 0 0) m

/-- One region, or a spare in its place, sheared with the outcome of its march: after a pass its contents are back where
they were; after a failure the shadow stands in for the region, the failing spare is BAD, and REMAP is raised, with
SPARE_OUT when no spare is left (R514, R516, R517). -/
def BankCtx.shear (k : BankCtx) (region : Nat) (passes : Bool) : BankCtx :=
  match freeSpare k.b.spares 0 with
  | none => k
  | some i =>
    if passes then k
    else
      let home := k.phys (128 * region)
      let mem := copyRegion k.b.mem home (k.words + 128 * i)
      let sp := listSet k.b.spares i { region := BitVec.ofNat 14 region, used := true, shadow := false, bad := false }
      let sp := if home < k.words then sp
        else
          let j := (home - k.words) / 128
          match sp[j]? with | some s => listSet sp j { s with used := false, bad := true } | none => sp
      let k := { k with b := { k.b with mem := mem, spares := sp }, pg := k.pg.cntSat (0x144 + k.off) 1 }.raise 2
      if freeCount sp = 0 then k.raise 3 else k

/-- A free spare tested in place (R517). -/
def BankCtx.testSpare (k : BankCtx) (i : Nat) (passes : Bool) : BankCtx :=
  match k.b.spares[i]? with
  | none => k
  | some s =>
    if s.used || s.shadow || s.bad then k
    else if passes then { k with b := { k.b with mem := zeroRegion k.b.mem (k.words + 128 * i) } }
    else
      let sp := listSet k.b.spares i { s with bad := true }
      let k := { k with b := { k.b with spares := sp } }
      if freeCount sp = 0 then k.raise 3 else k

/-- The next free spare from index `i` on, as a place in the shearing order after the regions. -/
def nextSpare (regions : Nat) (l : List Spare) (i : Nat) : Option Nat :=
  ((upto l.length).find? (fun j => decide (i ≤ j) && freeCount (slice l j 1) = 1)).map (fun j => regions + j)

/-- The place in the shearing order after the present one: regions in rising index, then the free spares, then region 0
again with the pass counted (R513, R517). -/
def BankCtx.nextTurn (k : BankCtx) : BankCtx :=
  let regions := k.words / 128
  let turn := k.pg.rd (0x110 + k.off)
  let wrap (k : BankCtx) : BankCtx := { k with pg := k.pg.cntSat (0x140 + k.off) 1, b := { k.b with urgent := none } }
  match k.b.urgent with
  | some u =>
    if u < regions then { k with b := { k.b with urgent := none } }
    else match nextSpare regions k.b.spares (u - regions + 1) with
      | some v => { k with b := { k.b with urgent := some v } }
      | none => if turn = 0 then wrap k else { k with b := { k.b with urgent := none } }
  | none =>
    if turn + 1 < regions then { k with pg := k.pg.wr (0x110 + k.off) (turn + 1) }
    else
      let k := { k with pg := k.pg.wr (0x110 + k.off) 0 }
      match nextSpare regions k.b.spares 0 with
      | some v => { k with b := { k.b with urgent := some v } }
      | none => wrap k

/-- SHEAR: the region in turn, or one that a scrub visit names, is copied, marched, and restored or remapped; a free spare
is tested in place. A bank with no free spare re-tests, in place and without live state, only a region that a scrub visit
named, and a failure there fences it (R513, R514, R517, R518). -/
def Chip.shear (c : Chip) (key : BankKey) (passes : Bool) : Chip :=
  let r := c.bankOfKey key
  let k := r.1
  if !r.2 || k.plain || k.b.fenced || !c.mustered || !bit (k.pg.rd (0x10C + k.off)) 0 then c
  else
    let regions := k.words / 128
    let place := k.b.urgent.getD (k.pg.rd (0x110 + k.off))
    if freeCount k.b.spares = 0 then
      let live := match key with | .tile d t => c.liveUnit (bankUnit (tileKey d.val t.val)) | _ => false
      match k.b.urgent with
      | none => c
      | some u =>
        if live || regions ≤ u then c
        else if passes then
          c.putBankKey key { k with b := { k.b with urgent := none, mem := zeroRegion k.b.mem (k.phys (128 * u)) } }
        else
          let c := c.putBankKey key ({ k with b := { k.b with urgent := none, fenced := true } }.raise 4)
          match key with
          | .tile d t => c.fenceUnit (bankUnit (tileKey d.val t.val))
          | _ => c
    else if place < regions then c.putBankKey key (k.nextTurn.shear place passes)
    else c.putBankKey key (k.nextTurn.testSpare (place - regions) passes)

end Sys2Proof.Machine
end

