-- ==== Sys2Proof/Machine/Boot.lean ====
section
/-! DEFINITION. The audit log (R815–R817), firmware images (R806, R807), stored profiles (R628–R634), the boot sequence
(R625, R641) and the resets of chapter 15 (R620, R636, R637, R642, R643). The boot takes place whole at the release of
POR_N (assumption 34). Unit records are kept as the unit table, the remap tables and the lane maps themselves (assumption
35). -/

namespace Sys2Proof.Machine

/-! ### The audit log -/

/-- An append fits: it overwrites no entry that is not acknowledged (R815); an AUDIT_ACK entry counts as acknowledged (R817). -/
def Chip.auditRoom (c : Chip) : Bool :=
  let h := c.crook.auditHead.toNat
  let old := mapGet auditDefault c.nv.audit (h % 256)
  h < 256 || old.isEmpty || leAt old 16 2 = 13 || h - 256 ≤ c.crook.auditAck.toNat

/-- An entry appended, with its detail as 32-bit fields in the order of R816. -/
def Chip.auditPut (c : Chip) (event cls st : Nat) (detail : List Byte) : Chip :=
  let k := c.crook
  let h := k.auditHead.toNat
  let b := natLe 4 h ++ natLe 4 k.auditAck.toNat ++ natLe 8 c.rtc.time.toNat ++ natLe 2 event ++ natLe 1 cls ++ natLe 1 st
    ++ (detail ++ List.replicate 44 0).take 44
  let c := { c with crook := { k with auditHead := k.auditHead + 1 }
                    nv := { c.nv with audit := mapSet auditDefault c.nv.audit (h % 256) b } }
  c.print (.audit h event cls st)

/-- An entry appended if it fits; the answer is false, and AUDIT_FULL raised, when it does not (R815). -/
def Chip.audit (c : Chip) (event cls st : Nat) (detail : List Byte) : Chip × Bool :=
  if c.auditRoom then (c.auditPut event cls st detail, true) else (c.raise pgAUTH 3, false)

/-- The BOOT entry, which always overwrites (R815). -/
def Chip.auditBoot (c : Chip) (event : Nat) (detail : List Byte) : Chip :=
  let c := if c.auditRoom then c else { c with crook := { c.crook with auditLost := c.crook.auditLost + 1 } }.raise pgAUTH 5
  c.auditPut event 0 stOK detail

/-- HEAD and ACK recovered from the log (R817). -/
def Chip.auditFind (c : Chip) : Chip :=
  let l := (c.nv.audit.map (fun e => e.2)).filter (fun b => !b.isEmpty)
  let head := l.foldl (fun a b => max a (leAt b 0 4 + 1)) 0
  let ack := l.foldl (fun a b => max a (leAt b 4 4)) 0
  { c with crook := { c.crook with auditHead := BitVec.ofNat 32 head, auditAck := BitVec.ofNat 32 ack, auditLost := 0 } }

/-! ### Firmware images -/

/-- The rollback counter (R796). -/
def Chip.rollbacks (c : Chip) : Nat := popcount 64 c.fuses.rollback.toNat

/-- The bytes of a firmware copy, as many as its pages hold up to `n`; none when a page fails its CRC (R524, R807). -/
def Chip.fwBytes (c : Chip) (copyB : Bool) (n : Nat) : Option (List Byte) :=
  let first := sysPage (if copyB then 384 else 0)
  let pages := (upto (ceilDiv n 4096)).map (fun i => first + i)
  if pages.all (fun p => c.nvGood p) then some (memReadN c.nv.data (4096 * first) n) else none

/-- The fields of an image header keep their values and ranges (R806). -/
def fwHeaderOk (h : List Byte) : Bool :=
  leAt h 0 4 == 0x4C4B4657 && leAt h 4 2 == 1 && Nat.ble (leAt h 6 1) 1 && leAt h 7 1 == 0 && Nat.ble (leAt h 12 2) 64 && leAt h 14 2 == 0
    && Nat.ble 1 (leAt h 16 4) && Nat.ble (leAt h 16 4) 1572608 && leAt h 20 12 == 0 && leAt h 96 32 == 0 && leAt h 192 64 == 0

/-- The key that an image of slot `slot` is signed with (R806). -/
def Chip.fwKey (c : Chip) (slot : Nat) : List Byte := if slot = 0 then c.fuses.fwKey0 else c.fuses.fwKey1

/-- The header `h` is well formed, its key is not revoked, its ROLLBACK is not below the counter, and its signature verifies (R806, R807,
R809). -/
def Chip.fwHeaderGood (c : Chip) (h : List Byte) : Bool :=
  fwHeaderOk h && !(leAt h 6 1 == 0 && c.fuses.revoke0) && Nat.ble c.rollbacks (leAt h 12 2)
    && edVerify (c.fwKey (leAt h 6 1)) (slice h 0 128) (slice h 128 64)

/-- A firmware copy verified: its VERSION and ROLLBACK (R806, R807). -/
def Chip.fwVerify (c : Chip) (copyB : Bool) : Option (Nat × Nat) :=
  (c.fwBytes copyB 256).bind (fun h =>
    if !c.fwHeaderGood h then none
    else (c.fwBytes copyB (256 + leAt h 16 4)).bind (fun b =>
      if sha512 (slice b 256 (leAt h 16 4)) == slice h 32 64 then some (leAt h 8 4, leAt h 12 2) else none))

/-- The boot ROM's choice: the verified copy with the higher VERSION, A on a tie (R807). -/
def Chip.fwChoose (c : Chip) : Chip × Bool :=
  let a := c.fwVerify false
  let b := c.fwVerify true
  let word (o : Option (Nat × Nat)) : Option W32 := o.map (fun v => BitVec.ofNat 32 v.1)
  let c := { c with crook := { c.crook with versionA := word a, versionB := word b } }
  let pick (copyB : Bool) (v : Nat × Nat) : Chip × Bool :=
    ({ c with crook := { c.crook with fwCopyB := copyB, fwVersion := BitVec.ofNat 32 v.1, fwRollback := BitVec.ofNat 16 v.2 } }, true)
  let useA : Bool := a.isSome && !b.any (fun w => a.any (fun v => v.1 < w.1))
  (if useA then a else b).elim (c, false) (pick (!useA))

/-! ### Stored profiles (R628–R630) -/

/-- The boot state that a profile gives domain `n`. -/
def profDom (b : List Byte) (n : Nat) : Nat := bits (leAt b (768 + n / 4) 1) (2 * (n % 4) + 1) (2 * (n % 4))

/-- The profile gives domain `n` a state it has (R629). -/
def profDomOk (b : List Byte) (n : Nat) : Bool :=
  match domKind n with
  | .bank => profDom b n < 3
  | .base d => if d ≤ 2 then profDom b n = 0 else (match domOf (profDom b n) with | some s => baseDomHas d s | none => false)
  | .nothing => profDom b n = 2

/-- Every field of profile `n` meets R629. -/
def profOk (n : Nat) (b : List Byte) : Bool :=
  let f (a k : Nat) : Nat := leAt b a k
  let volt (i : Nat) : Bool := let v := f (8 + 2 * i) 2; 550 ≤ v && v ≤ 900 && v % 5 = 0
  let range (v lo hi : Nat) : Bool := decide (lo ≤ v) && decide (v ≤ hi)
  b.length = 4096 && f 0 4 = 0x4C4B5046 && f 4 2 = 1 && f 6 1 = n && f 7 1 = 0 && (upto 4).all volt
    && (f 16 2 = 0 || range (f 16 2) 10 300)
    && range (f 18 1) 60 100 && range (f 19 1) (f 18 1 + 1) 110 && range (f 20 1) 60 (f 19 1 - 1) && range (f 21 1) 1 5
    && bits (f 22 1) 1 0 < 3 && bits (f 22 1) 4 2 < 5 && bits (f 22 1) 7 7 = 0 && f 23 1 < 64 && f 24 1 < 64 && f 25 1 = 0
    && f 28 1 < 64 && f 29 1 < 4 && f 30 2 = 0 && range (f 32 2) 10 65535 && range (f 34 2) 10 65535 && range (f 36 4) 10 100000
    && f 40 4 < 8 && (slice b 44 212).all (· == 0) && (slice b 1024 3072).all (· == 0)
    && (upto 128).all (fun i => f (256 + 4 * i) 4 &&& (2 ^ 32 - 1 - 0x0103FFFF) = 0)
    && (upto 1024).all (profDomOk b)

/-- Copy `k` of profile `n`: its page, its bytes, whether its CRC passes. -/
def profPage (n k : Nat) : Nat := sysPage (768 + 2 * n + k)

/-- The copy of profile `n` that a read returns: the higher generation whose CRC passes and whose contents are valid (R525,
R629). -/
def Chip.profRead (c : Chip) (n : Nat) : Option (List Byte) :=
  let ok (k : Nat) : Bool := c.nvGood (profPage n k) && profOk n (c.nvData (profPage n k))
  let gen (k : Nat) : Nat := (c.nvMeta (profPage n k)).gen.toNat
  if ok 0 && (!ok 1 || gen 1 ≤ gen 0) then some (c.nvData (profPage n 0))
  else if ok 1 then some (c.nvData (profPage n 1))
  else none

/-- PROF_STATE of profile `n` (R644). -/
def Chip.profState (c : Chip) (n : Nat) : Nat :=
  let good (k : Nat) : Bool := c.nvGood (profPage n k)
  let gen (k : Nat) : Nat := (c.nvMeta (profPage n k)).gen.toNat
  let use := if good 0 && (!good 1 || gen 1 ≤ gen 0) then 0 else 1
  b2n (good 0) + 2 * b2n (good 1) + 4 * b2n (c.profRead n).isSome + gen use % 2 ^ 24 * 2 ^ 8

/-- PROF_STATE0–3 brought up to date. -/
def Chip.showProfiles (c : Chip) : Chip :=
  (upto 4).foldl (fun c n => let v := c.profState n; c.updPage pgPROFILE (fun p => p.wr (0x110 + 4 * n) v)) c

/-- The profile applied for choice `n`: its bytes, FALLBACK and BUILT_IN (R641). -/
def Chip.profChoose (c : Chip) (n : Nat) : List Byte × Bool × Bool :=
  (c.profRead n).elim ((c.profRead 0).elim (profile0Bytes, true, true) (fun b => (b, true, false))) (fun b => (b, false, false))

/-- The choice recorded on PROFILE and in BOOT_STATE, with the events of a fallback (R630, R641). -/
def Chip.profNote (c : Chip) (n : Nat) (fb bi next : Bool) : Chip :=
  let n := if fb then 0 else n
  let c := c.updPage pgPROFILE (fun p =>
    let p := p.wr 0x100 (n + 4 * b2n fb + 8 * b2n bi + 16 * c.pins.toNat + 64 * b2n next)
    if fb then p.cntSat 0x140 1 else p)
  let c := c.updPage pgIDENT (fun p => ((p.setFld 0x120 9 8 n).setFld 0x120 10 10 (b2n fb)).setFld 0x120 11 11 (b2n bi))
  let c := if fb && !bi then c.raise pgPROFILE 0 else c
  if bi then c.raise pgPROFILE 1 else c

/-- The settings of step 4 of R625, in its order. -/
def Chip.profSettings (c : Chip) (b : List Byte) : Chip :=
  let f (a k : Nat) : Nat := leAt b a k
  let c := c.updPage pgTHERM (fun p =>
    { (((p.wr 0x140 (f 18 1)).wr 0x144 (f 19 1)).wr 0x148 (f 20 1)).wr 0x150 (f 21 1) with lock := true })
  let c := c.updPage pgAUTH (fun p => { p.wr 0x104 (f 40 4) with lock := true })
  let c := c.updPage pgPOWER (fun p => (((p.wr 0x120 (f 16 2)).wr 0x110 (f 29 1)).wr 0x114 (f 32 4)).wr 0x10C (f 36 4))
  let c := c.updPage pgWAKE (fun p => (p.wr 0x100 (f 26 2)).wr 0x104 (f 24 1))
  let c := { c with routes := (upto 128).foldl (fun m i => mapSet (fun _ => (0 : W32)) m i (BitVec.ofNat 32 (f (256 + 4 * i) 4))) [] }
  (upto 3).foldl (fun c g =>
    let v := bits (f 28 1) (2 * g + 1) (2 * g)
    { c with latches := listSet c.latches g { nth Latch.init c.latches g with value := bit v 0, enable := bit v 1 } }) c

/-- The voltage targets of a profile. -/
def Chip.profVolts (c : Chip) (b : List Byte) : Chip :=
  (upto 4).foldl (fun c d => c.updDie d (fun r => { r with target := leAt b (8 + 2 * d) 2 })) c

/-! ### The unit table (R491, R870) -/

/-- Good cores of a kind in order of die and tile. -/
def Chip.goodCores (c : Chip) (kd : TileKind) : List Nat :=
  (upto 4).flatMap (fun d => ((upto 256).filter (fun t => tileKind t == kd)).map (fun t => coreUnit (tileKey d t))
    |>.filter (fun u => !c.fuses.holes.contains u))

/-- The unit table built: holes OFF, cores past the grade SPARE, and the FENCED and WATCH states of the records kept, a
WATCH unit's test due at once (R491, R880). -/
def Chip.buildUnits (c : Chip) : Chip :=
  let recs := c.units
  let c := { c with units := [] }
  let c := c.fuses.holes.foldl (fun c u => c.setUnit u .off) c
  let c := ((c.goodCores .neuron).drop c.fuses.neuronGrade.toNat).foldl (fun c u => c.setUnit u .spare) c
  let c := ((c.goodCores .tensor).drop c.fuses.tensorGrade.toNat).foldl (fun c u => c.setUnit u .spare) c
  recs.foldl (fun c e =>
    let x := e.2
    let c := c.updUnit e.1 (fun y => { y with fails := x.fails, watch := x.watch })
    if (c.unit e.1).applied = .off then c
    else if x.applied = .fenced then c.setUnit e.1 .fenced
    else if x.applied = .watch then (c.setUnit e.1 .watch).updUnit e.1 (fun y => { y with due := true })
    else c) c

/-! ### Boot (R625) -/

/-- STAGE set, with its console line (R646, R819). -/
def Chip.setStage (c : Chip) (s : Nat) : Chip :=
  let c := c.updPage pgIDENT (fun p => p.setFld 0x120 3 0 s)
  c.print (.stage s ((c.page pgIDENT).fld 0x120 31 16))

/-- A domain that did not reach the profile's state (R641). -/
def Chip.applyRefused (c : Chip) : Chip :=
  (c.updPage pgPROFILE (fun p => p.setFld 0x120 7 0 (satAdd 8 (p.fld 0x120 7 0) 1))).raise pgPROFILE 2

/-- Domain `n` brought to the state `s` of the profile in the boot: on, then down where the profile asks for less. -/
def Chip.bootDom (c : Chip) (n s : Nat) : Chip :=
  if s = 2 then (if (c.dom n).state = .off then c else c.goDown n .off)
  else
    let r := if c.domOn n then (c, true) else c.goUp n
    if !r.2 then r.1.applyRefused
    else if s = 1 then r.1.goDown n .retain
    else r.1

/-- Steps 6 and 7 of R625: the REG domains, then every other switched domain; a bank whose REG is OFF stays OFF. GATE goes
OFF only at the end (R625, step 8). -/
def Chip.bootDoms (c : Chip) (b : List Byte) : Chip :=
  let c := (upto 4).foldl (fun c d => c.bootDom (domREG d) (profDom b (domREG d))) c
  let c := c.setStage 6
  (upto 1024).foldl (fun c n =>
    match domKind n with
    | .nothing => c
    | .bank => if c.domOn (domREG (n / 256)) then c.bootDom n (profDom b n) else c
    | .base d =>
      if d ≤ 2 || 20 ≤ d || d = 5 then c else c.bootDom n (profDom b n)) c

/-- The speed of each link loaded from the profile. -/
def Chip.linkSpeeds (c : Chip) (b : List Byte) : Chip :=
  (upto 6).foldl (fun c k => c.updPage (pgLINK + k) (fun p => p.setFld 0x100 1 1 (bits (leAt b 23 1) k k))) c

/-- A CHALLENGE drawn (R812). -/
def Chip.drawChallenge (c : Chip) : Chip :=
  let r := c.drawFree
  { r.1 with dbgLock := { r.1.dbgLock with challenge := Config.freeChallenge r.2 } }

/-- The boot after a release of POR_N, or what acts as one (R625, R628–R630, R641, R828). -/
def Chip.boot (c : Chip) (pins : BitVec 2) : Chip :=
  let c := { c with held := false, pins := pins }
  let c := ((c.putCtx 4095 Ctx.operator).drawChallenge).auditFind
  let c := c.setStage 1
  let c := (c.goUp domNV).1
  let c := (c.goUp domGATE).1
  let fw := c.fwChoose
  let r := fw.1.drawFree
  let ms := (Config.freeDuration r.2).toNat % 301
  if !fw.2 then
    let c := r.1.updPage pgIDENT (fun p => (p.setFld 0x120 7 7 1).setFld 0x120 31 16 ms)
    let c := { c with gate := { c.gate with ready := true } }
    (c.setStage 8).auditBoot 2 (natLe 4 0)
  else
    let c := r.1.setStage 2
    let n := match c.next with | some n => n.toNat | none => c.pins.toNat
    let q := c.profChoose n
    let c := ((c.profNote n q.2.1 q.2.2 c.next.isSome).showProfiles).setStage 3
    let c := { c with next := none }
    let c := c.updPage pgAUTH (fun p => p.wr 0x100 4)
    let c := ((c.profSettings q.1).profVolts q.1).linkSpeeds q.1
    let c := (c.buildUnits).setStage 4
    let c := (c.setStage 5).bootDoms q.1
    let gateOff := profDom q.1 domGATE = 2
    let c := { c with gate := { c.gate with limits := BitVec.ofNat 8 (leAt q.1 22 1) } }
    let c := c.updPage pgIDENT (fun p => p.setFld 0x120 31 16 ms)
    let c := { c with gate := { c.gate with ready := true } }
    let c := c.setStage 7
    let c := if gateOff then c.goDown domGATE .off else c
    let c := c.auditBoot 1 (natLe 4 (c.identReg 0x120) ++ natLe 4 c.crook.fwVersion.toNat)
    let held := c.heldWakes
    held.foldl (fun c s => c.wakeDetect s) { c with heldWakes := [] }

/-! ### Resets (R620, R636) -/

/-- What a unit's record keeps (R870). -/
def UnitRec.kept (u : Nat) (x : UnitRec) : UnitRec :=
  let s := if x.applied = .fenced || x.applied = .watch then x.applied else (unitDefault u).applied
  { unitDefault u with crook := s, shepherd := s, watch := x.watch, fails := x.fails }

/-- What a bank's remap table keeps (R520). -/
def Bank.kept (b d : Bank) : Bank := { d with spares := b.spares.map (fun s => { s with shadow := false }) }

/-- The page of the RTC after a package reset: its alarm registers stay, in AON (R636). -/
def Page.aonKept (p : Page) : Page := { Page.init p.code with regs := p.regs }

/-- A package reset: everything but the fuses, AON, the RTC, the NV store and the records in it (R620, R636); the host's
memory is outside the package. `cause` is LAST_RESET (R646). -/
def Chip.packageReset (c : Chip) (cause : Nat) : Chip :=
  let tiles := c.tiles.foldl (fun (m : Map Tile) e =>
    let d := tileDefault e.1
    let b : Bank := e.2.bank.kept d.bank
    mapSet tileDefault m e.1 { d with bank := b }) []
  let units := c.units.foldl (fun (m : Map UnitRec) e => mapSet unitDefault m e.1 (UnitRec.kept e.1 e.2)) []
  let vl := c.vlinks.foldl (fun (m : Map VLink) e => mapSet vlinkDefault m e.1 { vlinkDefault e.1 with up := e.2.up, down := e.2.down }) []
  let c' : Chip := { Chip.reset with
    fuses := c.fuses, rtc := c.rtc, now := c.now, latches := c.latches, routes := c.routes, wakeCounts := c.wakeCounts
    next := c.next, nv := { c.nv with queue := [], jobs := [], shelter := none }, held := true, porLow := c.porLow
    railsOut := c.railsOut, pins := c.pins, tiles := tiles, commons := c.commons.kept Chip.reset.commons, vlinks := vl, units := units
    host := c.host, free := c.free, crook := { Chip.reset.crook with console := c.crook.console } }
  let c' := c'.putPage pgRTC (c.page pgRTC).aonKept
  c'.updPage pgIDENT (fun p => p.setFld 0x120 6 4 cause)

/-- A page programming that a loss of supply cuts short fails its CRC (R642). -/
def Chip.cutProgramming (c : Chip) : Chip :=
  match c.nv.queue with
  | w :: _ => if c.nvGood w.page then c.putMeta w.page { c.nvMeta w.page with crc := (c.nvMeta w.page).crc ^^^ 1 } else c
  | [] => c

/-- POWER_ON_RESET: VAON rises from below its range, with POR_N low (R620, R622). AON and the RTC are reset as well. -/
def Chip.powerOn (c : Chip) : Chip :=
  let c := c.cutProgramming
  let c := { c with rtc := Rtc.init, now := 0, latches := List.replicate 3 Latch.init, routes := [], wakeCounts := [], next := none
                    porLow := true, railsOut := false }
  (c.putPage pgRTC (Page.init codeRTC)).packageReset 0

/-- POR_N_ASSERT. -/
def Chip.porAssert (c : Chip) : Chip :=
  if c.porLow then c else { c with porLow := true }.packageReset 1

/-- POR_N_RELEASE with the PROFILE pins sampled: the boot, unless a brownout still holds the reset (R622, R625). -/
def Chip.porRelease (c : Chip) (pins : BitVec 2) : Chip :=
  if !c.porLow then c
  else
    let c := { c with porLow := false }
    if c.railsOut then c else c.boot pins

/-- BROWNOUT: a rail other than VAON leaves its range while POR_N is high (R642). -/
def Chip.brownout (c : Chip) : Chip :=
  if c.porLow || c.railsOut then c else { c.cutProgramming with railsOut := true }.packageReset 2

/-- RAIL_RECOVERY: every rail has been in range again for 1 ms (R642). -/
def Chip.railRecovery (c : Chip) (pins : BitVec 2) : Chip :=
  if !c.railsOut then c
  else
    let c := { c with railsOut := false }
    if c.porLow then c else c.boot pins

/-- The states that the active profile gives the domains, for a die reset. -/
def Chip.activeProfile (c : Chip) : List Byte :=
  let a := (c.page pgPROFILE).rd 0x100
  if bit a 3 then profile0Bytes else (c.profChoose (bits a 1 0)).1

/-- The status of a die or tile reset, with RESET_DONE (R644). -/
def Chip.resetDone (c : Chip) (st : Nat) : Chip :=
  let c := c.updPage pgPROFILE (fun p => p.wr 0x134 st)
  if st = stOK then (c.count pgPROFILE 0x144 1).raise pgPROFILE 3 else c

/-- The register page of a die and every tile page of it at their reset values (R913). -/
def Chip.diePages (c : Chip) (d : Nat) : Chip :=
  let c := c.putPage (pgDIE + d) (Page.init codeDIE)
  (upto 256).foldl (fun c t =>
    let k := tileKey d t
    c.updTile k (fun u => { tileDefault k with bank := u.bank.kept (tileDefault k).bank })) c

/-- Die `d` enters the handshake, and its domains come up as the profile `b` sets (R567, R573, R637). -/
def Chip.dieRaise (c : Chip) (d : Nat) (b : List Byte) : Chip :=
  let banks := (upto 256).map (fun t => tileKey d t) |>.filter (fun n => domKind n == .bank)
  let r := c.goUp (domREG d)
  if r.2 then banks.foldl (fun c n => c.bootDom n (profDom b n)) r.1 else r.1

/-- DIE_RESET of die `d` (R637). -/
def Chip.dieReset (c : Chip) (d : Nat) : Chip :=
  if c.residents.any (fun p => (c.past p).touchesDie d) then c.resetDone stBUSY_PASTURE
  else if (c.die d).state = .dead || (c.die d).state = .tripped then c.resetDone stBAD_OPERAND
  else
    let b := c.activeProfile
    let banks := (upto 256).map (fun t => tileKey d t) |>.filter (fun n => domKind n == .bank)
    let off (c : Chip) (n : Nat) : Chip := if (c.dom n).state = .off then c else c.goDown n .off
    let c := banks.foldl off c
    let c := (off c (domREG d)).diePages d
    (c.dieRaise d b).resetDone stOK

/-- TILE_RESET of tile `k` (R637). -/
def Chip.tileReset (c : Chip) (k : Nat) : Chip :=
  if !(c.touching k).isEmpty then c.resetDone stBUSY_PASTURE
  else if c.routerDom k = .off then c.resetDone (if (c.die (k / 256)).state = .dead then stFENCED else stASLEEP)
  else
    let c := if tileKind (k % 256) = .port then c.clearRoute k (fun _ => true) else c.clearCore k (fun _ => true)
    let c := c.resetTileRegs k
    let c := c.updTile k (fun u =>
      let d := tileDefault k
      { u with pRouter := d.pRouter, pCore := d.pCore, pBank := d.pBank, pQdbg := d.pQdbg })
    c.resetDone stOK

/-- A write of RESET_REQ by a class that may make it (R643, R644, R816). -/
def Chip.resetReq (c : Chip) (v cls : Nat) : Chip :=
  let n := b2n (bit v 16) + b2n (bit v 17) + b2n (bit v 18)
  if 1 < n then c.fault pgPROFILE stBAD_OPERAND 0x3130 cls
  else if n = 0 then c
  else
    let r := c.audit 11 cls stOK (natLe 4 v)
    if !r.2 then c
    else if bit v 16 then r.1.dieReset (bits v 1 0)
    else if bit v 17 then r.1.tileReset (tileKey (bits v 1 0) (bits v 9 2))
    else (r.1.packageReset 4).boot c.pins

/-! ### SET_PROFILE (R417, R631, R632) -/

/-- A profile applied at once (R632). -/
def Chip.applyNow (c : Chip) (n : Nat) : Chip :=
  let q := c.profChoose n
  let c := { c with next := none }
  let c := [pgTHERM, pgAUTH, pgPOWER, pgPADS, pgWAKE].foldl (fun c g => c.putPage g (Page.init (c.page g).code)) c
  let cert := b2n (c.stage == 7)
  let c := c.updPage pgAUTH (fun p => p.wr 0x100 (4 * cert))
  let c := ((c.profSettings q.1).profNote n q.2.1 q.2.2 false).autoOff
  let d := c.drawFree
  let us := (Config.freeDuration d.2).toNat % 20001
  let c := d.1.updPage pgPROFILE (fun p => p.wr 0x120 (2 ^ 8 + us * 2 ^ 16))
  let c := c.profVolts q.1
  let c := (upto 4).foldl (fun c i => (c.dueStep i).takeStep i) c
  let c := (upto 1024).foldl (fun c m =>
    match domKind m with
    | .nothing => c
    | .bank => match domOf (profDom q.1 m) with
      | some s => if (c.dom m).state = s then c else c.askDomain m { target := s, asker := .profile, origin := .internal }
      | none => c
    | .base b =>
      if b ≤ 2 then c
      else match domOf (profDom q.1 m) with
        | some s => if (c.dom m).state = s then c else c.askDomain m { target := s, asker := .profile, origin := .internal }
        | none => c) c
  { c with gate := { c.gate with limits := BitVec.ofNat 8 (leAt q.1 22 1) } }

/-- SET_PROFILE. -/
def Chip.doSetProfile (c : Chip) (e : Nat) : Chip :=
  let x := c.entry e
  let n := bits (x.bytes 32 1) 1 0
  let now := x.flag 20 && c.residents.isEmpty
  let r := c.audit 7 x.origin stOK (natLe 4 n ++ natLe 4 (b2n (x.flag 20)))
  if !r.2 then r.1.finishBad e stNO_PLACE
  else if now then (r.1.applyNow n).finishOk e 1
  else { r.1 with next := some (BitVec.ofNat 2 n) }.finishOk e 0

end Sys2Proof.Machine
end

