-- ==== Sys2Proof/Machine/Sensors.lean ====
section
/-! DEFINITION. The sensor ports: packets of the four CSI-2 receivers, the mapping of events, the temporal-contrast encoder,
and the AER handshake (R683–R710). -/

namespace Sys2Proof.Machine

/-! ### A receiver takes a packet -/

/-- Counter `off` of receiver `k` raised, and event `ev` with it. -/
def Chip.csiCount (c : Chip) (k off : Nat) (ev : Option Nat) : Chip :=
  let c := c.count (pgCSI + k) off 1
  match ev with | some i => c.raise (pgCSI + k) i | none => c

/-- Receiver `k` is ON and has HS sync (R683, R707). -/
def Chip.csiLive (c : Chip) (k : Nat) : Bool := c.domOn (domCSI k) && bit ((c.page (pgCSI + k)).rd 0x104) 0

/-- The header of a packet: a corrected single-bit error is counted, and extended virtual-channel bits discard the packet
(R709). -/
def Chip.csiHeader (c : Chip) (k vc : Nat) (ce : Bool) : Chip × Bool :=
  let c := if ce then c.csiCount k 0x110 none else c
  if 4 ≤ vc then (c.csiCount k 0x11C (some 3), false) else (c, true)

/-- The stream context bound to virtual channel `vc` of port `p`. -/
def Chip.ctxOn (c : Chip) (p vc : Nat) : Option Nat :=
  (upto 32).find? (fun j => let s := nth StreamCtx.init c.streams j
    s.bound.isSome && s.info.port == p && (4 ≤ p || s.info.vc == vc))

/-- Stream context `j` and its replacement. -/
def Chip.stream (c : Chip) (j : Nat) : StreamCtx := nth StreamCtx.init c.streams j
def Chip.updStream (c : Chip) (j : Nat) (f : StreamCtx → StreamCtx) : Chip :=
  { c with streams := listSet c.streams j (f (c.stream j)) }

/-- A saturating 32-bit count. -/
def up1 (n : W32) : W32 := BitVec.ofNat 32 (satAdd 32 n.toNat 1)

/-! ### Mapping an event (R691, R692) -/

/-- An event as a port gives it: coordinates and polarity, or an address, with its payload. -/
inductive Ev
  | xy (x y pol payload : Nat)
  | addr (a : Nat)

/-- The axon and the map entry number, counted from MAP_FIRST, of an event; none when it is out of range. -/
def StreamRec.entryOf (r : StreamRec) : Ev → Option (Nat × Nat × Nat)
  | .xy x y pol v =>
    if x < r.width && y < r.height then
      let w := max 1 r.patchW
      let h := max 1 r.patchH
      some (y / h * ceilDiv r.width w + x / w, pol * r.polStride + w * (y % h) + x % w, v)
    else none
  | .addr a => some (a / 2 ^ r.shift, a % 2 ^ r.shift, 0)

/-- The AXON of an event under a map entry, in image coordinates (R687, R691). -/
def eventWord (ipkg entry axon payload : Nat) : Nat :=
  ({ kind := kAXON, pkg := ipkg, die := bits entry 9 8, x := tileX (bits entry 7 0), y := tileY (bits entry 7 0), origin := 1
     tag := bits entry 25 14 + axon, payload := payload : Hdr }).word

/-- An event meets stream context `j`: counted, mapped and placed at the tail of the FIFO, or discarded (R692, R693, R703,
R705). -/
def Chip.takeEvent (c : Chip) (j : Nat) (e : Ev) : Chip :=
  let s := c.stream j
  let c := c.updStream j (fun s => { s with cntRx := s.cntRx + 1 })
  if s.stopped || s.skipFrame then c.updStream j (fun s => { s with cntStopped := up1 s.cntStopped })
  else match s.info.entryOf e with
    | none => c.updStream j (fun s => { s with cntRange := up1 s.cntRange })
    | some (i, axon, v) =>
      let m := (nth (0 : W32) s.info.entries i).toNat
      if s.info.mapCount ≤ i || !bit m 31 then
        (c.updStream j (fun s => { s with cntUnmapped := up1 s.cntUnmapped })).raise pgSTREAM 1
      else if 128 * s.info.fifoKib ≤ s.fifoCount then
        (c.updStream j (fun s => { s with cntDrop := up1 s.cntDrop })).raise pgSTREAM 0
      else
        let k := (c.streamBank s.info.port).write (s.fifoWord s.fifoCount) (eventWord s.info.ipkg m axon v)
        (c.putStreamBank s.info.port k).updStream j (fun s => { s with
          fifoCount := s.fifoCount + 1, fifoPorts := s.fifoPorts ++ [(bits m 9 8, bits m 13 10)], high := max s.high (s.fifoCount + 1) })

/-- The pastures bound to context `j` may now run a round that they skipped (R68, R72). -/
def Chip.eventCame (c : Chip) (j : Nat) : Chip :=
  match (c.stream j).bound with
  | some (p, _) => if (c.stream j).fifoCount != 0 then c.unpark p.val else c
  | none => c

/-! ### Event packets (R685, R693, R709) -/

/-- A malformed packet or word of stream context `j`. -/
def Chip.malformed (c : Chip) (j : Nat) : Chip :=
  (c.updStream j (fun s => { s with cntMalformed := up1 s.cntMalformed })).raise pgSTREAM 2

/-- The event of one event word of data type `dt`; none when a reserved bit is set. -/
def eventOf (dt : Nat) (l : List Byte) : Option Ev :=
  let w := leAt l 0 4
  if dt = 0x32 then (if bits w 31 24 = 0 then some (.addr (bits w 23 0)) else none)
  else if bits w 31 25 ≠ 0 || (dt = 0x31 && leAt l 6 2 ≠ 0) then none
  else some (.xy (bits w 11 0) (bits w 23 12) (bits w 24 24) (if dt = 0x31 then leAt l 4 2 else 0))

/-- The words of an event packet in order. -/
def Chip.takeWords (c : Chip) (j dt : Nat) (l : List Byte) : Nat → Chip
  | 0 => c
  | n + 1 =>
    let w := if dt = 0x31 then 8 else 4
    let c := match eventOf dt l with | some e => c.takeEvent j e | none => c.malformed j
    c.takeWords j dt (l.drop w) n

/-- A packet of a data type that the receiver does not serve (R684). -/
def Chip.otherPacket (c : Chip) (k vc dt : Nat) (ce : Bool) : Chip :=
  if !c.csiLive k then c
  else
    let r := c.csiHeader k vc ce
    if !r.2 then r.1
    else if 0x33 ≤ dt && dt ≤ 0x37 then r.1.csiCount k 0x120 (some 4)
    else if dt ≤ 3 || dt = 0x2A || dt = 0x2B || (0x30 ≤ dt && dt ≤ 0x32) then r.1
    else r.1.csiCount k 0x124 none

/-- EVENT_PACKET: the event packet of data type `dt`; the whole packet enters together (R693). -/
def Chip.eventPacket (c : Chip) (k vc dt : Nat) (l : List Byte) (crcOk ce : Bool) : Chip :=
  if !(0x30 ≤ dt && dt ≤ 0x32) then c.otherPacket k vc dt ce
  else if !c.csiLive k then c
  else
    let r := c.csiHeader k vc ce
    let c := r.1
    if !r.2 then c
    else match c.ctxOn k vc with
      | none => c.csiCount k 0x128 none
      | some j =>
        let s := c.stream j
        let w := if dt = 0x31 then 8 else 4
        if s.info.encoder then c.csiCount k 0x128 none
        else if !crcOk then c.csiCount k 0x118 (some 1)
        else if l.length < 4 || 8192 < l.length || l.length % w ≠ 0 || s.info.adrMode != (dt == 0x32) then c.malformed j
        else (c.takeWords j dt l (l.length / w)).eventCame j

/-! ### Frames and the encoder (R695–R698) -/

/-- FRAME_START on receiver `k`. -/
def Chip.frameStart (c : Chip) (k vc : Nat) (ce : Bool) : Chip :=
  if !c.csiLive k then c
  else
    let r := c.csiHeader k vc ce
    let c := r.1
    if !r.2 then c
    else match c.ctxOn k vc with
      | none => c.csiCount k 0x128 none
      | some j =>
        let c := if (c.stream j).inFrame && (c.stream j).info.encoder then c.csiCount k 0x12C (some 2) else c
        c.updStream j (fun s => { s with
          inFrame := true, line := 0, frameOk := true, skipFrame := s.stopped, frame := if s.info.encoder then s.frame + 1 else s.frame })

/-- FRAME_END on receiver `k`: a frame with every line valid sets REF_VALID (R698). -/
def Chip.frameEnd (c : Chip) (k vc : Nat) (ce : Bool) : Chip :=
  if !c.csiLive k then c
  else
    let r := c.csiHeader k vc ce
    let c := r.1
    if !r.2 then c
    else match c.ctxOn k vc with
      | none => c.csiCount k 0x128 none
      | some j => c.updStream j (fun s => { s with
          inFrame := false, skipFrame := false, refValid := s.refValid || (s.info.encoder && s.inFrame && s.frameOk && !s.skipFrame) })

/-- The pixels of a line of RAW8 or RAW10, as 10-bit values (R695). -/
def pixelsOf (raw10 : Bool) (l : List Byte) : List Nat :=
  if raw10 then
    (upto (l.length / 5)).flatMap (fun g =>
      let low := (nth 0 l (5 * g + 4)).toNat
      (upto 4).map (fun i => 4 * (nth 0 l (5 * g + i)).toNat + bits low (2 * i + 1) (2 * i)))
  else l.map (fun b => 4 * b.toNat)

/-- The log code of pixel value `p` under the draw `r` (R697). -/
def logCode (p r : Nat) : Nat :=
  let yv := p + 1
  let e := Nat.log2 yv
  let m8 := (yv * 256) / 2 ^ e - 256
  (256 * e + m8 + r % 16) / 16

/-- One pixel of a valid line: `ref` is its reference when it has one (R698, R710). -/
structure Pixel where
  ref : Option Nat
  l : Nat

/-- The new reference and the event of a pixel: polarity and signed contrast. -/
def encodePixel (r : StreamRec) (p : Pixel) : Nat × Option (Nat × Int) :=
  match p.ref with
  | none => (p.l, none)
  | some ref =>
    let d : Int := (p.l : Int) - (ref : Int)
    if (r.thrOn : Int) ≤ d then (p.l, some (0, d))
    else if (r.thrOff : Int) ≤ -d then (p.l, some (1, d))
    else (ref, none)

/-- The word of reference bytes `w` of context `j` is read for a line that covers pixels [a, b): its bytes, and the pixels
outside the line that an uncorrectable word leaves without a reference (R710). -/
def Chip.refWord (c : Chip) (j w a b : Nat) : Chip × Option Nat :=
  let s := c.stream j
  let r := (c.streamBank s.info.port).read (s.refBase / 8 + w)
  let c := c.putStreamBank s.info.port r.1
  match r.2 with
  | some d => (c, some d)
  | none =>
    let others := ((upto 8).map (fun i => 8 * w + i)).filter (fun i => i < a || b ≤ i)
    ((c.updStream j (fun s => { s with refBad := s.refBad ++ others })).raise pgSTREAM 3, none)

/-- The pixels of row `y` that lie in reference word `w`, encoded in order; the word is written back once. -/
def Chip.encodeWord (c : Chip) (j y w : Nat) (seed : Nat) (px : List Nat) : Chip :=
  let s := c.stream j
  let a := y * s.info.width
  let b := a + s.info.width
  let q := c.refWord j w a b
  let d := q.2.getD 0
  let mine := ((upto 8).map (fun i => 8 * w + i)).filter (fun i => a ≤ i && i < b)
  let r := mine.foldl (fun (x : Chip × Nat) i =>
    let c := x.1
    let s := c.stream j
    let l := logCode (nth 0 px (i - a)) (draw seed 3 s.frame.toNat i)
    let known := s.refValid && q.2.isSome && !s.refBad.contains i
    let o := encodePixel s.info { ref := if known then some (bits d (8 * (i % 8) + 7) (8 * (i % 8))) else none, l := l }
    let c := if s.refBad.contains i then (c.updStream j (fun s => { s with refBad := s.refBad.filter (· != i) })).raise pgSTREAM 3 else c
    let c := match o.2 with
      | some (pol, v) => c.takeEvent j (.xy (i - a) y pol (unsext 16 v))
      | none => c
    (c, setBits x.2 (8 * (i % 8) + 7) (8 * (i % 8)) o.1)) (q.1, d)
  let k := (r.1.streamBank s.info.port).write (s.refBase / 8 + w) r.2
  r.1.putStreamBank s.info.port k

/-- A valid line encoded in raster order. -/
def Chip.encodeLine (c : Chip) (j : Nat) (px : List Nat) : Chip :=
  let s := c.stream j
  let a := s.line * s.info.width
  let seed := match s.bound with | some (p, i) => streamSeed (c.past p.val).seed.toNat s.info.ipkg i | none => 0
  let first := a / 8
  let words := (a + s.info.width + 7) / 8 - first
  (upto words).foldl (fun c i => c.encodeWord j s.line (first + i) seed px) c

/-- RAW_LINE on receiver `k`: an encoder's line is checked and encoded (R695, R698, R709). -/
def Chip.rawLine (c : Chip) (k vc dt : Nat) (l : List Byte) (crcOk ce : Bool) : Chip :=
  if dt ≠ 0x2A && dt ≠ 0x2B then c.otherPacket k vc dt ce
  else if !c.csiLive k then c
  else
    let r := c.csiHeader k vc ce
    let c := r.1
    if !r.2 then c
    else match c.ctxOn k vc with
      | none => c.csiCount k 0x128 none
      | some j =>
        let s := c.stream j
        let bad (c : Chip) : Chip := c.updStream j (fun s => { s with frameOk := false, line := s.line + 1 })
        if !s.info.encoder then c.csiCount k 0x128 none
        else if !s.inFrame || s.skipFrame then (if crcOk then c else c.csiCount k 0x118 (some 1))
        else if !crcOk then bad (c.csiCount k 0x118 (some 1))
        else
          let raw10 := dt == 0x2B
          let right := if raw10 then 4 * l.length = 5 * s.info.width else l.length = s.info.width
          if !right || s.info.height ≤ s.line then bad (c.csiCount k 0x12C (some 2))
          else ((c.encodeLine j (pixelsOf raw10 l)).updStream j (fun s => { s with line := s.line + 1 })).eventCame j

/-! ### Synchronisation (R683, R709) -/

/-- SYNC_LOST: the current packet is discarded, and no packet is taken until the receiver has HS sync again. -/
def Chip.syncLost (c : Chip) (k : Nat) (w : SyncLossCause) : Chip :=
  if !c.csiLive k then c
  else
    let c := c.updPage (pgCSI + k) (fun p => p.setFld 0x104 0 0 0)
    match w with
    | .header => c.csiCount k 0x114 (some 0)
    | .startOfTransmission => c.csiCount k 0x130 (some 0)
    | .deskew => (c.updPage (pgCSI + k) (fun p => p.setFld 0x104 2 2 0)).csiCount k 0x130 (some 5)
    | .hsSync => c.csiCount k 0x130 (some 5)

/-- HS_SYNC: the receiver gains HS sync at a lane rate in units of 10 Mb/s; above 1,500 Mb/s only after deskew (R683). -/
def Chip.hsSync (c : Chip) (k rate : Nat) (deskew : Bool) : Chip :=
  if !c.domOn (domCSI k) || rate < 8 || 250 < rate || (150 < rate && !deskew) then c
  else c.updPage (pgCSI + k) (fun p => p.wr 0x104 (1 + b2n deskew * 4 + rate * 2 ^ 8))

/-! ### AER (R700, R709) -/

/-- AER port `k` latches its data and raises ACK: while the port is ON and REQ is high. -/
def Chip.aerLatch (c : Chip) (k : Nat) : Chip :=
  let a := nth Aer.init c.aers k
  if !c.domOn (domAER k) || !a.req || a.ack then c
  else
    let c := { c with aers := listSet c.aers k { a with ack := true } }
    match c.ctxOn (4 + k) 0 with
    | none => c.count (pgAER + k) 0x108 1
    | some j => (c.takeEvent j (.addr a.d.toNat)).eventCame j

/-- AER_HANDSHAKE: the sender drives D and raises REQ; a port that is not ON acknowledges once it is (R700, R701). -/
def Chip.aerHandshake (c : Chip) (k d : Nat) : Chip :=
  let a := nth Aer.init c.aers k
  if a.req || a.ack then c
  else ({ c with aers := listSet c.aers k { a with req := true, d := BitVec.ofNat 24 d } } : Chip).aerLatch k

/-- REQ_LOW: the sender lowers REQ once ACK is high, the port lowers ACK, and the handshake is complete. -/
def Chip.reqLow (c : Chip) (k : Nat) : Chip :=
  let a := nth Aer.init c.aers k
  if !a.req || !a.ack || !c.domOn (domAER k) then c
  else ({ c with aers := listSet c.aers k { a with req := false, ack := false } } : Chip).countWrap (pgAER + k) 0x104 1

end Sys2Proof.Machine
end

