-- ==== Sys2Proof/Machine/Gate.lean ====
section
/-! DEFINITION. The host gate: its configuration space, MSI-X, host egress and the trace ring, DMA answers, link loss and gate
reset (R110, R471, R626, R647–R681, R839, R840, R915). -/

namespace Sys2Proof.Machine

/-- The gate takes an access to a BAR: its domain is ON, its link is up and the function is in D0 (R668). -/
def Chip.barOpen (c : Chip) : Bool := !c.held && c.domOn domGATE && c.gate.dlUp && !c.gate.d3hot

/-! ### The configuration space (R647, R648, R651, R660; assumption 14) -/

/-- A double word of the configuration space: offset, bits a write stores, bits that a write of 1 clears, and its value in
the other bits. -/
structure CfgReg where
  off : Nat
  rw : Nat := 0
  w1c : Nat := 0
  fixed : Nat := 0

/-- The generation byte of Revision ID and LAYOUT: base die above the lowest generation of the compute dies. -/
def Chip.dieGen (c : Chip) : Nat := (c.fuses.dieGens.map (fun g => g.toNat)).foldl min 15

/-- The configuration space. The standard's registers are at assumed offsets; the DVSEC is R651's. -/
def Chip.cfgSpace (c : Chip) : List CfgReg :=
  let vid := Config.vendorId.toNat
  let gen := c.fuses.baseGen.toNat
  [ { off := 0x00, fixed := vid + Config.deviceId.toNat * 2 ^ 16 }
  , { off := 0x04, rw := 0x0546, w1c := 0xF9000000, fixed := 0x00100000 }
  , { off := 0x08, fixed := 0x12000000 + gen * 16 + c.dieGen }
  , { off := 0x0C, rw := 0xFF }
  , { off := 0x10, rw := 0xFC000000, fixed := 4 }, { off := 0x14, rw := 0xFFFFFFFF }
  , { off := 0x18, rw := 0xFE000000, fixed := 4 }, { off := 0x1C, rw := 0xFFFFFFFF }
  , { off := 0x20, rw := 0xF8000000, fixed := 4 }, { off := 0x24, rw := 0xFFFFFFFF }
  , { off := 0x34, fixed := 0x40 }, { off := 0x3C, rw := 0xFF }
  , { off := 0x40, fixed := 0x00035001 }, { off := 0x44, rw := 0x3, fixed := 0x8 }
  , { off := 0x50, fixed := 0x0002B010 }, { off := 0x54, fixed := 0x10008022 }
  , { off := 0x58, rw := 0x70EF, w1c := 0xF0000 }
  , { off := 0x5C, fixed := 0x00000905 }, { off := 0x60, rw := 0xCB, fixed := 0x10000000 + c.gate.width * 2 ^ 20 + (c.gate.speed + 1) * 2 ^ 16 }
  , { off := 0x74, fixed := 0x0003001E }, { off := 0x78, rw := 0x101F }, { off := 0x7C, fixed := 0x3E }, { off := 0x80, rw := 0xF }
  , { off := cfgMSIX, rw := 0xC0000000, fixed := 0x07FF0011 }, { off := 0xB4, fixed := 0x01000002 }, { off := 0xB8, fixed := 0x01008002 }
  , { off := 0x100, fixed := 0x14820001 }, { off := 0x104, w1c := 0x01FFF030 }, { off := 0x108, rw := 0x01FFF030 }
  , { off := 0x10C, rw := 0x01FFF030 }, { off := 0x110, w1c := 0xF1C1 }, { off := 0x114, rw := 0xF1C1 }
  , { off := 0x148, fixed := 0x16010019 }, { off := 0x160, fixed := 0x19010026 }, { off := 0x190, fixed := 0x1C01002A }
  , { off := 0x1C0, fixed := 0x20010027 }, { off := 0x200, fixed := 0x2301001E }, { off := 0x208, rw := 0xF }
  , { off := 0x230, fixed := 0x00010023 }, { off := 0x234, fixed := vid + 0x10000 + 0x040 * 2 ^ 20 }, { off := 0x238, fixed := 1 }
  , { off := 0x23C, fixed := 0x56524F54 }, { off := 0x240, fixed := 0x100 + gen * 2 ^ 16 + c.dieGen * 2 ^ 20 }
  , { off := 0x244, fixed := c.pkg % 256 + c.homePkg % 256 * 2 ^ 8 + c.machineSize % 512 * 2 ^ 16 }
  , { off := 0x248, fixed := c.fuses.neuronGrade.toNat + c.fuses.tensorGrade.toNat * 2 ^ 16 }
  , { off := 0x24C, fixed := 4096 + 2047 * 2 ^ 16 }, { off := 0x250, fixed := 0x420 + 12 * 2 ^ 16 }, { off := 0x254, fixed := 0x02000000 } ]

/-- A configuration register as it reads; an offset without one reads 0. -/
def Chip.cfgRead (c : Chip) (off : Nat) : Nat :=
  match c.cfgSpace.find? (fun r => r.off == off) with
  | some r => r.fixed ||| (c.cfg off &&& (r.rw ||| r.w1c))
  | none => 0

/-- A pending message of an unmasked entry is sent (R660). -/
def Chip.msixFlush (c : Chip) (v : Nat) : Chip :=
  let e := mapGet msixDefault c.gate.msix v
  if e.pending && !e.masked && !bit (c.cfg cfgMSIX) 30 then
    ({ c with gate := { c.gate with msix := mapSet msixDefault c.gate.msix v { e with pending := false } } } : Chip).msix v
  else c

/-- Every pending message that nothing masks is sent. -/
def Chip.msixFlushAll (c : Chip) : Chip :=
  ((c.gate.msix.filter (fun e => e.2.pending)).map (fun e => e.1)).foldl (fun c v => c.msixFlush v) c

/-- MSIX_UNMASK: the host writes an entry of the MSI-X table; with its mask bit 0 a pending message is sent (R660). -/
def Chip.msixWrite (c : Chip) (v : Nat) (addr : W64) (data : W32) (mask : Bool) : Chip :=
  if !c.barOpen then c
  else
    let e := mapGet msixDefault c.gate.msix v
    let e := { e with addr := addr, data := data, masked := mask }
    ({ c with gate := { c.gate with msix := mapSet msixDefault c.gate.msix v e } } : Chip).msixFlush v

/-! ### Gate reset (R57, R678) -/

/-- The entry belongs to a host queue context, 0–4,094. -/
def Chip.hostEntry (c : Chip) (e : Nat) : Bool :=
  match (c.entry e).source with | .ctx q => q.val != 4095 | .share => false

/-- What the rest of the package still holds of a command that ends without a completion is taken away. -/
def Chip.detach (c : Chip) (own : EntryId → Bool) : Chip :=
  let drop (l : List EntryId) : List EntryId := l.filter (fun e => !own e)
  let none? (o : Option EntryId) : Option EntryId := o.filter (fun e => !own e)
  let ask (q : DomReq) : DomReq := match q.asker with | .command e => if own e then { q with asker := .register } else q | _ => q
  let past (x : Past) : Past :=
    { x with
      ckpts := drop x.ckpts, shifts := x.shifts.filter (fun s => !own s.1)
      inject := x.inject.map (fun i => { i with entry := none? i.entry })
      passedOver := x.passedOver.filter (fun r => !(r.entry.any own))
      pendingHold := x.pendingHold.bind (fun h =>
        let l := drop h.entries
        if l.isEmpty && !h.entries.isEmpty then none else some { h with entries := l }) }
  let tile (t : Tile) : Tile :=
    match t.tc.chain with
    | some ch => if ch.entry.any own then { t with tc := { t.tc with chain := none } } else t
    | none => t
  { c with
    pasts := c.pasts.map (fun x => (x.1, past x.2))
    tiles := c.tiles.map (fun t => (t.1, tile t.2))
    doms := c.doms.map (fun d => (d.1, { d.2 with current := d.2.current.map ask, queued := d.2.queued.map ask }))
    dies := c.dies.map (fun d => { d with waiters := drop d.waiters })
    vlinks := c.vlinks.map (fun v => (v.1, { v.2 with tests := drop v.2.tests }))
    nv := { c.nv with jobs := c.nv.jobs.map (fun j => { j with entry := none? j.entry }) }
    reads := c.reads.filter (fun r => !(r.issuer == pgXFER && own (Fin.ofNat 512 r.rtag)))
    ladders := c.ladders.map (fun l => (l.1, { l.2 with entry := none? l.2.entry })) }

/-- The RUN or LADDER of pasture `p` that host contexts gave ends at the next muster without a completion, and a pasture
without a RUN of another source holds as if by HOLD (R678). -/
def Chip.hostRunEnds (c : Chip) (own : EntryId → Bool) (p : Nat) : Chip :=
  let x := c.past p
  let mine (r : RunRec) : Bool := r.entry.any own
  let c := c.updPast p (fun x => { x with nextRun := x.nextRun.filter (fun r => !mine r) })
  match x.run with
  | none => if x.held then c else c.holdAsIf p
  | some r =>
    if !mine r then c
    else
      let c := c.updPast p (fun x => { x with run := some { r with entry := none }, abortRun := true })
      if x.between then (c.endRun p stABORTED).holdAsIf p else c

/-- A gate reset of any kind. -/
def Chip.gateReset (c : Chip) (kind : GateResetKind) : Chip :=
  if c.held || !c.domOn domGATE then c
  else
    let own : EntryId → Bool := fun e => (c.entry e.val).state != .free && c.hostEntry e.val
    let gone := (c.live.map (fun e => e.1)).filter (fun e => c.hostEntry e)
    let c := c.residents.foldl (fun c p => c.hostRunEnds own p) c
    let c := c.detach own
    let c := gone.foldl (fun c e => ((c.freeChannel e).putEntry e SbEntry.init)) c
    let c := c.recheck
    let off (x : Nat × Ctx) : Nat × Ctx := if x.1 = 4095 then x else
      (x.1, { x.2 with state := .disabled, pi := 0, ci := 0, cqPi := 0, cqCi := 0, seqNext := 0, dupLast := 0, vtime := 0
                       counted := 0, cqWaiting := false, wasEligible := false })
    let noRing (x : Nat × Past) : Nat × Past := (x.1, { x.2 with ring := none })
    let c : Chip := { c with ctxs := c.ctxs.map off, pasts := c.pasts.map noRing }
    let home := (c.page pgGATE).rd 0x10C
    let g := c.gate
    let up := g.dlUp && kind == .flr
    let c := { c with
      gate := { Gate.init with dlUp := up, ready := g.ready, limits := g.limits, sent := g.sent
                               width := if up then g.width else 0, speed := if up then g.speed else 0 }
      reads := c.reads.filter (fun r => r.issuer != pgGATE) }
    ((c.putPage pgGATE (Page.init codeGATE)).updPage pgGATE (fun p => p.wr 0x10C home)).raise pgGATE 6

/-! ### Configuration requests (R626, R648) -/

/-- CONFIG_REQUEST. -/
def Chip.configRequest (c : Chip) (fn off : Nat) (write : Bool) (v : Nat) : Chip :=
  if c.held || !c.domOn domGATE || !c.gate.dlUp then c.say .none
  else if !c.gate.ready then c.say .retry
  else if fn ≠ 0 then c.say .unsupported
  else
    let off := off / 4 * 4
    if !write then c.say (.data [c.cfgRead off])
    else match c.cfgSpace.find? (fun r => r.off == off) with
      | none => c.say (.data [])
      | some r =>
        let old := c.cfg off
        let v' := (v &&& r.rw) ||| ((old &&& r.w1c) - (old &&& r.w1c &&& v))
        let c := c.setCfg off v'
        let c := if off = 0x44 then { c with gate := { c.gate with d3hot := bits v 1 0 == 3 } } else c
        let c := if off = cfgMSIX then c.msixFlushAll else c
        let c := if off = 0x58 && bit v 15 then c.gateReset .flr else c
        c.say (.data [])

/-! ### Link loss and return (R676, R677) -/

/-- The COPY commands that wait for an answer of host memory. -/
def Chip.hostCopies (c : Chip) : List Nat :=
  (c.live.filter (fun e => e.2.state == .running && e.2.opcode == 0x40 && bits (e.2.bytes 52 1) 1 0 == 0)).map (fun e => e.1)

/-- GATE_LINK_DOWN. -/
def Chip.gateLinkDown (c : Chip) : Chip :=
  if c.held || !c.gate.dlUp then c
  else
    let c := { c with gate := { c.gate with dlUp := false, l1 := false, l12 := false, width := 0, speed := 0 } }
    let c := (c.count pgGATE 0x140 1).raise pgGATE 0
    if c.homePkg ≠ c.pkg then c
    else
      let act := (c.ctxs.filter (fun x => x.1 != 4095 && x.2.state == .active)).map (fun x => x.1)
      let lostNow := act.map (fun q => (Fin.ofNat 4096 q : CtxId))
      let c : Chip := { c with gate := { c.gate with lost := (c.gate.lost ++ lostNow).eraseDups } }
      let n : Nat := (c.gate.rings.map (fun (r : Nat × ERing) => r.2.waiting.length)).sum
      let shut (r : Nat × ERing) : Nat × ERing := (r.1, { r.2 with en := false, waiting := [] })
      let c : Chip := { c with gate := { c.gate with rings := c.gate.rings.map shut } }
      let c := if n = 0 then c else (c.count pgGATE 0x148 n).raise pgGATE 4
      let c := c.hostCopies.foldl (fun c e => c.copyEnd e stGATE_LOST) c
      act.foldl (fun c q => ((c.updCtx q (fun x => { x with state := .stopping })).abortQueued q).maybeStopped q) c

/-- GATE_LINK_UP: the link trains within the limits that are set (R628, R677). -/
def Chip.gateLinkUp (c : Chip) (width speed : Nat) : Chip :=
  if c.held || !c.domOn domGATE || c.gate.dlUp || width = 3 || 4 < speed then c
  else
    let lim := c.gate.limits.toNat
    let w := 4 * 2 ^ (min width (bits lim 1 0))
    let c := { c with gate := { c.gate with dlUp := true, width := w, speed := min speed (bits lim 4 2) } }
    c.raise pgGATE 1

/-! ### DMA answers (R432, R447, R679) -/

/-- Entry `e` is a COPY that waits for host memory. -/
def Chip.waitsHost (c : Chip) (e : Nat) : Bool := c.hostCopies.contains e

/-- A DMA read failed: the command stops there (R679); `aer` is the bit of the AER capability that records it. -/
def Chip.dmaFails (c : Chip) (e aer : Nat) : Chip :=
  (c.dmaError aer).copyEnd e stUNCORRECTED

/-- DMA_COMPLETION of the read that COPY entry `e` waits for. -/
def Chip.dmaCompletion (c : Chip) (e : Nat) (a : DmaAnswer) : Chip :=
  if !c.waitsHost e then c
  else match a with
    | .ok =>
      let r := c.entry e
      let len := bits (r.bytes 48 4) 24 0
      let n := min (4096 - r.done % 4096) (len - r.done)
      let s := c.copyTake e (fields 8 (n / 8) (memReadN c.host (r.bytes 32 8 + r.done) n)) false
      if s.2 then s.1.copyOn e 4097 else s.1
    | .unsupported => c.dmaFails e 20
    | .completerAbort => c.dmaFails e 15
    | .poisoned => c.dmaFails e 12

/-- DMA_COMPLETION_TIMEOUT. -/
def Chip.dmaTimeout (c : Chip) (e : Nat) : Chip := if c.waitsHost e then c.dmaFails e 14 else c

/-! ### Host egress (R662–R667) -/

def Chip.ering (c : Chip) (i : Nat) : ERing := mapGet eringDefault c.gate.rings i
def Chip.putEring (c : Chip) (i : Nat) (r : ERing) : Chip :=
  { c with gate := { c.gate with rings := mapSet eringDefault c.gate.rings i r } }

/-- Records that the ring holds unread. -/
def ERing.fill (r : ERing) : Nat := (r.pi - r.ci).toNat

/-- Byte `i` of a record with the PHASE of index `pi` in its top bit (R663, R839). -/
def withPhase (l : List Byte) (i pi log : Nat) : List Byte :=
  let even := pi / 2 ^ log % 2 = 0
  listSet l i (BitVec.ofNat 8 ((nth 0 l i).toNat % 128 + if even then 128 else 0))

/-- A record of pasture `p` written at the producer index of ring `i`. -/
def Chip.ringPut (c : Chip) (i p : Nat) (l : List Byte) : Chip :=
  let r := c.ering i
  let a := r.base.toNat + 16 * (r.pi.toNat % 2 ^ r.logSize.toNat)
  let c := c.hostWrite a (withPhase l 5 r.pi.toNat r.logSize.toNat)
  (c.putEring i { r with pi := r.pi + 1, got := if r.got.contains p then r.got else r.got ++ [p] }).count pgGATE 0x14C 1

/-- An egress record reaches ring `i`: written, made to wait, or discarded (R666, R676). -/
def Chip.egressRecord (c : Chip) (i p : Nat) (l : List Byte) : Chip :=
  let r := c.ering i
  if c.hostStatus.isSome then (c.count pgGATE 0x148 1).raise pgGATE 4
  else if 64 ≤ i || !r.en then (c.count pgGATE 0x150 1).raise pgGATE 4
  else if r.waiting.isEmpty && r.fill < 2 ^ r.logSize.toNat then c.ringPut i p l
  else (c.putEring i { r with waiting := r.waiting ++ [(p, l)] }).raise pgGATE 5

/-- EGRESS_RECORD_WRITE: the oldest record that waits at ring `i` is written once there is room. -/
def Chip.ringNext (c : Chip) (i : Nat) : Chip :=
  let r := c.ering i
  match r.waiting with
  | [] => c
  | (p, l) :: rest =>
    if !r.en then ((c.putEring i { r with waiting := rest }).count pgGATE 0x150 1).raise pgGATE 4
    else if r.fill < 2 ^ r.logSize.toNat then (c.putEring i { r with waiting := rest }).ringPut i p l
    else c

/-- A write of ERING_CI for ring `i` (R354, R664). -/
def Chip.eringCi (c : Chip) (i : Nat) (v : W32) : Chip :=
  let r := c.ering i
  if (v - r.ci).toNat ≤ (r.pi - r.ci).toNat then c.putEring i { r with ci := v } else c

/-! ### Egress of a port tile (R110, R455, R471, R915) -/

/-- An event for peer pasture `q` from pasture `p`. -/
def Chip.peerEgress (c : Chip) (p w0 w1 h : Nat) : Chip :=
  let q := bits w1 11 2
  let x := c.past q
  if x.presence = .free then (c.count pgPLACE 0x170 1).raise pgPLACE 4
  else if !(x.peers.any (fun r => r.val == p)) then c.count pgPLACE 0x170 1
  else if 4096 ≤ x.inject.length then (c.count pgPLACE 0x170 1).raise pgPLACE 4
  else
    let w := ({ kind := kAXON, pkg := bits w1 29 22, die := bits w1 21 20, x := tileX (bits w1 19 12), y := tileY (bits w1 19 12)
                tag := bits w0 31 20, payload := (Hdr.of h).payload : Hdr }).word
    (c.updPast q (fun x => { x with inject := x.inject ++ [{ word := BitVec.ofNat 64 w, entry := none }] })).unpark q

/-- PORT_EGRESS: an AXON of pasture `p` delivered to port tile `k`. -/
def Chip.portEgress (c : Chip) (p k h : Nat) : Chip :=
  let x := c.past p
  match x.tileAt k with
  | none => c.tileDiscard k .fenced h
  | some e =>
    let tag := (Hdr.of h).tag
    let g := mapGet egressDefault (c.tile k).egress tag
    let dest := bits g.word1.toNat 1 0
    let port (f : Page → Page) (c : Chip) : Chip := c.updTile k (fun t => { t with pCore := f t.pCore })
    if g.owner != some (Fin.ofNat 1024 p) || dest = 0 || dest = 3 then port (fun q => (q.cntSat 0x114 1).raise 0) c
    else
      let c := port (fun q => q.cntSat 0x110 1) c
      if dest = 2 then c.peerEgress p g.word0.toNat g.word1.toNat h
      else
        let l := natLe 4 x.round.toNat ++ natLe 2 p ++ natLe 2 tag ++ natLe 2 (Hdr.of h).payload
          ++ [BitVec.ofNat 8 e.imgTile.val, BitVec.ofNat 8 e.imgDie.val, e.imgPkg, 0, 0, 0]
        c.egressRecord (g.word1.toNat / 4 % 64) p l

/-! ### The trace ring (R839, R840) -/

/-- A TRACE becomes a record of the trace ring; a full or disabled ring drops it. -/
def Chip.traceRecord (c : Chip) (hdr datum : Nat) : Chip :=
  let p := c.page pgHEALTH
  let cfg := p.rd 0x168
  let pi := p.rd 0x16C
  let log := bits cfg 4 0
  let h := Hdr.of hdr
  if !bit cfg 31 || 2 ^ log ≤ subMod (2 ^ 32) pi (p.rd 0x170) then (c.count pgHEALTH 0x198 1).raise pgHEALTH 8
  else
    let l := natLe 8 datum ++ natLe 2 h.payload ++ [BitVec.ofNat 8 h.stamp, BitVec.ofNat 8 h.origin] ++ natLe 4 c.timeMs
    let a := p.rd 0x160 + p.rd 0x164 * 2 ^ 32 + 16 * (pi % 2 ^ log)
    let c := c.hostWrite a (withPhase l 11 pi log)
    let c := c.updPage pgHEALTH (fun p => p.cntWrap 0x16C 1)
    if bit cfg 30 then c.msix (bits cfg 26 16) else c

/-- A write of TRACE_CI (R840). -/
def Chip.traceCi (c : Chip) (v : Nat) : Chip :=
  let p := c.page pgHEALTH
  if subMod (2 ^ 32) v (p.rd 0x170) ≤ subMod (2 ^ 32) (p.rd 0x16C) (p.rd 0x170) then c.updPage pgHEALTH (fun p => p.wr 0x170 v) else c

/-! ### Doorbells of the BARs (R344, R352, R655) -/

/-- CONTROL wakes for an access and the access is then served (R595, R899). -/
def Chip.wakeControl (c : Chip) : Chip :=
  if c.domOn domCONTROL then c else (c.wakeDomain domCONTROL).wakingEnd domCONTROL

/-- A doorbell of context `q`: it wakes CONTROL from RETAIN and is then applied (R353, R354, R595). -/
def Chip.doorbell (c : Chip) (cq : Bool) (q : Nat) (v : W32) : Chip :=
  if (c.dom domCONTROL).state = .off then c
  else
    let c := c.wakeControl
    if cq then c.doorbellCi q v else c.doorbellPi q v

/-- A write of REMOTE_DB_VAL. -/
def Chip.remoteDb (c : Chip) (v : W32) : Chip :=
  let w := (c.page pgGATE).rd 0x118
  c.doorbell (bit w 12) (bits w 11 0) v

end Sys2Proof.Machine
end

