-- ==== Sys2Proof/Machine/Links.lean ====
section
/-! DEFINITION. The rack links: sending and replay, the receiver, items and channels, bring-up, loss and expiry, and the
exchange of pastures that span packages (R717–R752, R736, R468). -/

namespace Sys2Proof.Machine

/-- The page of link `k`. -/
def lkPage (k : Nat) : Nat := pgLINK + k

/-! ### Sending (R719–R728) -/

/-- A flit count of a message that starts with flits `l`; none while too few are there to tell. -/
def flitLen (l : List Flit) : Option Nat :=
  match l with
  | [] => none
  | f :: r =>
    let w := ((readFlit f).2).getD 0
    let h := Hdr.of w
    if h.kind = 0 then some 1
    else if h.kind = kDATA || h.kind = kREADRESP then
      match r with
      | [] => none
      | g :: _ => some (msgLen h (((readFlit g).2).getD 0))
    else some (msgLen h 0)

/-- How many flits of the last message of `l` are still to come after the first `n`, where `lead` flits at the start continue
a message. -/
def leftAfter : Nat → Nat → Nat → List Flit → Nat
  | 0, _, _, _ => 0
  | f + 1, lead, n, l =>
    if n ≤ lead then lead - n
    else
      let l' := l.drop lead
      match flitLen l' with
      | none => 0
      | some m => leftAfter f m (n - lead) l'

/-- The link sends DATA frames: it is UP, or in its control-only state. -/
def LinkPhase.sends (p : LinkPhase) : Bool := p == .up || p == .ctrlOnly

/-- The class that may send its next frame now (R727); a control-only link carries no data plane (R740). -/
def Link.ready (l : Link) : Option Nat :=
  (if l.phase == .up then [0, 1, 2, 3] else [2, 3]).find? (fun i =>
    let q := l.cls i
    let room := (q.txLimit - q.txCount).toNat
    !q.txq.isEmpty && 1 ≤ room && room ≤ 128)

/-- DATA frames formed and sent while a class has flits and credit and the replay buffer has room (R723, R727, R728). -/
def Chip.pump (c : Chip) (k : Nat) : Nat → Chip
  | 0 => c
  | f + 1 =>
    let l := c.link k
    if !l.phase.sends || 4095 ≤ l.replay.length then c
    else match l.ready with
      | none => c
      | some i =>
        let q := l.cls i
        let n := min 27 q.txq.length
        let e := l.emit 0 i l.txSeq.toNat q.txCount.toNat (slotBody q.txq)
        let l := e.1.updCls i (fun q => { q with txq := q.txq.drop n, txCount := q.txCount + 1, txLeft := leftAfter 30 q.txLeft n q.txq })
        let l := { l with txSeq := l.txSeq + 1, replay := l.replay ++ [(BitVec.ofNat 12 l.txSeq.toNat, q.txLeft, e.2)] }
        ((c.putLink k l).countWrap (lkPage k) 0x120 1).pump k f

/-- Every link sends what it can. -/
def Chip.pumpAll (c : Chip) : Chip :=
  (upto 6).foldl (fun c k => c.pump k (((c.link k).classes.map (fun q => q.txq.length)).sum + 1)) c

/-- The unacknowledged frames from `l` on are sent again with the present E, NAK and credit limits (R725, R726). -/
def resend : Link → List (BitVec 12 × Nat × List Byte) → Link × List (BitVec 12 × Nat × List Byte)
  | l, [] => (l, [])
  | l, (s, lead, f) :: r =>
    let h := FrameHdr.of f
    let e := l.emit 0 h.cls h.seq h.ccount (slice f 8 244)
    let q := resend e.1 r
    (q.1, (s, lead, e.2) :: q.2)

/-- A replay of every unacknowledged frame from SEQ `a` (R725, R726). -/
def Chip.replayFrom (c : Chip) (k : Nat) (a : BitVec 12) : Chip :=
  let l := c.link k
  let pre := l.replay.takeWhile (fun e => e.1 != a)
  let rest := l.replay.drop pre.length
  if rest.isEmpty then c
  else
    let q := resend l rest
    let c := c.putLink k { q.1 with replay := pre ++ q.2, replaying := some a }
    let c := (c.count (lkPage k) 0x130 1).raise (lkPage k) 2
    (c.count (lkPage k) 0x134 rest.length).countWrap (lkPage k) 0x120 rest.length

/-! ### The receiver's header work (R724–R727) -/

/-- The frames before `ack` are freed; an ACK outside the replay buffer frees none. -/
def Link.free (l : Link) (ack : BitVec 12) : Link :=
  match l.replay with
  | [] => l
  | (s, _, _) :: _ =>
    let n := (ack - s).toNat
    if l.replay.length < n then l
    else
      let gone := (l.replay.take n).map (fun e => e.1)
      { l with replay := l.replay.drop n, replaying := l.replaying.filter (fun r => !gone.contains r) }

/-- ACK, NAK and CLIM of a frame whose CRC passes. -/
def Chip.takeHeader (c : Chip) (k : Nat) (h : FrameHdr) : Chip :=
  let a := BitVec.ofNat 12 h.ack
  let c := c.updLink k (fun l => (l.free a).updCls h.cclass (fun q => { q with txLimit := BitVec.ofNat 12 h.clim }))
  if h.nak && (c.link k).replaying != some a then c.replayFrom k a else c

/-- FEC results of the codewords of a frame (R752). -/
def Chip.fec (c : Chip) (k corr uncorr : Nat) : Chip :=
  let c := c.countWrap (lkPage k) 0x138 corr
  if uncorr = 0 then c else (c.count (lkPage k) 0x13C uncorr).raise (lkPage k) 5

/-- A frame discarded: the next frame carries NAK, once until a frame is accepted (R725). -/
def Chip.owesNak (c : Chip) (k : Nat) : Chip := c.updLink k (fun l => if l.nakSent then l else { l with nakDue := true })

/-! ### Messages in (R468, R730, R733) -/

/-- A pasture that holds a channel on the direction in of link `k`. -/
def Chip.channelled (c : Chip) (k p : Nat) : Bool := (c.link k).rxChannels.any (fun e => e.1.val == p)

/-- The fence of R468 passes a data-plane message that arrived by link `k`. -/
def Chip.fencePasses (c : Chip) (k : Nat) (h : Hdr) : Bool :=
  if h.pkg = c.pkg then
    match c.ownerOf (tileKey h.die (tileOf h.x h.y)) with
    | some p => c.channelled k p
    | none => false
  else c.residents.any (fun p => c.channelled k p && ((c.past p).pkgMap.any (fun b => b.toNat == h.pkg)))

/-- A message of class `cl` that has arrived whole by link `k`: fenced, delivered in this package, or passed on. -/
def Chip.linkMessage (c : Chip) (k cl : Nat) (ws : List Nat) : Chip :=
  let h := Hdr.of (ws.headD 0)
  let plane := h.kind = kAXON || h.kind = kTALLY
  if c.machineSize ≤ h.pkg || h.kind = kFLOCK || 12 ≤ h.kind then
    (c.count (lkPage k) 0x154 1).fault (lkPage k) stBAD_OPERAND (bits (ws.headD 0) 63 32) h.origin
  else if plane && !c.fencePasses k h then (c.count (lkPage k) 0x14C 1).raise (lkPage k) 6
  else if h.pkg ≠ c.pkg then c.linkOut (some (k, cl % 2)) ws
  else if plane then
    match c.ownerOf (tileKey h.die (tileOf h.x h.y)) with
    | some p => (c.feedNear p (ws.headD 0)).1
    | none => c
  else c.send ws

/-! ### Items in (R729, R736) -/

/-- A CLOSE of channel `n` of pasture `p` delivered on its onward input. -/
def Chip.takeClose (c : Chip) (k p n : Nat) : Chip :=
  match (c.link k).rxChannels.find? (fun e => e.1.val == p && e.2.1 == n) with
  | none => c
  | some e => c.updTile e.2.2.1 (fun t => { t with rt := { t.rt with vfeed := { t.rt.vfeed with
      closes := some (t.rt.vfeed.closes.getD 0 + 1) } } })

/-- A muster or vote item of pasture `p` that arrived by link `k` (R736). -/
def Chip.takeItem (c : Chip) (k w : Nat) : Chip :=
  let item := bits w 59 56
  let p := bits w 55 46
  let x := c.past p
  let n : W32 := BitVec.ofNat 32 (bits w 39 8)
  let flag := bit w 0
  if item = 1 then c.takeClose k p (bits w 45 40)
  else if !x.resident || !x.spans then c
  else if item = 2 then
    if !(c.childLinks x).contains k then c
    else if n = x.round then
      c.updPast p (fun x => { x with span := { x.span with arrives := x.span.arrives ++ [(k, flag)] } })
    else if n + 1 = x.round && !x.inRound && flag then
      let c := c.updPast p (fun x => { x with quiet := false })
      if c.isRoot x then (c.updPast p (fun x => { x with parked := false })).due p
      else match c.parentLink x with
        | some l => c.sendItem l 2 p 0 n.toNat false true
        | none => c
    else c
  else if item = 4 then
    if !(c.childLinks x).contains k || n ≠ x.round then c
    else c.updPast p (fun x => { x with span := { x.span with votes := x.span.votes ++ [(k, flag)] } })
  else if c.parentLink x ≠ some k then c
  else if item = 3 then
    let skip := bit w 1
    let c := c.toChildren p 3 n.toNat skip flag
    let c := c.updPast p (fun x => { x with longIdle := flag, span := { x.span with done := some skip, woke := false } })
    if n = x.round && x.inRound then c.musterComplete p
    else if n + 1 = x.round && !x.inRound then (c.updPast p (fun x => { x with parked := false })).due p
    else c
  else if item = 5 && n = x.round then
    let c := c.toChildren p 5 n.toNat false flag
    (c.updPast p (fun x => { x with span := { x.span with result := some flag } })).lapVote p
  else c

/-! ### Slots (R722, R728, R140) -/

/-- The slots of a class taken in: whole messages and items are passed on, the rest of a message is kept. Corrections are
counted, and an uncorrectable flit discards its message (R95, R140, R755). -/
def Chip.takeFlits (c : Chip) (k cl : Nat) : Nat → List Flit → Chip × List Flit
  | 0, l => (c, l)
  | f + 1, l =>
    match l with
    | [] => (c, [])
    | w :: r =>
      if w = 0 then c.takeFlits k cl f r
      else match (readFlit w).2 with
        | none => (c.fault (lkPage k) stUNCORRECTED 0 0).takeFlits k cl f r
        | some d =>
          let whole (n : Nat) : Chip × List Flit :=
            let m := l.take n
            let rest := l.drop n
            let ce := (m.filter (fun g => match (readFlit g).1 with | .data _ => true | .check => true | _ => false)).length
            let c := c.updPage (lkPage k) (fun p => iter Page.corrected ce p)
            let c :=
              if m.any (fun g => (readFlit g).2.isNone) then c.fault (lkPage k) stUNCORRECTED 0 0
              else if (Hdr.of d).kind = 0 then c.takeItem k d
              else c.linkMessage k cl (m.map (fun g => ((readFlit g).2).getD 0))
            c.takeFlits k cl f rest
          match flitLen l with
          | none => (c, l)
          | some n => if l.length < n then (c, l) else whole n

/-- An accepted DATA frame (R724, R727, R728). -/
def Chip.acceptFrame (c : Chip) (k : Nat) (h : FrameHdr) (f : List Byte) : Chip :=
  let c := c.updLink k (fun l => { l with rxSeq := l.rxSeq + 1, nakSent := false })
  let c := c.countWrap (lkPage k) 0x124 1
  let q := (c.link k).cls h.cls
  let slots := frameSlots f
  let r := c.takeFlits k h.cls 70 (q.partly ++ slots)
  let held := if r.2.isEmpty then 0 else if r.2.length ≤ 27 then 1 else q.frames + 1
  r.1.updLink k (fun l => l.updCls h.cls (fun q => { q with
    rxCount := q.rxCount + 1, partly := r.2, frames := held, rxLimit := q.rxCount + 129 - BitVec.ofNat 12 held }))

/-! ### Notices, expiry and PATH_LOST (R734, R747) -/

/-- The port of the neighbour at the other end of port `l` of package `q`. -/
def Chip.otherEnd (c : Chip) (q l : Nat) : Nat × Nat :=
  (c.stepPkg q (l / 2) (l % 2 == 0), if l % 2 = 0 then l + 1 else l - 1)

/-- The path from this package to package `r` crosses the link at port `l` of package `q`. -/
def Chip.crosses (c : Chip) (a r q l : Nat) : Bool :=
  match c.pathOf 32 a r with
  | none => false
  | some s => s.contains (q, l) || s.contains (c.otherEnd q l)

/-- An outstanding request completes with PATH_LOST at its requester (R747, R654). -/
def Chip.readLost (c : Chip) (r : Outstanding) : Chip :=
  let c := { c with reads := c.reads.erase r }
  let k := (c.portFrom c.pkg r.pkg).getD 0
  let c := c.count (lkPage k) 0x148 1
  if r.issuer = pgXFER then c.copyEnd r.rtag stPATH_LOST
  else if r.issuer = pgGATE then
    ((c.updPage pgGATE (fun p => p.setFld 0x108 7 0 stPATH_LOST)).raise pgGATE 3).say (.data (List.replicate r.count 0))
  else if r.issuer = pgCROOK then
    let job := c.crook.job.map (fun j => { j with got := j.got ++ List.replicate r.count 0, waiting := false })
    let c : Chip := { c with crook := { c.crook with job := job } }
    (c.updPage pgGATE (fun p => p.setFld 0x108 7 0 stPATH_LOST)).raise pgGATE 3
  else c

/-- What the loss of the link at port `l` of package `q` ends in this package: requests whose path crosses it, host traffic
homed across it, and pastures with a channel, muster tree or lap vote across it. The paths are those of the map before. -/
def Chip.linkGone (old c : Chip) (q l : Nat) : Chip :=
  let lost := c.reads.filter (fun r => old.crosses old.pkg r.pkg q l)
  let c := lost.foldl (fun c r => c.readLost r) c
  let c := if c.homePkg ≠ c.pkg && old.crosses old.pkg c.homePkg q l then
      c.hostCopies.foldl (fun c e => c.copyEnd e stPATH_LOST) c else c
  let hit (p : Nat) : Bool :=
    let x := old.past p
    let l' := (x.pkgMap.map (fun b => b.toNat)).eraseDups
    x.spans && l'.any (fun a => l'.any (fun b => a != b && old.crosses a b q l))
  (c.residents.filter hit).foldl (fun c p =>
    ((c.updPast p (fun x => { x with stalled := x.inRound, span := Span.init })).faultHard p stPATH_LOST)) c

/-- A LINK_STATE notice about package `q` (R734, R747). -/
def Chip.linkState (c : Chip) (q : Nat) (ports : BitVec 6) : Chip :=
  let was := mapGet lsDefault c.lsmap q
  let gone := (upto 6).filter (fun l => was.getLsbD l && !ports.getLsbD l)
  gone.foldl (fun d l => Chip.linkGone c d q l) (c.notice q ports)

/-- SYNC messages that the discarded buffers of a link hold (R747). -/
def Link.syncs (l : Link) : Nat :=
  let heads (lead : Nat) (fs : List Flit) : Nat :=
    ((fs.drop lead).filter (fun f => bits (((readFlit f).2).getD 0) 63 60 = kSYNC && bits (((readFlit f).2).getD 0) 41 40 = 3)).length
  let inReplay := (l.replay.map (fun e => if (FrameHdr.of e.2.2).cls < 2 then 0 else heads e.2.1 (frameSlots e.2.2))).sum
  let waiting := ((l.classes.drop 2).map (fun q => heads q.txLeft q.txq + heads 0 q.partly)).sum
  inReplay + waiting

/-- The LINK_HOLD of link `k` expires (R746, R747). -/
def Chip.expire (c : Chip) (k : Nat) : Chip :=
  let l := c.link k
  let c0 := c
  let n := l.syncs
  let fresh : Link := { Link.init with
    phase := l.phase, epoch := l.epoch, peerPkg := l.peerPkg, peerPort := l.peerPort, peerSeen := l.peerSeen, sentSeen := l.sentSeen }
  let c := c.putLink k fresh
  let c := if n = 0 then c else (c.count (lkPage k) 0x150 n).raise pgSHEP 5
  let c := ((c.count (lkPage k) 0x144 1).raise (lkPage k) 3).ownNotice k false
  Chip.linkGone c0 c c0.pkg k

/-- HOLD_EXPIRED of link `k`. -/
def Chip.holdExpired (c : Chip) (k : Nat) : Chip :=
  let l := c.link k
  if l.resumable && l.phase != .up then
    let c := c.expire k
    c.updLink k (fun l => if l.phase = .holding then { l with phase := .whistle } else l)
  else c

/-! ### Channels (R729) -/

/-- The port tiles of pasture `p` in this package whose V output has a drove list, in image order. -/
def Chip.vOuts (c : Chip) (p : Nat) : List Nat :=
  ((c.past p).tiles.filter (fun e => tileKind e.tile.val == .port && (nth Slot.empty (c.tile e.key).rt.slots e.slot.val).bindOut.getLsbD 5)).map (fun e => e.key)

/-- The links by which traffic of pasture `p` enters and leaves this package. -/
def Chip.spanLinks (c : Chip) (p : Nat) : List Nat × List Nat :=
  let l := ((c.past p).pkgMap.map (fun b => b.toNat)).eraseDups
  let paths := l.flatMap (fun a => l.flatMap (fun b => if a = b then [] else (c.pathOf 32 a b).getD []))
  let outs := (paths.filter (fun h => h.1 == c.pkg)).map (fun h => h.2)
  let ins := (paths.map (fun h => c.otherEnd h.1 h.2)).filter (fun h => h.1 == c.pkg) |>.map (fun h => h.2)
  (ins.eraseDups, outs.eraseDups)

/-- The Shepherd sets the channels of pasture `p`: channel i of a direction out is the i-th V output of this package, and
channel i of a direction in feeds the i-th port tile whose slot takes messages from V (assumption 36). -/
def Chip.setChannels (c : Chip) (p : Nat) : Chip :=
  let q : PastureId := Fin.ofNat 1024 p
  let s := c.spanLinks p
  let outs := c.vOuts p
  let ins := (upto 4).flatMap (fun d => (c.vTiles p d).map (fun t => tileKey d t))
  let c := s.2.foldl (fun c k => c.updLink k (fun l => { l with
    txChannels := l.txChannels ++ (upto (min 64 (max 1 outs.length))).map (fun i => (q, i)) })) c
  let c := s.1.foldl (fun c k => c.updLink k (fun l => { l with
    rxChannels := l.rxChannels ++ (if ins.isEmpty then [(q, 0, 0, 5)] else (upto (min 64 ins.length)).map (fun i => (q, i, nth 0 ins i, 5))) })) c
  ins.foldl (fun c key => c.updTile key (fun t => { t with rt := { t.rt with vfeed := { t.rt.vfeed with
    closes := some (t.rt.vfeed.closes.getD 0) } } })) c

/-- Channels of pastures that are no longer here go; a pasture that spans packages and has none gets its own. -/
def Chip.keepChannels (c : Chip) : Chip :=
  let live (p : PastureId) : Bool := (c.past p.val).resident
  let keep (l : Link) : Link :=
    { l with rxChannels := l.rxChannels.filter (fun e => live e.1), txChannels := l.txChannels.filter (fun e => live e.1) }
  let c : Chip := { c with links := c.links.map keep }
  let need := c.residents.filter (fun p => (c.past p).spans && !(c.links.any (fun l => l.rxChannels.any (fun e => e.1.val == p)
    || l.txChannels.any (fun e => e.1.val == p))))
  need.foldl (fun c p => c.setChannels p) c

/-- A close of a V output of pasture `p` on port tile `key` goes out on its channels (R729). -/
def Chip.closeOut (c : Chip) (p key : Nat) : Chip :=
  match (upto 64).find? (fun i => (nth 4096 (c.vOuts p) i) == key) with
  | none => c
  | some i => (upto 6).foldl (fun c k =>
      if (c.link k).txChannels.any (fun e => e.1.val == p && e.2 == i) then c.sendItem k 1 p i 0 false false else c) c

/-! ### The exchange of a pasture that spans packages (R736) -/

/-- What this package owes its parent: VOTE_REPORT, MUSTER_ARRIVE, or the news that an event waits for a round that is being
skipped (assumption 37). -/
def Chip.spanStep (c : Chip) (p : Nat) : Chip :=
  let x := c.past p
  match c.parentLink x with
  | none => c
  | some l =>
    let waits := c.streamWaits p || !x.inject.isEmpty
    if c.voteDecided p && !x.span.sentVote && c.childrenIn x x.span.votes then
      let own := x.tiles.any (fun t => tilePending (c.tile t.key) t.core p) || x.span.votes.any (fun v => v.2)
      (c.sendItem l 4 p 0 x.round.toNat false own).updPast p (fun x => { x with span := { x.span with sentVote := true } })
    else if c.allArrived p && !x.span.sentArrive && c.childrenIn x x.span.arrives then
      let busy := x.tiles.any (fun t => t.busy) || x.span.arrives.any (fun a => a.2) || waits
      (c.sendItem l 2 p 0 x.round.toNat false busy).updPast p (fun x => { x with span := { x.span with sentArrive := true } })
    else if !x.inRound && waits && !x.span.woke && (x.parked || x.span.done.isNone && x.span.sentArrive) then
      (c.sendItem l 2 p 0 (x.round - 1).toNat false true).updPast p (fun x => { x with span := { x.span with woke := true } })
    else c

/-- Every pasture that spans packages. -/
def Chip.spanSteps (c : Chip) : Chip :=
  (c.residents.filter (fun p => (c.past p).spans)).foldl (fun c p => c.spanStep p) c

/-! ### LINK frames (R738–R743) -/

/-- A HELLO put on the line (R739). -/
def Chip.sendHello (c : Chip) (k : Nat) : Chip :=
  c.updLink k (fun l => { (l.emit 2 0 0 0 (c.helloOf k 0).body).1 with sentSeen := l.sentSeen || l.peerSeen })

/-- The link enters UP (R738, R741). -/
def Chip.linkUp (c : Chip) (k : Nat) : Chip :=
  ((c.updLink k (fun l => { l with phase := .up, resumable := true })).raise (lkPage k) 1).ownNotice k true

/-- Both ends start fresh (R741). -/
def Link.fresh (l : Link) (epoch : Nat) : Link :=
  { Link.init with
    phase := l.phase, epoch := BitVec.ofNat 16 epoch, peerPkg := l.peerPkg, peerPort := l.peerPort, peerSeen := true
    sentSeen := l.sentSeen, rxChannels := l.rxChannels, txChannels := l.txChannels, wire := l.wire
    classes := l.classes.map (fun q => { LinkClass.init with txq := q.txq }) }

/-- The partner's identity and mode are the right ones (R740). -/
def Chip.peerRight (c : Chip) (k : Nat) (h : LinkHello) : Bool :=
  let o := c.otherEnd c.pkg k
  h.pkg == o.1 && h.port == o.2 && h.dims == c.torusDim % 4096 && h.mode == (c.helloOf k 0).mode

/-- A valid HELLO from the partner of link `k`. -/
def Chip.takeHello (c : Chip) (k : Nat) (h : LinkHello) : Chip :=
  let l := c.link k
  if l.phase = .off || l.phase = .up then c
  else
    let c := c.updLink k (fun l => { l with peerSeen := true, peerPkg := BitVec.ofNat 8 h.pkg, peerPort := BitVec.ofNat 3 h.port })
    let c := c.sendHello k
    if !h.peerSeen then c
    else if !(h.locked && (c.page pgLINK).lock) then
      if l.phase = .ctrlOnly then c
      else (c.updLink k (fun l => { l.fresh (max l.epoch.toNat h.epoch + 1) with phase := .ctrlOnly })).raise (lkPage k) 1
    else if !c.peerRight k h then c.raise (lkPage k) 7
    else if l.resumable && l.epoch.toNat = h.epoch then
      let c := c.updLink k (fun l => l.free (BitVec.ofNat 12 h.rxExpect))
      let c := c.linkUp k
      let q := resend (c.link k) (c.link k).replay
      let n := q.2.length
      (c.putLink k { q.1 with replay := q.2, replaying := none }).countWrap (lkPage k) 0x120 n
    else
      let c := if l.resumable then c.expire k else c
      (c.updLink k (fun l => l.fresh (max l.epoch.toNat h.epoch + 1))).linkUp k

/-- LEAVE from the partner: OFF at once, without LINK_HOLD (R743). -/
def Chip.takeLeave (c : Chip) (k : Nat) : Chip :=
  let l := c.link k
  if l.phase = .off then c
  else
    let c0 := c
    let c := c.putLink k { Link.init with epoch := l.epoch }
    let c := if l.phase = .up || l.phase = .holding then c.ownNotice k false else c
    Chip.linkGone c0 c c0.pkg k

/-- Bring-up of link `k` runs: whistle, training and lock, up to the exchange of LINK frames (R737, R738, R742). -/
def Chip.bringup (c : Chip) (k : Nat) : Chip :=
  let c := c.linkStart k
  let l := c.link k
  if c.held || !c.domOn (domLINK k) || !bit ((c.page (lkPage k)).rd 0x100) 0 then c
  else if l.phase = .whistle || l.phase = .holding || l.phase = .training || l.phase = .locking then
    (c.updLink k (fun l => { l with phase := .hello, peerSeen := false, sentSeen := false })).sendHello k
  else c

/-- BRINGUP_TIMEOUT: step 1 starts again (R738). -/
def Chip.bringupTimeout (c : Chip) (k : Nat) : Chip :=
  match (c.link k).phase with
  | .off | .up | .ctrlOnly => c
  | .holding => c.raise (lkPage k) 8
  | _ => (c.updLink k (fun l => { l with phase := .whistle })).raise (lkPage k) 8

/-- LINK_DOWN (R745, R750). -/
def Chip.linkDown (c : Chip) (k : Nat) : Chip :=
  match (c.link k).phase with
  | .off | .whistle | .holding => c
  | .up =>
    let c := c.updLink k (fun l => { l with phase := .holding, resumable := true, peerSeen := false, sentSeen := false })
    (c.count (lkPage k) 0x140 1).raise (lkPage k) 0
  | .ctrlOnly =>
    let c := c.updLink k (fun l => { l with phase := .whistle, peerSeen := false, sentSeen := false })
    (c.count (lkPage k) 0x140 1).raise (lkPage k) 0
  | _ => c.updLink k (fun l => { l with phase := if l.resumable then .holding else .whistle, peerSeen := false, sentSeen := false })

/-- ACK_TIMEOUT (R726): suspended while the link is not UP. -/
def Chip.ackTimeout (c : Chip) (k : Nat) : Chip :=
  let l := c.link k
  if !l.phase.sends then c
  else match l.replay with
    | [] => c
    | (s, _, _) :: _ => c.replayFrom k s

/-- An IDLE frame sent (R727): only with no DATA frame to send. -/
def Chip.idleSend (c : Chip) (k : Nat) : Chip :=
  let l := c.link k
  if !l.phase.sends then c else c.putLink k (l.emit 1 0 0 0 (slotBody [])).1

/-- A whistle sent by software (R737): the LINK domain must be ON; it leaves nothing on the line but the pattern. -/
def Chip.whistle (c : Chip) (k : Nat) : Chip :=
  if !c.domOn (domLINK k) then c
  else c.updLink k (fun l => if l.phase.sends then l else { l with wire := [] })

/-! ### A frame arrives (R724, R725, R739, R752) -/

/-- A frame that reaches the end of link `k`, whatever its type says. -/
def Chip.frameIn (c : Chip) (k : Nat) (f : List Byte) (corr uncorr : Nat) : Chip :=
  let l := c.link k
  if c.held || l.phase = .off || l.phase = .whistle then c
  else
    let c := c.fec k corr uncorr
    if !frameOk f then
      let c := (c.count (lkPage k) 0x128 1).raise (lkPage k) 4
      if l.phase.sends then c.owesNak k else c
    else
      let h := FrameHdr.of f
      if h.type = 2 then
        match LinkHello.of f with
        | none => c
        | some g => if g.subtype = 0 then c.takeHello k g else if g.subtype = 1 then c.takeLeave k else c
      else if !l.phase.sends || h.type = 3 then c
      else
        let c := c.takeHeader k h
        if h.type = 1 then c
        else if BitVec.ofNat 12 h.seq ≠ (c.link k).rxSeq then (c.count (lkPage k) 0x12C 1).owesNak k
        else c.acceptFrame k h f

end Sys2Proof.Machine
end

