-- ==== Sys2Proof/Machine/RegWrite.lean ====
section
/-! DEFINITION. Register accesses: where an address leads, who may make the access, what a write does, and the accesses
that come by the BARs, as messages and through the machine window (R18–R25, R49, R100, R120–R127, R652, R654, R797, R883–R914,
and the register pages of every chapter). -/

namespace Sys2Proof.Machine

/-! ### Places and permissions -/

/-- Where a package-view address leads (R883–R886). -/
inductive RegPlace
  | base (n off : Nat)
  | tile (k j off : Nat)
  | absent
  deriving DecidableEq, Repr

/-- The place of address `a`. -/
def regPlace (a : Nat) : RegPlace :=
  if a < 0x800000 then (if baseCode (a / 4096) = 0 then .absent else .base (a / 4096) (a % 4096))
  else if a < 0x1000000 then .absent
  else
    let b := a - 0x1000000
    let k := tileKey (b / 0x400000 % 4) (b / 0x4000 % 256)
    let j := b / 0x1000 % 4
    if j = 2 && tileKind (k % 256) = .port then .absent else .tile k j (b % 0x1000)

/-- The package-view address of a tile page's register. -/
def tileAddr (k j off : Nat) : Nat := 0x1000000 + k / 256 * 0x400000 + k % 256 * 0x4000 + j * 0x1000 + off

/-- Class `cls` may write a field restricted to `w` (R797). -/
def WriteClass.permits (w : WriteClass) (cls : Nat) : Bool :=
  match w with
  | .any => cls == 0 || cls == 2 || cls == 3 || cls == 4
  | .internal => cls == 0
  | .operator => cls == 3
  | .operatorInternal => cls == 0 || cls == 3
  | .hostOperator => cls == 2 || cls == 3
  | .test => cls == 4

/-- Class `cls` may reach base-die page `n` at all (R641, R797). -/
def Chip.pageOpen (c : Chip) (n cls : Nat) : Bool :=
  n == pgIDENT || (cls != 1 && (!c.recovery || cls == 0 || [pgCROOK, pgAUTH].contains n))

/-- The blocks of base-die page `n` lie in CONTROL, whose registers an access wakes (R595, R899). -/
def inControl (n : Nat) : Bool := heldIn n == domCONTROL

/-! ### The common header (R887–R898, R907) -/

/-- A refused access to a tile page (R25, R912). -/
def Chip.refuseTile (c : Chip) (k j addr cls : Nat) : Chip :=
  (c.updTile k (fun t => t.setPage j ((t.pageAt j).refuse addr cls))).count pgAUTH 0x140 1

/-- FAULT_CLEAR and CE_CLEAR of a BLK_CTRL value. -/
def Page.ctrl (p : Page) (v : Nat) : Page :=
  let p := if bit v 1 then { p with fault := 0, further := 0, fclass := 0, faddr := 0, refused := false } else p
  if bit v 2 then { p with ce := 0 } else p

/-- A write of the common header other than LOCK: the page after it, and whether the access is refused. -/
def Page.header (p : Page) (off v cls : Nat) : Page × Bool :=
  let m := BitVec.ofNat 32 (eventMask p.code)
  let w := BitVec.ofNat 32 v
  if off = 0x00C then (p.ctrl v, bit v 0 && !WriteClass.operatorInternal.permits cls)
  else if off = 0x014 then ({ p with ev := p.ev &&& ~~~w }, false)
  else if off = 0x018 then ({ p with en := w &&& m }, false)
  else if off = 0x01C then
    if cls = 4 then ({ p with ev := p.ev ||| (w &&& m) }, false) else (p, true)
  else (p, false)

/-- The pages that a LOCK of base-die page `n` locks: the six LINK pages share one lock (R891). -/
def lockedWith (n : Nat) : List Nat := if pgLINK ≤ n && n < pgLINK + 6 then (upto 6).map (fun i => pgLINK + i) else [n]

/-- DISAGREE stays raised while an entry remains (R869). -/
def Chip.keepDisagree (c : Chip) : Chip := if c.disagree.any (fun d => d.isSome) then c.raise pgHEALTH 2 else c

/-- A write of the common header of base-die page `n`. -/
def Chip.writeHeader (c : Chip) (n off v cls : Nat) : Chip :=
  let r := (c.page n).header off v cls
  let c := (c.putPage n r.1).keepDisagree
  if r.2 then c.refuse n (n * 4096 + off) cls
  else if off = 0x00C && bit v 0 then (lockedWith n).foldl (fun c i => c.updPage i (fun p => { p with lock := true })) c
  else c

/-! ### COUNT_CLEAR -/

/-- The counters that a COUNT_CLEAR value of a page clears. -/
def Page.clearCounts (p : Page) (off v : Nat) : Page :=
  match countClearBase p.code off with
  | none => p
  | some (b, n) => (upto n).foldl (fun p i => if bit v i then p.wr (b + 4 * i) 0 else p) p

/-- Whether `off` of a page of code `code` is a COUNT_CLEAR register. -/
def isCountClear (code off : Nat) : Bool :=
  (countClearBase code off).isSome || (off == 0x17C && [codeSTREAM, codeXFER, codeWAKE].contains code)

/-- A COUNT_CLEAR write of base-die page `n`, with what the pages' own tables add (R340, R384, R387, R615, R715). -/
def Chip.clearCounts (c : Chip) (n off v : Nat) : Chip :=
  let code := baseCode n
  let c := c.updPage n (fun p => p.clearCounts off v)
  if code = codeMUSTER then
    if bit v 2 then c.updPast ((c.page pgMUSTER).rd 0x120 % 1024) (fun x => { x with overruns := 0, skippedTotal := 0 }) else c
  else if code = codeANNEAL then
    if bit v 0 then
      let i := (c.page pgANNEAL).rd 0x100 % 64
      let l := c.ladder i
      c.putLadder i { l with rungs := l.rungs.map (fun r => { r with tried := 0, swapped := 0 }) }
    else c
  else if code = codeXFER then
    c.updPage n (fun p =>
      let p := if bit v 0 then (p.wr 0x120 0).wr 0x124 0 else p
      if bit v 1 then p.wr 0x128 0 else p)
  else if code = codeWAKE then
    let c : Chip := if bit v 0 then { c with wakeCounts := [] } else c
    if bit v 1 then c.updPage n (fun p => p.wr 0x11C 0) else c
  else if code = codeSTREAM then
    c.updStream ((c.page pgSTREAM).rd 0x100 % 32) (fun s =>
      { s with
        cntRx := if bit v 0 then 0 else s.cntRx, cntEntered := if bit v 1 then 0 else s.cntEntered
        cntDrop := if bit v 2 then 0 else s.cntDrop, cntUnmapped := if bit v 3 then 0 else s.cntUnmapped
        cntRange := if bit v 4 then 0 else s.cntRange, cntMalformed := if bit v 5 then 0 else s.cntMalformed
        cntStopped := if bit v 6 then 0 else s.cntStopped, cntUe := if bit v 7 then 0 else s.cntUe
        high := if bit v 8 then 0 else s.high })
  else c

/-! ### Writes of the block-specific registers, page by page -/

/-- A 64-bit register with its low or its high half replaced. -/
def lowHalf (w : W64) (v : Nat) : W64 := BitVec.ofNat 64 (w.toNat / 2 ^ 32 * 2 ^ 32 + v)
def highHalf (w : W64) (v : Nat) : W64 := BitVec.ofNat 64 (w.toNat % 2 ^ 32 + v * 2 ^ 32)

/-- A write whose value the register does not take: no effect, and BLK_FAULT records BAD_OPERAND. -/
def Chip.badValue (c : Chip) (n off cls : Nat) : Chip := c.fault n stBAD_OPERAND (n * 4096 + off) cls

/-- Both log2 ring sizes lie in 6–16, or `v` is within `lo`–`hi`. -/
def within (lo hi v : Nat) : Bool := decide (lo ≤ v) && decide (v ≤ hi)

/-- SHEP (R357, R380–R382). -/
def Chip.writeShep (c : Chip) (off v cls : Nat) : Chip :=
  let q := c.ctxSel
  let x := c.ctx q
  let bad := c.badValue pgSHEP off cls
  let set (f : Ctx → Ctx) : Chip := if x.state = .disabled then c.updCtx q f else c
  if off = 0x108 then c.ctxCtrl q v cls
  else if off < 0x10C || 0x130 < off then c.updPage pgSHEP (fun p => p.wr off v)
  else if q = 4095 && cls ≠ 0 then c.refuse pgSHEP (pgSHEP * 4096 + off) cls
  else match off with
    | 0x10C => set (fun x => { x with ring := lowHalf x.ring v })
    | 0x110 => set (fun x => { x with ring := highHalf x.ring v })
    | 0x114 =>
      if within 6 16 (bits v 4 0) && within 6 16 (bits v 12 8) then
        set (fun x => { x with logSq := BitVec.ofNat 5 (bits v 4 0), logCq := BitVec.ofNat 5 (bits v 12 8) })
      else bad
    | 0x118 => set (fun x => { x with cqRing := lowHalf x.cqRing v })
    | 0x11C => set (fun x => { x with cqRing := highHalf x.cqRing v })
    | 0x120 => set (fun x => { x with shadow := lowHalf x.shadow v })
    | 0x124 => set (fun x => { x with shadow := highHalf x.shadow v })
    | 0x128 =>
      if bits v 15 8 = 0 || !within 1 512 (bits v 25 16) then bad
      else set (fun x => { x with priority := BitVec.ofNat 3 v, weight := BitVec.ofNat 8 (v / 2 ^ 8), inflight := BitVec.ofNat 10 (v / 2 ^ 16) })
    | 0x12C => set (fun x => { x with vector := BitVec.ofNat 11 v, modCount := BitVec.ofNat 8 (v / 2 ^ 11)
                                      modDelay := BitVec.ofNat 10 (v / 2 ^ 19), irqEn := bit v 31 })
    | _ => c.updCtx q (fun x => { x with seqNext := BitVec.ofNat 16 v })

/-- MUSTER: OBJ_CFG clears the object's state; OBJ_OP comes from no pasture, so an OWNED object refuses it (R363–R365, R384). -/
def Chip.writeMuster (c : Chip) (off v : Nat) : Chip :=
  let o := (c.page pgMUSTER).rd 0x100 % 16384
  if off = 0x104 then
    (c.putObj o { objInit (bits v 1 0) 0 (if bit v 31 then some (bits v 25 16) else none) with owner := Fin.ofNat 1024 (bits v 25 16) }).recheck
  else if off = 0x110 then
    if (c.obj o).owned || 1 < bits v 1 0 then c.objRefuse else c.objOp o (bits v 1 0) (sext 16 (bits v 31 16))
  else c.updPage pgMUSTER (fun p => p.wr off v)

/-- PLACE: the page area stays as it is while a page image lies in it (R472, R492). -/
def Chip.writePlace (c : Chip) (off v cls : Nat) : Chip :=
  if off ≤ 0x108 then
    if off = 0x108 && 1048576 < v then c.badValue pgPLACE off cls
    else if !c.areaUsed.isEmpty then c
    else c.updPage pgPLACE (fun p => p.wr off v)
  else c.updPage pgPLACE (fun p => p.wr off v)

/-- A partial digest from another package (R838). -/
def Chip.digestIn (c : Chip) (cls v0 v1 v2 v3 : Nat) : Chip :=
  let a := pgHEALTH * 4096 + 0x1B0
  let x := c.past (v0 % 1024)
  if cls ≠ 0 then c.refuse pgHEALTH a cls
  else if x.presence = .free || x.imgPkg ≠ 0 || !c.isRoot x then c.fault pgHEALTH stBAD_OPERAND a cls
  else if x.digestRound.toNat ≠ 0 && subMod (2 ^ 32) x.digestRound.toNat v1 < 2 ^ 31 then c.fault pgHEALTH stBAD_OPERAND a cls
  else c.updPast (v0 % 1024) (fun x => x.addPartial (bits v0 23 16) v1 (BitVec.ofNat 64 (v2 + v3 * 2 ^ 32)))

/-- UNIT_CMD; `fails` holds the tests of RETURN that fail (R863, R869), free where the access does not say them (assumption
38). -/
def Chip.unitCmd (c : Chip) (v : Nat) (fails : Option Nat) : Chip :=
  if v = 1 then
    match fails with
    | some f => c.unitReturn f
    | none => let r := c.drawFree; r.1.unitReturn (Config.freeTest r.2).toNat
  else if v = 2 then c.reconcileUnit.keepDisagree
  else c.updPage pgHEALTH (fun p => p.wr 0x114 stBAD_OPERAND)

/-- A write of a ring's configuration word `v` over `old` (R664, R681, R840, R881): with EN set its size stays, and EN needs a
size of 6–16. -/
def ringCfgBad (old v : Nat) : Bool :=
  (bit old 31 && bits old 4 0 != bits v 4 0) || (bit v 31 && !within 6 16 (bits v 4 0))

/-- HEALTH (R838, R840, R863, R869, R872, R881). -/
def Chip.writeHealth (c : Chip) (off v cls : Nat) (fails : Option Nat) : Chip :=
  let pg := c.page pgHEALTH
  let bad := c.badValue pgHEALTH off cls
  let put := c.updPage pgHEALTH (fun p => p.wr off v)
  let en := bit (pg.rd 0x168) 31
  match off with
  | 0x110 => c.unitCmd v fails
  | 0x120 => if within 1 168 v then put else bad
  | 0x124 => if within 10 1440 v then put else bad
  | 0x128 => if within 1 31 v then put else bad
  | 0x12C => if within 1 168 v then put else bad
  | 0x144 =>
    if within 1 16384 (v / 2 ^ 12) then
      c.updPast (pg.rd 0x140 % 1024) (fun x => { x with logEnable := bit v 0, autoRestart := bit v 1, digestCap := BitVec.ofNat 16 (v / 2 ^ 12) })
    else bad
  | 0x160 => if en then bad else put
  | 0x164 => if en then bad else put
  | 0x168 =>
    if ringCfgBad (pg.rd 0x168) v then bad
    else if bit v 31 && !en then put.updPage pgHEALTH (fun p => (p.wr 0x16C 0).wr 0x170 0) else put
  | 0x170 => c.traceCi v
  | _ => if 0x1B0 ≤ off && off ≤ 0x1BC then bad else put

/-- The scrub, shear and burst registers of a bank at BANK offset `off` keep the ranges of R537 (R546). -/
def bankValueOk (off v : Nat) : Bool :=
  if off = 0x104 then within 1 1440 (bits v 26 16) else if off = 0x10C then within 1 60000 (bits v 31 16)
  else if off = 0x114 then within 1 65535 v else true

/-- COMMONS (R304, R546, R547). -/
def Chip.writeCommons (c : Chip) (off v cls : Nat) : Chip :=
  let w := BitVec.ofNat 32 v
  if off = 0x2F0 then c.updPage pgCOMMONS (fun p => { p with ev2 := p.ev2 &&& ~~~w })
  else if off = 0x2F4 then c.updPage pgCOMMONS (fun p => { p with en2 := w })
  else if 0x200 ≤ off && !bankValueOk (off - 0x100) v then c.badValue pgCOMMONS off cls
  else if off = 0x100 && v = 0 then { c.updPage pgCOMMONS (fun p => p.wr off v) with merge := [] }
  else c.updPage pgCOMMONS (fun p => p.wr off v)

/-- HOME_PKG: only while no context is ACTIVE or STOPPING (R768), and a package of the machine; the change is audited (R816). -/
def Chip.writeHome (c : Chip) (v cls : Nat) : Chip :=
  if c.ctxs.any (fun x => x.1 != 4095 && (x.2.state == .active || x.2.state == .stopping)) || c.machineSize ≤ v then c
  else
    let r := c.audit 12 cls stOK (natLe 4 (pgGATE * 4096 + 0x10C) ++ natLe 4 c.homePkg ++ natLe 4 v)
    if r.2 then r.1.updPage pgGATE (fun p => p.wr 0x10C v) else r.1

/-- GATE (R655, R664, R681). -/
def Chip.writeGate (c : Chip) (off v cls : Nat) : Chip :=
  let pg := c.page pgGATE
  let i := pg.rd 0x120 % 64
  let r := c.ering i
  let bad := c.badValue pgGATE off cls
  match off with
  | 0x10C => c.writeHome v cls
  | 0x11C => c.remoteDb (BitVec.ofNat 32 v)
  | 0x124 => if r.en then bad else c.putEring i { r with base := lowHalf r.base v }
  | 0x128 => if r.en then bad else c.putEring i { r with base := highHalf r.base v }
  | 0x12C =>
    if ringCfgBad (r.logSize.toNat + b2n r.en * 2 ^ 31) v then bad
    else
      let s := { r with logSize := BitVec.ofNat 5 v, vector := BitVec.ofNat 11 (v / 2 ^ 16), vecEn := bit v 30, en := bit v 31 }
      c.putEring i (if s.en && !r.en then { s with pi := 0, ci := 0 } else s)
  | 0x134 => c.eringCi i (BitVec.ofNat 32 v)
  | _ => c.updPage pgGATE (fun p => p.wr off v)

/-- TORUS_DIM and TORUS_POS, audited (R731, R754, R816). -/
def Chip.writeTorus (c : Chip) (off v cls : Nat) : Chip :=
  let r := c.audit 12 cls stOK (natLe 4 (pgLINK * 4096 + off) ++ natLe 4 ((c.page pgLINK).rd off) ++ natLe 4 v)
  if r.2 then r.1.updPage pgLINK (fun p => p.wr off v) else r.1

/-- LINK0–LINK5 (R731, R736, R738, R744, R754). -/
def Chip.writeLink (c : Chip) (k off v cls : Nat) : Chip :=
  let n := pgLINK + k
  let bad := c.badValue n off cls
  let put := c.updPage n (fun p => p.wr off v)
  let dim (i : Nat) : Nat := bits v (4 * i + 3) (4 * i)
  match off with
  | 0x100 =>
    if bit v 0 then put.linkStart k
    else put.updLink k (fun l => if l.phase == .whistle || l.phase == .training || l.phase == .locking || l.phase == .hello then { l with phase := .off } else l)
  | 0x108 => if within 1 1000 (bits v 15 0) && within 10 1000 (bits v 31 16) then put else bad
  | 0x10C =>
    if !within 10 255 (bits v 15 8) then bad
    else
      let c := c.updPage n (fun p => p.wr off (v / 2 * 2))
      if bit v 0 then c.whistle k else c
  | 0x180 =>
    if [0, 1, 2].all (fun i => within 1 8 (dim i)) && dim 0 * dim 1 * dim 2 ≤ 256 then c.writeTorus off v cls else bad
  | 0x184 => c.writeTorus off v cls
  | 0x188 => c.updPage pgLINK (fun p => p.wr off v)
  | _ => put

/-- POWER (R584, R590, R591, R603, R611). -/
def Chip.writePower (c : Chip) (off v cls : Nat) : Chip :=
  let bad := c.badValue pgPOWER off cls
  let put := c.updPage pgPOWER (fun p => p.wr off v)
  let n := (c.page pgPOWER).rd 0x100 % 1024
  match off with
  | 0x108 =>
    match domOf v with
    | some s => if domKind n = .nothing then bad
        else c.askDomain n { target := s, asker := .register, origin := (originOf cls).getD .internal }
    | none => if domKind n = .nothing then bad else c.updDom n (fun d => { d with lastStatus := BitVec.ofNat 8 stBAD_OPERAND })
  | 0x10C => if within 10 100000 v then put else bad
  | 0x110 => put.autoOff
  | 0x114 => if within 10 65535 (bits v 15 0) && within 10 65535 (bits v 31 16) then put else bad
  | 0x120 => if v = 0 || within 10 300 v then put else bad
  | _ => put

/-- PADS (R597, R613). -/
def Chip.writePads (c : Chip) (off v cls : Nat) : Chip :=
  if off = 0x100 then c.padsRelease v cls
  else
    let g := (off - 0x120) / 4
    let l := nth Latch.init c.latches g
    if l.latched then { c with latches := listSet c.latches g { l with value := bit v 0, enable := bit v 1 } } else c

/-- WAKE (R599, R615). -/
def Chip.writeWake (c : Chip) (off v : Nat) : Chip :=
  if off = 0x114 then
    let s := (c.page pgWAKE).rd 0x110
    { c with routes := mapSet (fun _ => (0 : W32)) c.routes (8 * (s % 16) + s / 16 % 8) (BitVec.ofNat 32 v) }
  else c.updPage pgWAKE (fun p => p.wr off v)

/-- RTC: a new alarm value has not fired (R602, R617); a load of TIME is audited (R816). -/
def Chip.writeRtc (c : Chip) (off v cls : Nat) : Chip :=
  let r := c.rtc
  match off with
  | 0x118 =>
    if !bit v 0 then c
    else
      let p := c.page pgRTC
      let a := c.audit 10 cls stOK (natLe 8 r.time.toNat ++ natLe 8 (p.rd 0x110 + p.rd 0x114 * 2 ^ 32))
      if a.2 then a.1.loadTime else a.1
  | 0x120 => { c with rtc := { r with alarm0 := lowHalf r.alarm0 v, fired0 := false } }
  | 0x124 => { c with rtc := { r with alarm0 := highHalf r.alarm0 v, fired0 := false } }
  | 0x128 => { c with rtc := { r with alarm1 := lowHalf r.alarm1 v, fired1 := false } }
  | 0x12C => { c with rtc := { r with alarm1 := highHalf r.alarm1 v, fired1 := false } }
  | _ => c.updPage pgRTC (fun p => p.wr off v)

/-- The thresholds keep the ranges of R568, taken together as they would stand. -/
def thermOk (start hold resume hyst : Nat) : Bool :=
  within 60 100 start && within (start + 1) 110 hold && within 60 (hold - 1) resume && within 1 5 hyst

/-- Die `d` leaves TRIP (R567): its T_d is below RESUME_TEMP and its own sensors are below 110 °C. -/
def Chip.tripClear (c : Chip) (d : Nat) : Chip :=
  let cool := match (c.die d).temp with | some t => decide (t < 4 * (c.resumeTemp : Int)) | none => false
  let own (i : Nat) : Bool :=
    let s := (c.page (pgDIE + d)).rd (0x120 + 4 * i)
    !bit s 15 || decide (sext 12 s < 440)
  if (c.die d).state != .tripped || !cool || !(upto 4).all own then c
  else
    let b := c.activeProfile
    let c := (c.updDie d (fun r => { r with state := .off, thermal := .normal })).dieRaise d b
    { c with thermTrip := c.dies.any (fun r => r.state == .tripped) }

/-- THERM (R567, R568, R576). -/
def Chip.writeTherm (c : Chip) (off v cls : Nat) : Chip :=
  if off = 0x170 then (upto 4).foldl (fun c d => if bit v d then c.tripClear d else c) c
  else
    let p := (c.page pgTHERM).wr off v
    if thermOk (p.rd 0x140) (p.rd 0x144) (p.rd 0x148) (p.rd 0x150) then c.putPage pgTHERM p else c.badValue pgTHERM off cls

/-- STACK: LANE_CHECK and LANE_CE_LIMIT keep the ranges of R568 (R556, R574). -/
def Chip.writeStack (c : Chip) (off v cls : Nat) : Chip :=
  if (off = 0x108 && !within 10 10000 (bits v 29 16)) || (off = 0x10C && v = 0) then c.badValue pgSTACK off cls
  else c.updPage pgSTACK (fun p => p.wr off v)

/-- The debug lock closes; `cause` is 1 for expiry, 2 for a frame, 3 for the register, 4 for a reset (R813, R816). -/
def Chip.debugClose (c : Chip) (cause cls : Nat) : Chip :=
  if !c.dbgLock.isOpen then c
  else ({ c with dbgLock := { c.dbgLock with isOpen := false } }.raise pgAUTH 1 |>.audit 9 cls stOK (natLe 4 cause)).1

/-- The 64 words of MBOX_REQ as bytes. -/
def Chip.mboxRequest (c : Chip) : List Byte := (upto 64).flatMap (fun i => natLe 4 ((c.page pgCROOK).rd (0x200 + 4 * i)))

/-- MBOX_CTRL.TAKE: the shown response is discarded (R829). -/
def Chip.mboxTake (c : Chip) : Chip := { c with crook := { c.crook with mbox := c.crook.mbox.drop 1 } }

/-- CROOK: SEND hands the request over, unless one is busy; it is served as the responses have room (R800, R829). -/
def Chip.writeCrook (c : Chip) (off v : Nat) : Chip :=
  if off = 0x120 then
    let c := if bit v 1 then c.mboxTake else c
    if bit v 0 && c.crook.mboxHeld.isNone then
      let f := c.mboxRequest
      { c with crook := { c.crook with mboxHeld := some f, frames := c.crook.frames ++ [(Transport.mailbox, f)] } }
    else c
  else c.updPage pgCROOK (fun p => p.wr off v)

/-- AUTH: DBG_WIN_SEL only while the lock is open (R831). -/
def Chip.writeAuth (c : Chip) (off v cls : Nat) : Chip :=
  if off = 0x124 then (if bit v 0 then c.debugClose 3 cls else c)
  else if off = 0x120 && !c.dbgLock.isOpen then c
  else c.updPage pgAUTH (fun p => p.wr off v)

/-- A write that passed its checks: register `off` of base-die page `n` takes `v`. `fails` holds what tests that the write
starts find (R863). -/
def Chip.writeReg (c : Chip) (n off v cls : Nat) (fails : Option Nat) : Chip :=
  let code := baseCode n
  if isCountClear code off then c.clearCounts n off v
  else if code = codeSHEP then c.writeShep off v cls else if code = codeMUSTER then c.writeMuster off v
  else if code = codePLACE then c.writePlace off v cls else if code = codeHEALTH then c.writeHealth off v cls fails
  else if code = codeCOMMONS then c.writeCommons off v cls else if code = codeGATE then c.writeGate off v cls
  else if code = codeNVS then (if off = 0x120 then (if bit v 0 then c.shelterStart else c) else c.updPage n (fun p => p.wr off v))
  else if code = codeLINK then c.writeLink (n - pgLINK) off v cls else if code = codePOWER then c.writePower off v cls
  else if code = codePADS then c.writePads off v cls else if code = codeWAKE then c.writeWake off v
  else if code = codeRTC then c.writeRtc off v cls else if code = codeTHERM then c.writeTherm off v cls
  else if code = codeSTACK then c.writeStack off v cls
  else if code = codePROFILE then c.resetReq v cls
  else if code = codeCROOK then c.writeCrook off v else if code = codeAUTH then c.writeAuth off v cls
  else if code = codeCSI then (if v = 1 || v = 2 || v = 4 then c.updPage n (fun p => p.wr off v) else c)
  else c.updPage n (fun p => p.wr off v)

/-- A write of value `v` by class `cls` to offset `off` of base-die page `n`. -/
def Chip.writeBase (c : Chip) (n off v cls : Nat) (fails : Option Nat) : Chip :=
  if baseCode n = codeIDENT then c
  else if !c.pageOpen n cls then c.refuse n (n * 4096 + off) cls
  else
    let c := if inControl n then c.wakeControl else c
    if off < 0x100 then c.writeHeader n off v cls
    else match (regsOf (baseCode n)).find? (fun r => r.off == off && r.acc != .ro) with
      | none => c
      | some r =>
        if !r.cls.permits cls then c.refuse n (n * 4096 + off) cls
        else if r.acc = .rwl && (c.page n).lock then c
        else c.writeReg n off (v &&& r.mask) cls fails

/-! ### Tile pages (R188–R193, R546, R899, R911) -/

/-- Why page `j` of tile `k` cannot serve an access to `off`; none when it can, its domains waking from RETAIN. -/
def Chip.tileServe (c : Chip) (k j off addr cls : Nat) : Chip × Option Nat :=
  if (c.die (k / 256)).state = .dead then (c, some stFENCED)
  else if c.routerDom k = .off then (c, some stASLEEP)
  else
    let c := if c.routerDom k = .retain then c.setRouterDom k .on else c
    let core := j = 1 && 0x100 ≤ off && tileKind (k % 256) != .port
    if core && c.coreDom k = .off then
      (c.updTile k (fun t => t.setPage j ((t.pageAt j).record stASLEEP addr cls)), some stASLEEP)
    else if core && c.coreDom k = .retain then (c.setCoreDom k .on, none)
    else (c, none)

/-- SNAP_CTRL of tile `k` (R192): TAKE, then THAW, which a stalled pasture whose stall map is unread does not take. -/
def Chip.snapCtrl (c : Chip) (k v : Nat) : Chip :=
  let c := if bit v 0 then
      let m := c.snapshot k
      c.updTile k (fun t => { t with dbg := { t.dbg with frozen := true, snap := m } })
    else c
  let kept := match c.shownPast k with | some p => (c.past p).stalled && !(c.past p).stallMapRead | none => false
  if bit v 2 && !kept then c.updTile k (fun t => { t with dbg := { t.dbg with frozen := false, snap := [] } }) else c

/-- HW_CLEAR of tile `k`: high-water marks return to the present occupancy, OUTWAIT to 0 (R191). -/
def Chip.hwClear (c : Chip) (k : Nat) : Chip :=
  c.updTile k (fun t =>
    let occ : List Nat := [t.q.axon.length, outFlits t.q, t.q.foldCount, (t.q.data.map (fun m => m.length)).sum, t.q.command.length, t.q.sync.length]
    { t with q := { t.q with high := occ.map (fun n => BitVec.ofNat 16 n), outwait := t.q.outwait.map (fun _ => 0) } })

/-- A write of value `v` to a register of page `j` of tile `k` that passed its checks. -/
def Chip.writeTileReg (c : Chip) (k j off v cls addr : Nat) : Chip :=
  let p := (c.tile k).pageAt j
  let put (f : Page → Page) : Chip := c.updTile k (fun t => t.setPage j (f (t.pageAt j)))
  if isCountClear p.code off then put (fun p => p.clearCounts off v)
  else if p.code = codeQDBG then (if off = 0x1FC then (if bit v 0 then c.hwClear k else c) else c.snapCtrl k v)
  else if p.code = codeNCORE then put (fun p => p.wr off (p.rd off - (p.rd off &&& v)))
  else if p.code = codeBANK && !bankValueOk off v then put (fun p => p.record stBAD_OPERAND addr cls)
  else put (fun p => p.wr off v)

/-- A write of value `v` by class `cls` to offset `off` of page `j` of tile `k`; the status of an access that finds its
domain unable to serve. -/
def Chip.writeTile (c : Chip) (k j off v cls : Nat) : Chip × Option Nat :=
  let addr := tileAddr k j off
  let r := c.tileServe k j off addr cls
  let c := r.1
  match r.2 with
  | some st => (c, some st)
  | none =>
    if cls = 1 || (c.recovery && cls != 0) then (c.refuseTile k j addr cls, none)
    else if off < 0x100 then
      let h := ((c.tile k).pageAt j).header off v cls
      let c := c.updTile k (fun t => t.setPage j h.1)
      if h.2 then (c.refuseTile k j addr cls, none)
      else if off = 0x00C && bit v 0 then (c.updTile k (fun t => t.setPage j { t.pageAt j with lock := true }), none)
      else (c, none)
    else match (regsOf ((c.tile k).pageAt j).code).find? (fun r => r.off == off && r.acc != .ro) with
      | none => (c, none)
      | some r => (c.writeTileReg k j off (v &&& r.mask) cls addr, none)

/-! ### One register -/

/-- Value `v` written by class `cls` to the register at address `a`; the status of an access that could not be served. -/
def Chip.writeAt (c : Chip) (a v cls : Nat) (fails : Option Nat) : Chip × Option Nat :=
  match regPlace a with
  | .absent => (c, none)
  | .base n off => (c.writeBase n off v cls fails, none)
  | .tile k j off => c.writeTile k j off v cls

/-- The side effects of a read of base-die page `n`: TIME_LO latches TIME_HI (R617). -/
def Chip.readEffect (c : Chip) (n off : Nat) : Chip :=
  if n = pgRTC && off = 0x100 then { c with rtc := { c.rtc with timeHi := BitVec.ofNat 32 (c.rtc.time.toNat / 2 ^ 32) } } else c

/-- DROVE_ADDR advances with each read of DROVE_DATA (R189). -/
def Chip.droveNext (c : Chip) (k : Nat) : Chip :=
  c.updTile k (fun t => { t with pRouter := t.pRouter.wr 0x150 ((t.pRouter.rd 0x150 + 1) % 2048) })

/-- The register at address `a` read by class `cls`: its value, or the status of an access that could not be served. -/
def Chip.readAt (c : Chip) (a cls : Nat) : Chip × Nat × Option Nat :=
  match regPlace a with
  | .absent => (c, 0, none)
  | .base n off =>
    if !c.pageOpen n cls then (c.refuse n (n * 4096 + off) cls, 0, none)
    else
      let c := if inControl n then c.wakeControl else c
      (c.readEffect n off, c.baseReg n off, none)
  | .tile k j off =>
    let r := c.tileServe k j off (tileAddr k j off) cls
    let c := r.1
    match r.2 with
    | some st => (c, 0, some st)
    | none =>
      if cls = 1 || (c.recovery && cls != 0) then (c.refuseTile k j (tileAddr k j off) cls, 0, none)
      else
        let v := c.tileReg k j off
        (if j = 0 && off = 0x154 then c.droveNext k else c, v, none)

/-- Values written to consecutive registers from address `a`, one at a time in rising order (R121); the last status. -/
def Chip.writeRun (c : Chip) (cls : Nat) (fails : Option Nat) : Nat → List Nat → Chip × Option Nat
  | _, [] => (c, none)
  | a, v :: l =>
    let r := c.writeAt a v cls fails
    let s := r.1.writeRun cls fails (a + 4) l
    (s.1, if s.2.isSome then s.2 else r.2)

/-- `n` consecutive registers from address `a` read in rising order: the values, and the last status. -/
def Chip.readRun (c : Chip) (cls : Nat) : Nat → Nat → Chip × List Nat × Option Nat
  | _, 0 => (c, [], none)
  | a, n + 1 =>
    let r := c.readAt a cls
    let s := r.1.readRun cls (a + 4) n
    (s.1, r.2.1 :: s.2.1, if s.2.2.isSome then s.2.2 else r.2.2)

/-! ### Registers by message (R120–R127, R138, R838, R971, R972) -/

/-- Why registers [a, a + 4·n) are not all in one page of the receiver (R121). -/
def regRange (a n : Nat) (base : Bool) (n0 k : Nat) : Bool :=
  a % 4 = 0 && 1 ≤ n && n ≤ 16 && a / 4096 == (a + 4 * n - 1) / 4096 &&
    (match regPlace a with
     | .base p _ => base && p == n0
     | .tile q _ _ => !base && q == k
     | .absent => !base && 0x1000000 ≤ a && tileKey ((a - 0x1000000) / 0x400000 % 4) ((a - 0x1000000) / 0x4000 % 256) == k)

/-- The second word of a DATA register write of `n` registers (R120). -/
def regShape (w2 : Nat) (ws : List Nat) : Bool :=
  bits w2 62 56 = 0 && bits w2 47 25 = 0 && 1 ≤ bits w2 55 48 && bits w2 55 48 ≤ 16 && bits w2 55 48 = ws.length && ws.all (fun w => w < 2 ^ 32)

/-- A DATA register write arrives at its target (R120, R121, R838). -/
def Chip.dataRegs (c : Chip) (hdr w2 : Nat) (ws : List Nat) : Chip :=
  let h := Hdr.of hdr
  let a := bits w2 24 0
  if 2048 ≤ h.tag then
    let n := h.tag - 2048
    if !hdrShape h || !regShape w2 ws then c.baseDiscard n .malformed hdr
    else if !c.baseNames h || !regRange a ws.length true n 0 then c.baseDiscard n .misaddressed hdr
    else if h.origin = 1 then c.baseDiscard n .unauthorised hdr
    else if n = pgHEALTH && 0x1B0 < a % 4096 + 4 * ws.length && a % 4096 ≤ 0x1BC then
      let c := c.wakeControl
      if h.origin ≠ 0 then c.refuse n a h.origin
      else if a % 4096 ≠ 0x1B0 || ws.length ≠ 4 then c.fault n stBAD_OPERAND a 0
      else c.digestIn 0 (nth 0 ws 0) (nth 0 ws 1) (nth 0 ws 2) (nth 0 ws 3)
    else (c.writeRun h.origin none a ws).1
  else
    let k := tileKey h.die (tileOf h.x h.y)
    if !c.routerServes k then c
    else if !hdrShape h || !regShape w2 ws then c.tileDiscard k .malformed hdr
    else if h.pkg ≠ c.pkg || h.tag ≠ 0 || !regRange a ws.length false 0 k then c.tileDiscard k .misaddressed hdr
    else if h.origin = 1 then c.tileDiscard k .unauthorised hdr
    else (c.writeRun h.origin none a ws).1

/-! ### Registers by BAR0 and by frame (R49, R652, R654, R797) -/

/-- The gate records a status of a BAR0 access (R652, R911). -/
def Chip.gateFault (c : Chip) (st a : Nat) : Chip := c.fault pgGATE st a 2

/-- An access of `n` registers at `a` keeps the size rule of R652. -/
def barShape (a n : Nat) : Bool := (n = 1 && a % 4 = 0) || (n = 2 && a % 8 = 0)

/-- The class under which an access enters by a port (R49, R100, R797, R810): none while the port is not open. -/
def Chip.portClass (c : Chip) (port : AccessPort) (o : Origin) : Option Nat :=
  match port with
  | .bar0 => if c.barOpen then some 2 else none
  | .mesh => some (originNum o)
  | .frame => if o = .host || o = .operator then some (originNum o) else none
  | .tap => if c.dbgLock.isOpen && c.dbgLock.scope.getLsbD 0 then some 4 else none
  | .bar0Poisoned => none

/-- Values written through a port. -/
def Chip.portWrite (c : Chip) (port : AccessPort) (o : Origin) (a : Nat) (vs : List Nat) (fails : Option Nat) : Chip :=
  match c.portClass port o with
  | none => if port = .bar0Poisoned && c.barOpen then c.dmaError 12 else c
  | some cls =>
    if c.held then c
    else if port = .bar0 && !barShape a vs.length then c.gateFault stBAD_OPERAND a
    else if port = .mesh then
      let w2 := 2 ^ 63 + vs.length * 2 ^ 48 + a
      match regPlace a with
      | .base n _ => c.dataRegs ({ kind := kDATA, pkg := c.pkg, qclass := 1, origin := cls, tag := baseTag n : Hdr }).word w2 vs
      | .tile k _ _ => c.dataRegs ({ kind := kDATA, pkg := c.pkg, die := k / 256, x := tileX k, y := tileY k, qclass := 1, origin := cls : Hdr }).word w2 vs
      | .absent => c
    else if a % 4 ≠ 0 then c
    else (c.writeRun cls fails a vs).1

/-- `n` registers read through a port; the values are the answer. -/
def Chip.portRead (c : Chip) (port : AccessPort) (o : Origin) (a n : Nat) : Chip :=
  match c.portClass port o with
  | none => c.say .none
  | some cls =>
    if c.held then c.say .none
    else if port = .bar0 && !barShape a n then (c.gateFault stBAD_OPERAND a).say (.data (List.replicate n 0))
    else if a % 4 ≠ 0 then c.say (.data (List.replicate n 0))
    else
      let r := c.readRun cls a n
      let c := match r.2.2 with | some st => if port = AccessPort.bar0 then r.1.gateFault st a else r.1 | none => r.1
      c.say (.data r.2.1)

/-! ### The machine window (R654, R660, R676, R677, R742) -/

/-- MWIN_STATUS shows a failed access (R681). -/
def Chip.mwinFails (c : Chip) (st a : Nat) : Chip :=
  (c.updPage pgGATE (fun p => p.setFld 0x108 7 0 st)).gateFault st a

/-- A tag that no outstanding read of `issuer` carries. -/
def Chip.freeTag (c : Chip) (issuer : Nat) : Nat :=
  ((upto 4096).find? (fun t => !c.reads.any (fun r => r.issuer == issuer && r.rtag == t))).getD 0

/-- The header of a message to the register at `a` of package `q`. -/
def regHdr (kind q origin a : Nat) : Hdr :=
  match regPlace a with
  | .tile k _ _ => { kind := kind, pkg := q, die := k / 256, x := tileX k, y := tileY k, qclass := 1, origin := origin }
  | _ => { kind := kind, pkg := q, qclass := 1, origin := origin, tag := baseTag (a / 4096 % 2048) }

/-- A machine-window access at offset `a` of the package that MWIN_PKG names. -/
def Chip.machineWindow (c : Chip) (write : Bool) (a : Nat) (vs : List Nat) : Chip :=
  let q := (c.page pgGATE).rd 0x104 % 256
  let n := if write then vs.length else max 1 vs.length
  let zero := Answer.data (List.replicate n 0)
  if c.held || !c.barOpen then c.say .none
  else if !barShape a n then (c.gateFault stBAD_OPERAND a).say zero
  else if !bit ((c.page pgAUTH).rd 0x104) 2 then
    ((c.mwinFails stNO_AUTHORITY a).count pgAUTH 0x140 1).say zero
  else if q = c.pkg then
    if write then (c.portWrite .bar0 .host a vs none).say (.data [])
    else (c.count pgGATE 0x158 1).portRead .bar0 .host a n
  else
    let c := if write then c else c.count pgGATE 0x158 1
    if c.machineSize ≤ q then (c.mwinFails stBAD_OPERAND a).say zero
    else if !c.hasPath q then ((c.mwinFails stPATH_LOST a).raise pgGATE 3).say zero
    else if write then
      (c.send ((regHdr kDATA q 2 a).word :: (2 ^ 63 + n * 2 ^ 48 + a) :: vs)).say (.data [])
    else
      let t := c.freeTag pgGATE
      let w2 := c.pkg * 2 ^ 56 + 2 ^ 55 + pgGATE * 2 ^ 44 + t * 2 ^ 32 + (n - 1) * 2 ^ 28 + 2 ^ 27 + a
      let c := c.send [(regHdr kREADREQ q 2 a).word, w2]
      ({ c with reads := c.reads ++ [{ rtag := t, issuer := pgGATE, count := n, pkg := q }] } : Chip).say .none

end Sys2Proof.Machine
end

