-- ==== Sys2Proof/Machine/Crook.lean ====
section
/-! DEFINITION. The Crook's management frames: arrival, order, permission, layout and meaning of every type (R797–R803), the
firmware session (R808, R809, R822), the debug lock (R811–R813), the audit frames (R815–R817), the maps (R802) and ALERT. -/

namespace Sys2Proof.Machine

/-! ### Arrival (R798–R800) -/

/-- The class of a transport (R798). -/
def viaClass : Transport → Nat
  | .smbus => 3
  | .mailbox => 2

/-- The bytes of a request frame. -/
def requestFrame (type : Nat) (tag : W16) (l : List Byte) : List Byte :=
  natLe 1 type ++ natLe 1 0 ++ natLe 2 tag.toNat ++ natLe 2 l.length ++ natLe 1 0 ++ natLe 1 0 ++ l

/-- A Block Write of a request to the SMBus target: NACKed while the package is held or 8 responses wait (R800). The answer is
whether it was taken. -/
def Chip.smbusWrite (c : Chip) (f : List Byte) : Chip × Bool :=
  if c.held || 8 ≤ c.crook.smbus.length then (c.say .refused, false)
  else ({ c with crook := { c.crook with frames := c.crook.frames ++ [(Transport.smbus, f)] } }.say .none, true)

/-- The host writes a frame into MBOX_REQ and sets MBOX_CTRL.SEND, unless REQ_BUSY is set (R798, R829). -/
def Chip.mboxWrite (c : Chip) (f : List Byte) : Chip :=
  if (c.portClass .bar0 .host).isNone || c.crook.mboxHeld.isSome then c.say .refused
  else
    let ws := (upto 64).map (fun i => leAt f (4 * i) 4)
    let c := (c.writeRun 2 none (pgCROOK * 4096 + 0x200) ws).1
    (c.writeAt (pgCROOK * 4096 + 0x120) 1 2 none).1.say .none

/-- A request frame of type `type` arrives (R798–R800). -/
def Chip.frameArrives (c : Chip) (type : Nat) (f : Frame) : Chip :=
  match f.via with
  | .smbus => (c.smbusWrite (requestFrame type f.tag f.payload)).1
  | .mailbox => c.mboxWrite (requestFrame type f.tag f.payload)

/-! ### Layouts and permissions (R799, R801) -/

/-- The payload of a type keeps its layout and its ranges. -/
def framePayloadOk (type : Nat) (b : List Byte) : Bool :=
  let n := b.length
  let word (m : Nat) : Bool := n % 4 = m % 4 && 4 + m % 4 ≤ n
  match type with
  | 0x02 => n = 5 && leAt b 0 4 % 4 = 0 && leAt b 0 4 + 4 * leAt b 4 1 ≤ 0x4000000 && within 1 60 (leAt b 4 1)
      && ((leAt b 0 4 + 4 * leAt b 4 1 ≤ 0x2000000) || 0x2000000 ≤ leAt b 0 4)
  | 0x03 => 12 ≤ n && leAt b 0 4 % 4 = 0 && leAt b 5 3 = 0 && within 1 58 (leAt b 4 1) && n = 8 + 4 * leAt b 4 1
      && leAt b 0 4 + 4 * leAt b 4 1 ≤ 0x4000000 && ((leAt b 0 4 + 4 * leAt b 4 1 ≤ 0x2000000) || 0x2000000 ≤ leAt b 0 4)
  | 0x04 => n = 64
  | 0x05 => n = 10 && leAt b 0 1 ≤ 3 && leAt b 1 3 = 0 && leAt b 4 4 % 4 = 0 && leAt b 8 2 % 4 = 0 && within 4 232 (leAt b 8 2)
      && leAt b 4 4 + leAt b 8 2 ≤ 4096
  | 0x06 => word 0 && 8 ≤ n && n ≤ 240 && leAt b 0 4 + (n - 4) ≤ 4096
  | 0x07 => n = 1 && within 1 3 (leAt b 0 1)
  | 0x08 => n = 4 && within 257 1572864 (leAt b 0 4)
  | 0x09 => word 0 && 8 ≤ n && n ≤ 240
  | 0x0D => n = 96
  | 0x0F => n = 5 && within 1 3 (leAt b 4 1)
  | 0x10 => n = 4
  | 0x11 => n = 6 && leAt b 0 1 ≤ 1 && leAt b 1 1 = 0 && leAt b 2 2 < 1024
  | 0x12 => n = 1 && within 1 2 (leAt b 0 1)
  | _ => n = 0

/-- The header of a frame that came with `f` bytes. -/
def frameHeaderOk (f : List Byte) : Bool :=
  leAt f 1 1 = 0 && leAt f 6 1 = 0 && leAt f 7 1 = 0 && leAt f 4 2 ≤ 240 && 8 + leAt f 4 2 ≤ f.length

/-- AUTH_OPTIONS.HOST_READS (R818). -/
def Chip.hostReads (c : Chip) : Bool := bit ((c.page pgAUTH).rd 0x104) 0

/-- The class may send the type now (R801); FW_COMMIT is served in RECOVERY, where it is refused (R809). -/
def Chip.frameAllowed (c : Chip) (type cls : Nat) (b : List Byte) : Bool :=
  let inRecovery := [0x01, 0x08, 0x09, 0x0A, 0x0B, 0x0F].contains type
    || (type = 0x02 && [pgIDENT, pgCROOK, pgAUTH].contains (leAt b 0 4 / 4096)
          && (leAt b 0 4 + 4 * leAt b 4 1 - 1) / 4096 = leAt b 0 4 / 4096)
  (!c.recovery || inRecovery) && 1 ≤ type && type ≤ 0x12
    && (cls = 3 || type = 0x01 || ((type = 0x0F || type = 0x11) && c.hostReads))

/-! ### Register frames and the machine window (R654, R801) -/

/-- The package that an address of a frame leads to, and its package-view address. -/
def Chip.frameTarget (c : Chip) (a : Nat) : Nat × Nat :=
  if a < 0x2000000 then (c.pkg, a) else ((c.page pgGATE).rd 0x104 % 256, a - 0x2000000)

/-- Why package `q` cannot be reached by the machine window. -/
def Chip.windowFails (c : Chip) (q : Nat) : Option Nat :=
  if c.machineSize ≤ q then some stBAD_OPERAND else if c.hasPath q then none else some stPATH_LOST

/-- The window's failure shown on GATE. -/
def Chip.showWindow (c : Chip) (st a : Nat) : Chip :=
  let c := (c.updPage pgGATE (fun p => p.setFld 0x108 7 0 st)).fault pgGATE st a 3
  if st = stPATH_LOST then c.raise pgGATE 3 else c

/-- How many of `n` registers from address `a` one message carries: 16 at most, within one page (R121). -/
def runPiece (a n : Nat) : Nat := min 16 (min n ((4096 - a % 4096) / 4))

/-- DATA messages that write values to package `q` from address `a`. -/
def regMessages (q : Nat) : Nat → Nat → List Nat → List (List Nat)
  | 0, _, _ => []
  | f + 1, a, vs =>
    if vs.isEmpty then []
    else
      let k := runPiece a vs.length
      ((regHdr kDATA q 3 a).word :: (2 ^ 63 + k * 2 ^ 48 + a) :: vs.take k) :: regMessages q f (a + 4 * k) (vs.drop k)

/-- The next READ_REQ of a running REG_READ. -/
def Chip.jobAsk (c : Chip) (j : RegJob) : Chip :=
  let k := runPiece j.addr j.left
  let t := c.freeTag pgCROOK
  let w2 := c.pkg * 2 ^ 56 + 2 ^ 55 + pgCROOK * 2 ^ 44 + t * 2 ^ 32 + (k - 1) * 2 ^ 28 + 2 ^ 27 + j.addr
  let c := c.send [(regHdr kREADREQ j.pkg 3 j.addr).word, w2]
  let j := { j with addr := j.addr + 4 * k, left := j.left - k, waiting := true }
  ({ c with crook := { c.crook with job := some j }
            reads := c.reads ++ [{ rtag := t, issuer := pgCROOK, count := k, pkg := j.pkg }] } : Chip)

/-! ### Firmware session (R808, R809, R822) -/

/-- The bytes of page `i` of the session's image, padded with zeros, and whether all of them have come. -/
def FwSession.page (s : FwSession) (i : Nat) : List Byte × Bool :=
  let n := min 4096 (s.length - 4096 * i)
  let ok := (memReadN s.seen (4096 * i) n).all (fun b => b != 0)
  (memReadN s.bytes (4096 * i) n ++ List.replicate (4096 - n) 0, ok)

/-- A page write of the session's copy. -/
def Chip.fwWrite (c : Chip) (copyB : Bool) (i : Nat) (b : List Byte) : NvWrite :=
  let pg := sysPage ((if copyB then 384 else 0) + i)
  { page := pg, data := some b, gen := (c.nvMeta pg).gen + 1, why := .firmware }

/-- Page writes of the firmware session that have still to end. -/
def Chip.fwWriting (c : Chip) : Bool := c.nv.queue.any (fun w => w.why == .firmware)

/-- FW_BEGIN. -/
def Chip.fwBegin (c : Chip) (length : Nat) : Chip × Nat × List Byte :=
  if c.crook.session.isSome then (c, stNO_PLACE, [])
  else
    let b := !c.recovery && !c.crook.fwCopyB
    let r := c.audit 3 3 stOK (natLe 4 (b2n b) ++ natLe 4 length)
    if !r.2 then (r.1, stNO_PLACE, [])
    else
      let c := r.1
      let k := { c.crook with session := some { copyB := b, length := length, bytes := [], seen := [], pages := [], failed := false, ending := false }
                              versionA := if b then c.crook.versionA else none, versionB := if b then none else c.crook.versionB }
      (({ c with crook := k } : Chip).queueWrites [c.fwWrite b 0 (List.replicate 4096 0)], stOK, natLe 1 (b2n b))

/-- The session is abandoned or aborted: its copy stays unverifiable (R808, R822). -/
def Chip.fwDrop (c : Chip) : Chip := { c with crook := { c.crook with session := none } }

/-- FW_DATA: bytes at their offset; each page that has come whole is programmed. -/
def Chip.fwData (c : Chip) (off : Nat) (l : List Byte) : Chip × Nat :=
  match c.crook.session with
  | none => (c, stBAD_OPERAND)
  | some s =>
    if s.failed then (c.fwDrop, stUNCORRECTED)
    else if s.length < off + l.length then (c, stBAD_OPERAND)
    else
      let s := { s with bytes := memWriteN s.bytes off l, seen := memWriteN s.seen off (List.replicate l.length 1) }
      let touched := ((upto 2).map (fun i => off / 4096 + i)).filter (fun i => 1 ≤ i && 4096 * i < off + l.length)
      let full := touched.filter (fun i => (s.page i).2)
      let s := { s with pages := s.pages.filter (fun i => !full.contains i) ++ full }
      let c : Chip := { c with crook := { c.crook with session := some s } }
      (c.queueWrites (full.map (fun i => c.fwWrite s.copyB i (s.page i).1)), stOK)

/-- FW_END begins: what is not programmed yet is queued, the header page last. -/
def Chip.fwEnding (c : Chip) (s : FwSession) : Chip :=
  let rest := (upto (ceilDiv s.length 4096)).filter (fun i => 1 ≤ i && !s.pages.contains i)
  let c : Chip := { c with crook := { c.crook with session := some { s with ending := true } } }
  c.queueWrites ((rest ++ [0]).map (fun i => c.fwWrite s.copyB i (s.page i).1))

/-- FW_END ends: the copy is read back and verified (R807, R808). -/
def Chip.fwEnded (c : Chip) (s : FwSession) : Chip × Nat × List Byte :=
  let v := if s.failed then none else c.fwVerify s.copyB
  let st := if s.failed then stUNCORRECTED else if v.isSome then stOK else stBAD_OPERAND
  let ver := leNat (memReadN s.bytes 8 4)
  let rb := leNat (memReadN s.bytes 12 2)
  let c := (c.fwDrop.audit 4 3 st (natLe 4 ver ++ natLe 4 rb ++ natLe 4 (b2n s.copyB))).1
  v.elim (c, st, []) (fun v =>
    let w : Option W32 := some (BitVec.ofNat 32 v.1)
    let k := { c.crook with versionA := if s.copyB then c.crook.versionA else w, versionB := if s.copyB then w else c.crook.versionB }
    (({ c with crook := k } : Chip).raise pgCROOK 1, stOK, natLe 4 v.1 ++ natLe 2 v.2))

/-- `n` more rollback bits set, from the lowest that is clear (R796, R809). -/
def setRollback : Nat → W64 → W64
  | 0, w => w
  | n + 1, w =>
    match (upto 64).find? (fun i => !w.getLsbD i) with
    | some i => setRollback n (w ||| BitVec.ofNat 64 (2 ^ i))
    | none => w

/-- A copy's VERSION after the rollback counter has become `n`: none when its ROLLBACK is below (R809). -/
def Chip.stillVerified (c : Chip) (copyB : Bool) (n : Nat) (v : Option W32) : Option W32 :=
  (c.fwBytes copyB 256).bind (fun h => if leAt h 12 2 < n then none else v)

/-- FW_COMMIT (R809). -/
def Chip.fwCommit (c : Chip) : Chip × Nat × List Byte :=
  let old := c.rollbacks
  let new := c.crook.fwRollback.toNat
  let boot := (c.page pgIDENT).rd 0x120
  if new ≤ old || bit boot 10 || bit boot 11 || c.recovery then (c, stBAD_OPERAND, [])
  else
    let r := c.audit 5 3 stOK (natLe 4 old ++ natLe 4 new)
    if !r.2 then (r.1, stNO_PLACE, [])
    else
      let c : Chip := { r.1 with fuses := { r.1.fuses with rollback := setRollback (new - old) r.1.fuses.rollback } }
      let k := { c.crook with versionA := c.stillVerified false new c.crook.versionA, versionB := c.stillVerified true new c.crook.versionB }
      (({ c with crook := k } : Chip).raise pgAUTH 6, stOK, natLe 1 c.rollbacks)

/-! ### Profiles (R525, R633) -/

/-- The copy of profile `n` that a write goes to, and its new generation (R525). -/
def Chip.profTarget (c : Chip) (n : Nat) : Nat × Nat :=
  let good (k : Nat) : Bool := c.nvGood (profPage n k)
  let gen (k : Nat) : Nat := (c.nvMeta (profPage n k)).gen.toNat
  let k := if !good 0 then 0 else if !good 1 then 1 else if gen 0 ≤ gen 1 then 0 else 1
  (k, max (if good 0 then gen 0 else 0) (if good 1 then gen 1 else 0) + 1)

/-- PROFILE_COMMIT of the staging page as profile `n`. -/
def Chip.profCommit (c : Chip) (n : Nat) : Chip × Nat :=
  let b := memReadN c.crook.staging 0 4096
  if !profOk n b then (c, stBAD_OPERAND)
  else
    let t := c.profTarget n
    let r := c.audit 6 3 stOK (natLe 4 n ++ natLe 4 t.2)
    if !r.2 then (r.1, stNO_PLACE)
    else
      let pg := profPage n t.1
      let c := r.1.program pg
      let c := ({ c with nv := { c.nv with data := memWriteN c.nv.data (4096 * pg) b } } : Chip).putMeta pg
        { c.nvMeta pg with gen := BitVec.ofNat 32 t.2, crc := BitVec.ofNat 32 (crc32c b), suspect := false }
      ((c.countWrap pgNVS 0x140 1).showProfiles, stOK)

/-! ### Debug lock (R811–R813) -/

/-- A LOAD, PAGE_IN or RESTORE runs, or waits for its second search (R824). -/
def Chip.placing (c : Chip) : Bool :=
  c.live.any (fun e => e.2.state == .running && [0x41, 0x43, 0x45].contains e.2.opcode)

/-- The token is well formed, is for this package and this CHALLENGE, and its signature verifies (R811, R812). -/
def Chip.tokenOk (c : Chip) (b : List Byte) : Bool :=
  !c.fuses.debugBlock && leAt b 0 4 = 0x4C4B4454 && leAt b 4 2 = 1 && leAt b 6 2 < 8 && leAt b 6 2 % 4 ≠ 0
    && leAt b 8 8 = c.fuses.serial.toNat && leAt b 16 8 = c.dbgLock.challenge.toNat && within 1 86400 (leAt b 24 4)
    && leAt b 28 4 = 0 && edVerify c.fuses.dbgKey (slice b 0 32) (slice b 32 64)

/-- DEBUG_UNLOCK: a new CHALLENGE is drawn whatever the outcome. -/
def Chip.debugUnlock (c : Chip) (b : List Byte) : Chip × Nat × List Byte :=
  let scope := leAt b 6 2
  let secs := leAt b 24 4
  let st := if !c.tokenOk b then stNO_AUTHORITY
    else if !bit scope 2 && (!c.residents.isEmpty || c.placing) then stBUSY_PASTURE
    else if !c.auditRoom then stNO_PLACE else stOK
  let c := (c.audit 8 3 st (natLe 4 scope ++ natLe 4 secs ++ slice b 0 32)).1.drawChallenge
  if st = stOK then
    let d := { c.dbgLock with isOpen := true, ever := true, scope := BitVec.ofNat 3 scope, endsAt := c.now + 1000000 * secs }
    (({ c with dbgLock := d } : Chip).raise pgAUTH 0, stOK, natLe 4 secs)
  else ((c.count pgAUTH 0x144 1).raise pgAUTH 2, st, [])

/-- DEBUG_EXPIRY (R813). -/
def Chip.debugExpiry (c : Chip) : Chip := if c.dbgLock.isOpen && c.dbgLock.endsAt ≤ c.now then c.debugClose 1 0 else c

/-! ### Audit frames and maps (R802, R815–R817) -/

/-- The oldest entry's SEQ. -/
def Chip.auditOldest (c : Chip) : Nat := c.crook.auditHead.toNat - 256

/-- AUDIT_READ. -/
def Chip.auditRead (c : Chip) (first n : Nat) : Nat × List Byte :=
  if first < c.auditOldest || c.crook.auditHead.toNat < first + n then (stBAD_OPERAND, [])
  else (stOK, (upto n).flatMap (fun i => (mapGet auditDefault c.nv.audit ((first + i) % 256) ++ List.replicate 64 0).take 64))

/-- AUDIT_ACK. -/
def Chip.auditAck (c : Chip) (seq : Nat) : Chip × Nat :=
  if seq ≤ c.crook.auditAck.toNat then (c, stOK)
  else if seq < c.auditOldest || c.crook.auditHead.toNat ≤ seq then (c, stBAD_OPERAND)
  else
    let c : Chip := { c with crook := { c.crook with auditAck := BitVec.ofNat 32 seq } }
    ((c.audit 13 3 stOK (natLe 4 seq)).1, stOK)

/-- QDBG registers of tile `k` as bytes. -/
def Chip.qdbgBytes (c : Chip) (k : Nat) (offs : List Nat) : List Byte := offs.flatMap (fun o => natLe 4 (c.qdbgReg k o))

/-- The head of a map record: die and tile. -/
def mapHead (k : Nat) : List Byte := natLe 1 (k / 256) ++ natLe 1 (k % 256) ++ natLe 2 0

/-- The frozen routers of a stalled pasture, in rising die and tile. -/
def Chip.frozenTiles (c : Chip) (p : Nat) : List Nat :=
  let x := c.past p
  if !x.stalled then [] else sortNats ((x.tiles.map (fun t => t.key)).filter (fun k => (c.tile k).dbg.frozen))

/-- MAP_READ: the map's part, TOTAL first. Reading the last part of a stall map has read the map (R192, R802). -/
def Chip.mapRead (c : Chip) (kind p part : Nat) : Chip × Nat × List Byte :=
  if kind = 0 then
    let ts := c.frozenTiles p
    match ts[part]? with
    | none => (c, stBAD_OPERAND, [])
    | some k =>
      let words (a n : Nat) : List Nat := (upto n).map (fun i => a + 4 * i)
      let b := natLe 2 ts.length ++ natLe 2 0 ++ mapHead k ++ c.qdbgBytes k (words 0x150 6 ++ words 0x110 6 ++ words 0x130 5 ++ words 0x200 36)
      (if part + 1 = ts.length then c.updPast p (fun x => { x with stallMapRead := true }) else c, stOK, b)
  else if 147 ≤ part then (c, stBAD_OPERAND, [])
  else
    let ks := (upto 7).filterMap (fun i => if 7 * part + i < 1024 then some (7 * part + i) else none)
    (c, stOK, natLe 2 147 ++ natLe 2 0 ++ ks.flatMap (fun k => mapHead k ++ c.qdbgBytes k ((upto 6).map (fun i => 0x170 + 4 * i) ++ [0x10C])))

/-! ### Serving a frame -/

/-- What serving a frame does: it waits, it is answered now, or it is answered later. -/
inductive FrameStep
  | wait (c : Chip)
  | reply (c : Chip) (st : Nat) (payload : List Byte)
  | later (c : Chip)

/-- The frames whose page writes pause while a shelter save runs (R823). -/
def frameWrites (type : Nat) : Bool := [0x07, 0x08, 0x09, 0x0A, 0x0B, 0x0D, 0x0E, 0x10].contains type

/-- A SUBMIT places its record in the operator context's ring; NO_PLACE when the ring is full (R801, R803). -/
def Chip.submitFrame (c : Chip) (via : Transport) (tag : W16) (b : List Byte) : FrameStep :=
  let x := c.ctx 4095
  if 2 ^ x.logSq.toNat ≤ (x.pi - x.ci).toNat then .reply c stNO_PLACE []
  else
    let c := c.crookWrite (x.sqAddr x.pi) b
    let c : Chip := { c with crook := { c.crook with submits := c.crook.submits ++ [(x.pi, via, tag)] } }
    .later (c.doorbellPi 4095 (x.pi + 1))

/-- REG_READ, here or through the machine window. -/
def Chip.regReadFrame (c : Chip) (via : Transport) (tag : W16) (a n : Nat) : FrameStep :=
  let t := c.frameTarget a
  if t.1 = c.pkg then
    let r := c.readRun 3 t.2 n
    .reply r.1 stOK (r.2.1.flatMap (fun v => natLe 4 v))
  else
    let c := c.count pgGATE 0x158 1
    match c.windowFails t.1 with
    | some st => .reply (c.showWindow st a) stOK (List.replicate (4 * n) 0)
    | none => .later (c.jobAsk { via := via, tag := tag, addr := t.2, pkg := t.1, left := n, got := [], waiting := true })

/-- REG_WRITE, here or through the machine window. -/
def Chip.regWriteFrame (c : Chip) (a : Nat) (vs : List Nat) : FrameStep :=
  let t := c.frameTarget a
  if t.1 = c.pkg then .reply (c.writeRun 3 none t.2 vs).1 stOK []
  else match c.windowFails t.1 with
    | some st => .reply (c.showWindow st a) stOK []
    | none => .reply (c.sendAll (regMessages t.1 vs.length t.2 vs)) stOK []

/-- The meaning of a frame that is permitted and well formed (R801). -/
def Chip.serveType (c : Chip) (hold : Bool) (via : Transport) (type : Nat) (tag : W16) (b : List Byte) : FrameStep :=
  let three (r : Chip × Nat × List Byte) : FrameStep := .reply r.1 r.2.1 r.2.2
  let two (r : Chip × Nat) : FrameStep := .reply r.1 r.2 []
  if frameWrites type && c.nv.shelter.isSome then .wait c
  else match type with
  | 0x01 => .reply c stOK (natLe 4 (c.identReg 0x120) ++ natLe 4 c.crook.fwVersion.toNat ++ natLe 4 (c.crookReg 0x104)
      ++ natLe 4 (c.authReg 0x100) ++ natLe 8 c.fuses.serial.toNat)
  | 0x02 => c.regReadFrame via tag (leAt b 0 4) (leAt b 4 1)
  | 0x03 => c.regWriteFrame (leAt b 0 4) ((upto (leAt b 4 1)).map (fun i => leAt b (8 + 4 * i) 4))
  | 0x04 => c.submitFrame via tag b
  | 0x05 => (c.profRead (leAt b 0 1)).elim (.reply c stNV_COPY_FAIL []) (fun l => .reply c stOK (slice l (leAt b 4 4) (leAt b 8 2)))
  | 0x06 => .reply { c with crook := { c.crook with staging := memWriteN c.crook.staging (leAt b 0 4) (b.drop 4) } } stOK []
  | 0x07 => two (c.profCommit (leAt b 0 1))
  | 0x08 => three (c.fwBegin (leAt b 0 4))
  | 0x09 => two (c.fwData (leAt b 0 4) (b.drop 4))
  | 0x0A =>
    match c.crook.session with
    | none => .reply c stBAD_OPERAND []
    | some s =>
      if !s.ending then
        if !c.auditRoom then .reply (c.raise pgAUTH 3) stNO_PLACE [] else .wait (c.fwEnding s)
      else if c.fwWriting then .wait c else three (c.fwEnded s)
  | 0x0B => three c.fwCommit
  | 0x0C => .reply c stOK (natLe 8 c.fuses.serial.toNat ++ natLe 8 c.dbgLock.challenge.toNat)
  | 0x0D => three (c.debugUnlock b)
  | 0x0E => if c.dbgLock.isOpen && !c.auditRoom then .reply (c.raise pgAUTH 3) stNO_PLACE [] else .reply (c.debugClose 2 3) stOK []
  | 0x0F => let r := c.auditRead (leAt b 0 4) (leAt b 4 1); .reply c r.1 r.2
  | 0x10 => two (c.auditAck (leAt b 0 4))
  | 0x11 => three (c.mapRead (leAt b 0 1) (leAt b 2 2) (leAt b 4 2))
  | _ => .reply (if leAt b 0 1 = 1 then c.powerStorm hold else c.powerCalm) stOK []

/-- A frame's status counted, and its line printed (R819, R829). -/
def Chip.frameDone (c : Chip) (type tag cls st : Nat) : Chip :=
  if st = stBAD_OPCODE || st = stBAD_OPERAND || st = stNO_AUTHORITY then c.count pgCROOK 0x134 1
  else
    let c := c.count pgCROOK 0x130 1
    if c.verbose then c.print (.frame type tag cls st) else c

/-- The frame at the head of the queue is gone. -/
def Chip.popFrame (c : Chip) (via : Transport) : Chip :=
  { c with crook := { c.crook with frames := c.crook.frames.drop 1, mboxHeld := if via = .mailbox then none else c.crook.mboxHeld } }

/-- A frame answered. -/
def Chip.frameReply (c : Chip) (via : Transport) (type : Nat) (tag : W16) (st : Nat) (l : List Byte) : Chip :=
  (c.frameDone type tag.toNat (viaClass via) st).respond via (responseFrame type tag.toNat st l)

/-- One turn of the Crook: a running REG_READ goes on, or the oldest frame is served; none when there is nothing to do (R800). -/
def Chip.crookTurn (c : Chip) (hold : Bool) : Option Chip :=
  match c.crook.job with
  | some j =>
    if j.waiting then none
    else if j.left = 0 then
      let c : Chip := { c with crook := { c.crook with job := none } }
      some (c.frameReply j.via 0x02 j.tag stOK (j.got.flatMap (fun v => natLe 4 v)))
    else some (c.jobAsk j)
  | none =>
    match c.crook.frames with
    | [] => none
    | (via, f) :: _ =>
      if via = .mailbox && 8 ≤ c.crook.mbox.length then none
      else
        let type := leAt f 0 1
        let tag : W16 := BitVec.ofNat 16 (leAt f 2 2)
        let b := slice f 8 (leAt f 4 2)
        let bad (st : Nat) : Option Chip := some ((c.popFrame via).frameReply via type tag st [])
        if 0x13 < type then bad stBAD_OPCODE
        else if !frameHeaderOk f || (via = .smbus && f.length ≠ 8 + b.length) || !framePayloadOk type b then bad stBAD_OPERAND
        else if !c.frameAllowed type (viaClass via) b then bad stNO_AUTHORITY
        else match (c.popFrame via).serveType hold via type tag b with
          | .reply d st l => some (d.frameReply via type tag st l)
          | .later d => some (d.frameDone type tag.toNat (viaClass via) stOK)
          | .wait d =>
            let e : Chip := { d with crook := { d.crook with frames := c.crook.frames, mboxHeld := c.crook.mboxHeld } }
            if e.crook.session = c.crook.session then none else some e

/-- The Crook serves what it can. -/
def Chip.crookServe (c : Chip) (hold : Bool) : Nat → Chip
  | 0 => c
  | n + 1 =>
    if c.held then c
    else match c.crookTurn hold with
      | some d => d.crookServe hold n
      | none => c

/-! ### Unsolicited and idle (R801, R822) -/

/-- FW_SESSION_IDLE: the session is abandoned. -/
def Chip.sessionIdle (c : Chip) : Chip :=
  match c.crook.session with
  | some s => if s.ending then c else c.fwDrop
  | none => c

/-- An ALERT frame for each base-die page whose first event has become pending, while the SMBus target has room (assumption
39). -/
def Chip.alerts (c : Chip) : Chip :=
  if c.held then c
  else
    let now := (c.pages.filter (fun e => e.2.pending)).map (fun e => e.1)
    let c := { c with crook := { c.crook with alerted := c.crook.alerted.filter (fun n => now.contains n) } }
    now.foldl (fun c n =>
      if c.crook.alerted.contains n || 8 ≤ c.crook.smbus.length then c
      else
        let f := responseFrame 0x13 0 stOK (natLe 2 n ++ natLe 2 0 ++ natLe 4 (c.page n).ev.toNat)
        { c with crook := { c.crook with alerted := c.crook.alerted ++ [n], smbus := c.crook.smbus ++ [f] } }) c

/-- RESPONSE_READ: the oldest unread SMBus response, or a NONE frame (R798). -/
def Chip.responseRead (c : Chip) : Chip :=
  if c.held then c.say .refused
  else match c.crook.smbus with
    | [] => c.say (.frame (responseFrame 0x00 0 stOK []))
    | f :: l => ({ c with crook := { c.crook with smbus := l } } : Chip).say (.frame f)

end Sys2Proof.Machine
end

