-- ==== Sys2Proof/Machine/Deliver.lean ====
section
/-! DEFINITION. The delivery of messages at their receivers (R98–R129, R138, R171, R363–R365, R469, R904, R971, R972), and what
every command of the package ends with: messages delivered, frames served, links fed, alerts raised (assumption 15). -/

namespace Sys2Proof.Machine

/-! ### READ_REQ and READ_RESP (R125–R127, R904, R972) -/

/-- Register values packed two to a word, the lower address low (R126). -/
def packRegs : List Nat → List Nat
  | [] => []
  | [a] => [a % 2 ^ 32]
  | a :: b :: l => (a % 2 ^ 32 + b % 2 ^ 32 * 2 ^ 32) :: packRegs l

/-- The register values of packed words. -/
def unpackRegs (n : Nat) (l : List Nat) : List Nat := (l.flatMap (fun w => [w % 2 ^ 32, w / 2 ^ 32 % 2 ^ 32])).take n

/-- The answer of a READ_REQ sent to its requester. -/
def Chip.answerRead (c : Chip) (hdr w2 st : Nat) (ws : Option (List Nat)) : Chip := c.send (readAnswer hdr w2 st ws)

/-- The `n` registers from address `a` touch the storage of a drove entry that cannot be corrected (R127). -/
def Chip.droveLost (c : Chip) (a n : Nat) : Bool :=
  match regPlace a with
  | .tile k 0 off =>
    let t := c.tile k
    off ≤ 0x154 && 0x154 < off + 4 * n
      && (readFlit (mapGet droveDefault t.rt.drove (t.pRouter.rd 0x150 % 2048))).2.isNone
  | _ => false

/-- A register READ_REQ that has passed its checks. -/
def Chip.readRegs (c : Chip) (hdr w2 : Nat) : Chip :=
  let a := bits w2 24 0
  let n := bits w2 31 28 + 1
  if c.droveLost a n then c.answerRead hdr w2 stUNCORRECTED none
  else
    let r := c.readRun (Hdr.of hdr).origin a n
    match r.2.2 with
    | some st => r.1.answerRead hdr w2 st none
    | none => r.1.answerRead hdr w2 stOK (some (packRegs r.2.1))

/-- A READ_REQ keeps its layout (R97, R125). -/
def readShape (h : Hdr) (w2 : Nat) : Bool := hdrShape h && bits w2 26 25 = 0 && (bit w2 55 || !bit w2 44)

/-- A READ_REQ at a base-die block. -/
def Chip.readReqBase (c : Chip) (hdr w2 : Nat) : Chip :=
  let h := Hdr.of hdr
  let pg := h.tag - 2048
  let a := bits w2 24 0
  let n := bits w2 31 28 + 1
  let reg := bit w2 27
  if !readShape h w2 then c.baseDiscard pg .malformed hdr
  else if !c.baseNames h || baseCode pg = 0 then c.baseDiscard pg .misaddressed hdr
  else if (if reg then !regRange a n true pg 0 else pg ≠ pgCOMMONS || !inBank a (8 * n) 2097152) then
    (c.baseDiscard pg .misaddressed hdr).answerRead hdr w2 stBAD_OPERAND none
  else if (h.origin = 1 && pg ≠ pgIDENT) || (!reg && !c.bankReadAllowed none hdr w2) then
    (c.baseDiscard pg .unauthorised hdr).answerRead hdr w2 stNO_AUTHORITY none
  else if reg then c.readRegs hdr w2
  else if !c.domOn domCOMMONS then c.answerRead hdr w2 stASLEEP none
  else
    let r := c.commonsRead (a / 8) n
    r.1.answerRead hdr w2 (if r.2.2 then stUNCORRECTED else stOK) (some r.2.1)

/-- A READ_REQ at a tile; `sender` is the pasture whose tile sent it. -/
def Chip.readReqTile (c : Chip) (sender : Option Nat) (hdr w2 : Nat) : Chip :=
  let h := Hdr.of hdr
  let k := tileKey h.die (tileOf h.x h.y)
  let a := bits w2 24 0
  let n := bits w2 31 28 + 1
  let reg := bit w2 27
  let dead := (c.die (k / 256)).state == .dead
  if dead || !c.routerServes k then
    if readShape h w2 && h.pkg = c.pkg then c.answerRead hdr w2 (if dead then stFENCED else stASLEEP) none else c
  else if !readShape h w2 then c.tileDiscard k .malformed hdr
  else if h.pkg ≠ c.pkg then c.tileDiscard k .misaddressed hdr
  else if (if reg then !regRange a n false 0 k else !inBank a (8 * n) (tileWords k)) then
    (c.tileDiscard k .misaddressed hdr).answerRead hdr w2 stBAD_OPERAND none
  else if h.origin = 1 || (!reg && !c.bankReadAllowed (some k) hdr w2) then
    (c.tileDiscard k .unauthorised hdr).answerRead hdr w2 stNO_AUTHORITY none
  else if h.origin = 0 && !c.mayReach sender k then c.tileDiscard k .fenced hdr
  else if reg then c.readRegs hdr w2
  else if (c.tile k).bank.fenced then c.answerRead hdr w2 stFENCED none
  else if !c.bankOn k || !c.coreServes k then c.answerRead hdr w2 stASLEEP none
  else
    let r := (c.wakeTile k).tileRead k (a / 8) n
    r.1.answerRead hdr w2 (if r.2.2 then stUNCORRECTED else stOK) (some r.2.1)

/-- A READ_REQ arrives. -/
def Chip.readReq (c : Chip) (sender : Option Nat) (hdr w2 : Nat) : Chip :=
  if 2048 ≤ (Hdr.of hdr).tag then c.readReqBase hdr w2 else c.readReqTile sender hdr w2

/-- The answer `w2`, `ws` of the outstanding request `r` taken by its requester. -/
def Chip.takeAnswer (c : Chip) (r : Outstanding) (w2 : Nat) (ws : List Nat) : Chip :=
  let st := bits w2 47 40
  let empty := bit w2 38
  if r.issuer = pgXFER then
    if empty then c.copyEnd r.rtag st
    else
      let bad := st = stUNCORRECTED
      let q := c.copyTake r.rtag (if bad then ws.takeWhile (fun w => w != 0) else ws) bad
      if q.2 then q.1.copyOn r.rtag 4097 else q.1
  else if r.issuer = pgGATE then
    if empty then (c.mwinFails st (bits w2 24 0)).say (.data (List.replicate r.count 0))
    else c.say (.data (unpackRegs r.count ws))
  else if r.issuer = pgCROOK then
    let got := if empty then List.replicate r.count 0 else unpackRegs r.count ws
    { c with crook := { c.crook with job := c.crook.job.map (fun j => { j with got := j.got ++ got, waiting := false }) } }
  else c

/-- A READ_RESP keeps its layout and its length (R97, R126). -/
def respShape (h : Hdr) (w2 : Nat) (ws : List Nat) : Bool :=
  hdrShape h && bits w2 37 25 = 0 && 2 + ws.length = msgLen h w2

/-- A READ_RESP arrives: taken only as the answer to an outstanding request (R904). -/
def Chip.readResp (c : Chip) (hdr w2 : Nat) (ws : List Nat) : Chip :=
  let h := Hdr.of hdr
  if 2048 ≤ h.tag then
    let pg := h.tag - 2048
    if !respShape h w2 ws then c.baseDiscard pg .malformed hdr
    else if !c.baseNames h then c.baseDiscard pg .misaddressed hdr
    else match c.reads.find? (fun r => r.issuer == pg && r.rtag == bits w2 63 52) with
      | none => c.baseDiscard pg .misaddressed hdr
      | some r => ({ c with reads := c.reads.erase r } : Chip).takeAnswer r w2 ws
  else
    let k := tileKey h.die (tileOf h.x h.y)
    if !c.routerServes k then c
    else c.tileDiscard k (if respShape h w2 ws then .misaddressed else .malformed) hdr

/-! ### SYNC, EXCHANGE, COMPLETION, COMMAND and TRACE at the base die -/

/-- The senders that may operate on an OWNED object (R365). -/
def Chip.mayOperate (c : Chip) (x : SyncObj) (sender : Option Nat) : Bool :=
  !x.owned || (match sender with | some p => p == x.owner.val || (c.past x.owner.val).peers.any (fun q => q.val == p) | none => false)

/-- A SYNC at the muster unit (R123, R363–R365). -/
def Chip.syncMsg (c : Chip) (sender : Option Nat) (hdr w2 : Nat) : Chip :=
  let h := Hdr.of hdr
  let n := h.tag - 2048
  let op := bits w2 17 16
  if !hdrShape h || w2 / 2 ^ 18 ≠ 0 || bits w2 15 14 ≠ 0 || 1 < op then c.baseDiscard n .malformed hdr
  else if !c.baseNames h || n ≠ pgMUSTER then c.baseDiscard n .misaddressed hdr
  else if h.origin = 1 then c.baseDiscard n .unauthorised hdr
  else
    let o := bits w2 13 0
    let c := c.wakeControl
    if c.mayOperate (c.obj o) sender then c.objOp o op (sext 16 h.payload) else c.objRefuse.baseDiscard n .unauthorised hdr

/-- An EXCHANGE at the muster unit: its ΔE is added to the replica's 48-bit energy (R129, R316–R318, R338). -/
def Chip.exchangeMsg (c : Chip) (hdr w2 : Nat) : Chip :=
  let h := Hdr.of hdr
  let n := h.tag - 2048
  let i := bits w2 31 18
  let l := c.ladder i
  let r := h.payload
  if !hdrShape h || bits w2 9 0 ≠ 0 then c.baseDiscard n .malformed hdr
  else if !c.baseNames h || n ≠ pgMUSTER || 63 < i || !l.valid || l.replicas.length ≤ r then c.baseDiscard n .misaddressed hdr
  else if h.stamp ≠ (c.past l.pasture.val).round.toNat % 256 then c.baseDiscard n .stale hdr
  else if h.origin ≠ 0 then c.baseDiscard n .unauthorised hdr
  else
    let c := c.wakeControl
    let x := nth replicaInit l.replicas r
    let e := x.energy + sext 32 (w2 / 2 ^ 32)
    let e' := clampI (-(2 ^ 47)) (2 ^ 47 - 1) e
    let c := c.putLadder i { l with replicas := listSet l.replicas r { x with energy := e' } }
    let c := if e' = e then c else c.inexact i
    if bits w2 17 10 = x.rung.toNat then c else (c.count pgANNEAL 0x160 1).raise pgANNEAL 3

/-- A COMPLETION at SHEP: its record is written to the ring of its context once there is room; none while it waits (R124,
R376). -/
def Chip.completionMsg (c : Chip) (hdr w0 w1 : Nat) : Option Chip :=
  let h := Hdr.of hdr
  let n := h.tag - 2048
  if !hdrShape h || 4096 ≤ h.payload then some (c.baseDiscard n .malformed hdr)
  else if !c.baseNames h || n ≠ pgSHEP then some (c.baseDiscard n .misaddressed hdr)
  else if h.origin ≠ 0 then some (c.baseDiscard n .unauthorised hdr)
  else
    let c := c.wakeControl
    let q := h.payload
    if c.discards q then some (c.count pgGATE 0x148 1)
    else if !(c.ctx q).cqRoom then none
    else some (c.writeRecord q (bits w0 15 0) (bits w0 23 16) (bits w0 26 24) (bits w0 63 32) w1 true)

/-- A COMMAND at SHEP: the share of another package's command takes a scoreboard entry, READY at once; none while the
scoreboard is full (R122, R904). -/
def Chip.shareMsg (c : Chip) (hdr : Nat) (ws : List Nat) : Option Chip :=
  let h := Hdr.of hdr
  let n := h.tag - 2048
  if !hdrShape h || ws.length ≠ 8 then some (c.baseDiscard n .malformed hdr)
  else if !c.baseNames h || n ≠ pgSHEP then some (c.baseDiscard n .misaddressed hdr)
  else if h.origin ≠ 0 then some (c.baseDiscard n .unauthorised hdr)
  else
    let c := c.wakeControl
    match c.freeSlot with
    | none => none
    | some e =>
      let x := { SbEntry.init with state := SbState.ready, source := .share, words := ws.map (fun w => BitVec.ofNat 64 w), w0Met := true
                                   w1Met := true, fetchNo := c.fetched, readyNo := c.readied, readyAt := c.now }
      some { c.putEntry e x with fetched := c.fetched + 1, readied := c.readied + 1 }

/-- A TRACE at HEALTH (R128, R839, R840). -/
def Chip.traceMsgIn (c : Chip) (hdr datum : Nat) : Chip :=
  let h := Hdr.of hdr
  let n := h.tag - 2048
  if !hdrShape h then c.baseDiscard n .malformed hdr
  else if !c.baseNames h || n ≠ pgHEALTH then c.baseDiscard n .misaddressed hdr
  else if h.origin ≠ 0 then c.baseDiscard n .unauthorised hdr
  else c.wakeControl.traceRecord hdr datum

/-! ### Delivery -/

/-- A message of a base-die receiver; none while it waits. -/
def Chip.deliverBase (c : Chip) (sender : Option Nat) (hdr : Nat) (ws : List Nat) : Option Chip :=
  let h := Hdr.of hdr
  let n := h.tag - 2048
  let w2 := nth 0 ws 0
  if h.kind = kDATA then
    if bit w2 63 then some (c.dataRegs hdr w2 (ws.drop 1)) else some (c.bankWrite sender hdr ws)
  else if h.kind = kREADREQ then some (c.readReq sender hdr w2)
  else if h.kind = kREADRESP then some (c.readResp hdr w2 (ws.drop 1))
  else if h.kind = kSYNC then some (c.syncMsg sender hdr w2)
  else if h.kind = kEXCHANGE then some (c.exchangeMsg hdr w2)
  else if h.kind = kCOMPLETION then c.completionMsg hdr w2 (nth 0 ws 1)
  else if h.kind = kCOMMAND then c.shareMsg hdr ws
  else if h.kind = kTRACE then some (c.traceMsgIn hdr w2)
  else some (c.baseDiscard n (if kindClass h.kind = some h.qclass then .misaddressed else .malformed) hdr)

/-- A control message of a tile receiver. -/
def Chip.deliverTile (c : Chip) (sender : Option Nat) (hdr : Nat) (ws : List Nat) : Chip :=
  let h := Hdr.of hdr
  let k := tileKey h.die (tileOf h.x h.y)
  let w2 := nth 0 ws 0
  if h.kind = kDATA then
    if bit w2 63 then c.dataRegs hdr w2 (ws.drop 1) else c.bankWrite sender hdr ws
  else if h.kind = kREADREQ then c.readReq sender hdr w2
  else if h.kind = kREADRESP then c.readResp hdr w2 (ws.drop 1)
  else if h.kind = kSYNC then c.tileSync k sender hdr w2
  else if h.kind = kCOMMAND then c.tileCommand k (BitVec.ofNat 64 hdr) (ws.map (fun w => BitVec.ofNat 64 w)) {}
  else if !c.routerServes k then c
  else c.tileDiscard k (if kindClass h.kind = some h.qclass then .misaddressed else .malformed) hdr

/-- A control message delivered: to a base-die block, to a tile, or on toward its package; none while its receiver has no
room. -/
def Chip.deliver (c : Chip) (sender : Option Nat) (m : List Nat) : Option Chip :=
  match m with
  | [] => some c
  | hdr :: ws =>
    let h := Hdr.of hdr
    if h.pkg ≠ c.pkg then some (c.linkOut none m)
    else if 2048 ≤ h.tag then c.deliverBase sender hdr ws
    else some (c.deliverTile sender hdr ws)

/-- Messages in flight delivered in order; `kept` holds those whose receiver has no room. -/
def Chip.deliverAll (c : Chip) (kept : List (Nat × List Nat)) : Nat → Chip
  | 0 => { c with inFlight := kept ++ c.inFlight }
  | f + 1 =>
    match c.inFlight with
    | [] => { c with inFlight := kept }
    | (s, m) :: rest =>
      match ({ c with inFlight := rest } : Chip).deliver (if s = 0 then none else some (s - 1)) m with
      | some d => d.deliverAll kept f
      | none => ({ c with inFlight := rest } : Chip).deliverAll (kept ++ [(s, m)]) f

/-- One thing that has left port tile `key` through V: a close, an egress, or a message for another die or package (R110,
R163, R171, R729). -/
def Chip.leave (c : Chip) (key p : Nat) (ws : List Nat) : Chip :=
  match ws with
  | [] => c.closeOut p key
  | w :: _ =>
    let h := Hdr.of w
    if h.pkg ≠ c.pkg then c.linkOut none ws
    else if h.kind = kFLOCK then c.tileDiscard key .malformed w
    else if h.kind = kAXON && tileKey h.die (tileOf h.x h.y) = key then c.portEgress p key w
    else (c.feedNear p w).1

/-- Everything that has left through V. -/
def Chip.leaveAll (c : Chip) : Chip :=
  let l := c.leaving
  l.foldl (fun c e => c.leave e.1 e.2.1 e.2.2) { c with leaving := [] }

/-- Messages delivered until none moves. -/
def Chip.flush (c : Chip) : Chip := c.leaveAll.deliverAll [] (4096 + 4 * c.inFlight.length)

/-! ### What every command ends with -/

/-- EVT_VECTOR: the message of the first pending event of the package (R661, R906). -/
def Chip.eventVector (c0 c : Chip) : Chip :=
  let v := (c.page pgGATE).rd 0x110
  if bit v 31 && c0.evtAny = 0 && c.evtAny != 0 then c.msix (bits v 10 0) else c

/-- The package after a command, `hold` being STORM_POLICY HOLD: messages are delivered and frames served, links are fed, AER
ports latch, bursts of bank corrections count, eligible contexts are noted, and alerts and the event vector go out. -/
def settle (hold : Bool) (c0 c : Chip) : Chip :=
  let c := (c.flush.crookServe hold 64).flush
  let c := (c.keepChannels.spanSteps).pumpAll
  let c := ((c.aerLatch 0).aerLatch 1).flush
  let c := Chip.bursts c0 c
  Chip.eventVector c0 (c.noteEligible.alerts)

end Sys2Proof.Machine
end

