-- ==== Sys2Proof/Machine/Replay.lean ====
section
/-! DEFINITION. Rounds run again from a checkpoint: REPLAY_CHECK and the automatic restart (R326, R424, R425, R848–R850,
R864–R866). -/

namespace Sys2Proof.Machine

/-! ### The log of a checkpoint (R844, R845) -/

/-- A round log as read back from host memory. -/
structure LogRead where
  base : Nat
  first : Nat
  cap : Nat
  logged : Nat
  used : Nat
  broken : Bool

/-- LOG_OFFSET of a checkpoint (R841). -/
def Img.logOffset (m : Img) : Nat :=
  match (m.stateOf 0 255).find? (fun r => r.type == 1) with | some r => leAt r.body 8 4 | none => 0

/-- The round counter that a checkpoint holds. -/
def Img.ckptRound (m : Img) : Nat :=
  match (m.stateOf 0 255).find? (fun r => r.type == 1) with | some r => leAt r.body 0 4 | none => m.round

/-- The log that checkpoint `m` at host address `a` names; none when it is absent. -/
def Chip.logAt (c : Chip) (a : Nat) (m : Img) : Option LogRead :=
  if m.logOffset = 0 then none
  else
    let h := memReadN c.host (a + m.logOffset) 64
    if leAt h 0 4 ≠ 0x4C4B4C47 || leAt h 4 4 ≠ m.ckptRound then none
    else some { base := a + m.logOffset, first := leAt h 4 4, cap := leAt h 8 4, logged := leAt h 12 4
                used := leAt h 16 4, broken := bit (leAt h 20 4) 1 }

/-- The input records of a log: round and words in logged order. -/
def inputRecs : Nat → List Byte → List (Nat × List W64)
  | 0, _ => []
  | f + 1, l =>
    if l.length < 8 then []
    else
      let n := leAt l 4 4
      (leAt l 0 4, (fields 8 n (l.drop 8)).map (fun w => BitVec.ofNat 64 w)) :: inputRecs f (l.drop (8 + 8 * n))

def Chip.logInputs (c : Chip) (g : LogRead) : List (Nat × List W64) :=
  inputRecs (g.used / 8) (memReadN c.host (g.base + 64 + 8 * g.cap) g.used)

/-- Digest word `k` of the log. -/
def Chip.logDigest (c : Chip) (g : LogRead) (k : Nat) : Nat := leAt (memReadN c.host (g.base + 64 + 8 * k) 8) 0 8

/-! ### A copy that runs alone (R849) -/

/-- The ladder of pasture `p` runs on in a copy when its checkpoint says that it ran. -/
def Chip.copyLadder (c : Chip) (p : Nat) (m : Img) : Chip :=
  let on := match (m.stateOf 0 255).find? (fun r => r.type == 6) with | some r => bit (leAt r.body 0 4) 16 | none => false
  let c := c.updPast p (fun x => { x with
    run := some { entry := none, ladder := on, period := 0, rounds := 0, advanced := 0, saturated := false, degraded := false } })
  match c.ladderOf p with
  | none => c
  | some (i, l) => c.putLadder i { l with running := on, entry := none, stopping := none }

/-- Pasture `p`, placed as the copy of checkpoint `m`, cut off from everything outside it: free mode, no stream, no egress,
no log, no hold, and no command that waits for its musters. -/
def Chip.isolate (c : Chip) (p : Nat) (m : Img) : Chip :=
  let c := (c.unbind p).copyLadder p m
  let c := (c.past p).tiles.foldl (fun c t => c.updTile t.key (fun u => { u with egress := [] })) c
  let busy := (c.past p).tiles.any (fun t => tileBusy (c.tile t.key) t.core)
  c.updPast p (fun x => { x with
    paced := false, anchored := false, tickDue := false, parked := false, phase := .none, stalled := false, droveBad := false
    quiet := !busy, hold := none, pendingHold := none, faultHold := none, pendingFault := none, thermal := false, storm := false
    maintenance := false, restoreFailed := false, nextRun := none, passedOver := [], abortRun := false, abortNext := false
    ring := none, log := none, ckpts := [], shifts := [], inject := [], entered := [], inputs := [], digests := [] })

/-- TRACE messages of a copy are not written. -/
def Chip.dropTraces (c : Chip) : Chip :=
  { c with inFlight := c.inFlight.filter (fun m => (Hdr.of (nth 0 m.2 0)).kind != kTRACE) }

/-- Every tile of pasture `p` goes as far as it can, once. -/
def Chip.copyPass (c : Chip) (p : Nat) : Chip :=
  let ks := (c.past p).tiles.map (fun t => t.key)
  let each (f : Chip → Nat → Chip) (c : Chip) : Chip := ks.foldl f c
  let c := each (fun c k => c.spike p k) c
  let c := (each (fun c k => c.lapStart p k) c).leaveAll
  let c := c.lapVote p
  let c := each (fun c k => c.integrateTile p k) c
  let c := each (fun c k => c.windowMet k) c
  let c := each (fun c k => c.learnTile p k) c
  let c := each (fun c k => c.musterArrive p k) c
  (c.dropTraces).deliverAll [] (4096 + 4 * c.inFlight.length)

/-- The round of a copy run until every tile has arrived; none when it stands still before. -/
def Chip.copyRound (c : Chip) (p : Nat) : Nat → Option Chip
  | 0 => none
  | f + 1 =>
    let d := c.copyPass p
    if d.allArrived p then some d else if d = c then none else d.copyRound p f

/-- The next round of the copy of pasture `p`, with the words that the log has for it, and its digest: 0 for a skipped one. -/
def Chip.replayRound (c : Chip) (p : Nat) (ins : List (Nat × List W64)) : Option (Chip × Nat) :=
  let n := (c.past p).round.toNat
  let ws := match ins.find? (fun e => e.1 == n) with | some e => e.2 | none => []
  let c := c.updPast p (fun x => { x with inject := ws.map (fun w => { word := w, entry := none }) })
  if c.skipOk p then
    let c := (c.rotateAll (c.past p)).advance p
    some (c.updPast p (fun x => { x with skippedRun := x.skippedRun + 1, skippedTotal := x.skippedTotal + 1 }), 0)
  else match (c.startRound p).copyRound p 1048576 with
    | none => none
    | some c =>
      let d := (c.partialSum (c.past p)).toNat
      let c := (c.closeRound p).ladderMuster p n
      some (c.latchTemps (c.past p), d)

/-- How a replay ended. -/
inductive ReplayEnd
  | all
  | differs (k : Nat)
  | stuck (k : Nat)

/-- Rounds `k`, `k + 1`, … of the copy run and compared with what `want` gives. -/
def Chip.replayRounds (p : Nat) (ins : List (Nat × List W64)) (want : Nat → Nat) : Nat → Nat → Chip → Chip × ReplayEnd
  | 0, _, c => (c, .all)
  | n + 1, k, c =>
    match c.replayRound p ins with
    | none => (c, .stuck k)
    | some (d, s) => if s = want k then Chip.replayRounds p ins want n (k + 1) d else (d, .differs k)

/-! ### REPLAY_CHECK (R425, R848–R850) -/

/-- A unit implicated by a replay: on watch, and due for its tests at once (R850). -/
def Chip.implicate (c : Chip) (u : Nat) : Chip :=
  if unitExists u then (c.watchUnit u).updUnit u (fun x => { x with due := true }) else c

/-- Every core, bank and router that tiles touch is implicated. -/
def Chip.implicateTiles (c : Chip) (ts : List (Nat × Bool)) : Chip :=
  ts.foldl (fun c t =>
    let c := c.implicate (routerUnit t.1)
    if t.2 then (c.implicate (coreUnit t.1)).implicate (bankUnit t.1) else c) c

def Past.touched (x : Past) : List (Nat × Bool) := x.tiles.map (fun t => (t.key, t.core))

/-- DIGEST_MISMATCH of a pasture (R850, R879). -/
def Chip.mismatch (c : Chip) (ts : List (Nat × Bool)) : Chip :=
  ((c.count pgHEALTH 0x190 1).raise pgHEALTH 3).implicateTiles ts

/-- The tiles of a replay copy taken and, at the end, cleared (R465, R480). -/
def Chip.copyTilesDone (c : Chip) (ts : List (Nat × Bool)) : Chip :=
  ts.foldl (fun c t =>
    let c := c.takeUnit (routerUnit t.1)
    if t.2 then ((c.takeUnit (coreUnit t.1)).takeUnit (bankUnit t.1)).clearCore t.1 (fun _ => false)
    else c.clearRoute t.1 (fun _ => false)) c

/-- The end of the replay check of entry `e`: `first` is the checkpoint's round. -/
def Chip.replayDone (c : Chip) (e first n : Nat) (ts : List (Nat × Bool)) : ReplayEnd → Chip
  | .all => c.finishOk e (0xFFFFFFFF + n * 2 ^ 32)
  | .differs k =>
    (c.mismatch ts).finish e stDIGEST_MISMATCH ((first + k) % 2 ^ 32 + (k + 1) * 2 ^ 32) (progressWord (k * 100 / n) k)
  | .stuck k => c.finish e stSTALLED ((first + k) % 2 ^ 32 + k * 2 ^ 32) (progressWord (k * 100 / n) k)

/-- REPLAY_CHECK. -/
def Chip.doReplay (c : Chip) (e : Nat) : Chip :=
  c.onPast e (fun p x =>
    let r := c.entry e
    let a := r.bytes 32 8
    let n := r.bytes 48 4
    let far := match c.ladderOf p with | some (_, l) => l.freeMode && !l.local | none => false
    if n = 0 || 65536 < n || far then c.finishBad e stBAD_OPERAND
    else match c.hostStatus with
    | some st => c.finishBad e st
    | none =>
      let b := memReadN c.host a (leAt (memReadN c.host (a + 32) 4) 0 4)
      let m := Img.read b
      if !imgOk b b.length 2 || m.owner != p then c.finishBad e stBAD_OPERAND
      else match c.logAt a m with
      | none => c.finishBad e stBAD_OPERAND
      | some g =>
        if g.broken || g.logged < n then c.finishBad e stBAD_OPERAND
        else match c.searchAll m (fun _ => false) with
        | none => c.noPlace.finishBad e stNO_PLACE
        | some pm =>
          let s := (((c.freeTiles p x.tiles).install p m pm true).isolate p m)
          let ts := (s.past p).touched
          let c := c.placed
          let want (k : Nat) : Nat := leAt (memReadN c.host (r.bytes 40 8 + 8 * k) 8) 0 8
          let q : Chip × ReplayEnd :=
            if x.spans then
              let d := c.drawFree
              (d.1, if n ≤ (Config.freeReplay d.2).toNat then .all else .differs (Config.freeReplay d.2).toNat)
            else (c, (Chip.replayRounds p (c.logInputs g) want n 0 s).2)
          (q.1.copyTilesDone ts).replayDone e m.ckptRound n (x.touched ++ ts) q.2)

/-! ### The automatic restart (R864–R866) -/

/-- The pasture is held by a fault that only RESTORE or UNLOAD ends. -/
def Past.needsRestore (x : Past) : Bool :=
  match x.faultHold with
  | some s => [stSTALLED, stUNCORRECTED, stFENCED, stTHERMAL_HOLD, stPATH_LOST, stINTERNAL].contains s.toNat
  | none => false

/-- Pasture `p` qualifies for a restart (R864). -/
def Chip.mayRestart (c : Chip) (p : Nat) : Bool :=
  let x := c.past p
  x.needsRestore && x.ring.isSome && x.autoRestart && (x.restarts.filter (fun t => c.now < t + 3600000000)).length < 3

/-- The newest slot of the ring whose image CRC passes and whose OWNER is `p`, looked for from the newest backwards. -/
def Chip.newestSlot (c : Chip) (p : Nat) (g : CkptRing) : Option (Nat × List Byte) :=
  let k := g.slots.toNat
  (upto k).findSome? (fun i =>
    let s := (g.next.toNat + k - 1 - i) % max 1 k
    let a := g.base.toNat + s * g.slotLen.toNat
    let len := leAt (memReadN c.host (a + 32) 4) 0 4
    if g.slotLen.toNat < len || leAt (memReadN c.host a 4) 0 4 ≠ 0x4C4B5031 then none
    else
      let b := memReadN c.host a len
      if imgCrc b = leAt b 60 4 && (Img.read b).owner == p then some (a, b) else none)

/-- The state that a replay of pasture `p` on its own footprint has reached, taken over from the copy `s`: its core tiles,
its rounds and its ladder. -/
def Chip.takeReplayed (c : Chip) (p : Nat) (s : Chip) : Chip :=
  let y := s.past p
  let c := y.tiles.foldl (fun c t =>
    let u := s.tile t.key
    c.updTile t.key (fun old => { u with egress := old.egress })) c
  let c := c.updPast p (fun x =>
    let inj := if y.round = x.round then x.inject else []
    { x with round := y.round, skippedRun := y.skippedRun, skippedTotal := y.skippedTotal, quiet := y.quiet, inject := inj })
  match s.ladderOf p with
  | some (i, l) => c.putLadder i { l with running := false, entry := none }
  | none => c

/-- The end of a restart: its status and the round reached, and its event. -/
def Chip.restartEnds (c : Chip) (p st : Nat) : Chip :=
  let c := c.updPast p (fun x => { x with restartStatus := BitVec.ofNat 8 st, restartRound := x.round })
  if st = stOK then (c.count pgHEALTH 0x194 1).raise pgHEALTH 4 else c.raise pgHEALTH 5

/-- RESTART of pasture `p`, when it qualifies. -/
def Chip.restart (c : Chip) (p : Nat) : Chip :=
  if !c.mayRestart p then c
  else
    let c := c.updPast p (fun x => { x with restarts := c.now :: x.restarts.take 3 })
    match (c.past p).ring, c.hostStatus with
    | none, _ => c
    | some _, some st => c.restartEnds p st
    | some g, none =>
      match c.newestSlot p g with
      | none => c.restartEnds p stBAD_OPERAND
      | some (a, b) =>
        let r := c.restoreFrom p b
        if r.2 != stOK then r.1.restartEnds p r.2
        else
          let c := r.1
          let m := Img.read b
          match c.logAt a m with
          | none => c.restartEnds p stOK
          | some g =>
            if g.broken || (c.past p).spans then c.restartEnds p stOK
            else
              let s := c.isolate p m
              let q := Chip.replayRounds p (c.logInputs g) (c.logDigest g) g.logged 0 s
              match q.2 with
              | .all => (c.takeReplayed p q.1).restartEnds p stOK
              | .differs _ =>
                ((c.takeReplayed p q.1).updPast p (fun x => { x with restoreFailed := true })).restartEnds p stDIGEST_MISMATCH
              | .stuck _ => ((c.takeReplayed p q.1).updPast p (fun x => { x with restoreFailed := true })).restartEnds p stSTALLED

end Sys2Proof.Machine
end

