-- ==== Sys2Proof/Machine/Shelf.lean ====
section
/-! DEFINITION. The power shelf: its states, returns and lockout (R773–R777, R788–R791) and its PMBus commands
(R782–R784). -/

namespace Sys2Proof.Machine

/-! ### Events and states -/

/-- Bit `i` of MFR_SHELF_EVENTS set (R784). -/
def Shelf.event (x : Shelf) (i : Nat) : Shelf := { x with events := x.events ||| BitVec.ofNat 16 (2 ^ i) }

/-- PWR_STORM_N asserted (R778). -/
def Shelf.storm (x : Shelf) : Shelf := if x.stormLow then x else { x with stormLow := true }.event 0

/-- BATTERY entered, counted in MFR_STORM_COUNT; qualification runs at once while mains is adequate, but not in a test
(R775, R784, R788). -/
def Shelf.toBattery (x : Shelf) : Shelf :=
  { x with state := .battery, qualifying := x.adequate && !x.testing, stormCount := BitVec.ofNat 16 (min 0xFFFF (x.stormCount.toNat + 1)) }

/-- RAMP entered as a return: the third within 60 s sets LOCKOUT (R776). -/
def Shelf.toRamp (x : Shelf) : Shelf :=
  let l := x.now :: x.returns.take 2
  let third := match l with | [_, _, t] => decide (x.now ≤ t + 60000000) | _ => false
  let x := { x with state := ShelfState.ramp, qualifying := false, returns := l }
  if third then { x with lockout := true }.event 3 else x

/-- A lapse of adequacy ends a running qualification. -/
def Shelf.lapse (x : Shelf) : Shelf := if x.qualifying then { x with qualifying := false }.event 7 else x

/-- MAINS_LOSS: mains is no longer adequate (R775, R788). -/
def Shelf.mainsLoss (x : Shelf) : Shelf :=
  let x := { x with adequate := false }
  match x.state with
  | .mains => { x with state := .handover }
  | .handover => { x with testing := false }
  | .battery => if x.testing then { x with testing := false }.storm else x.lapse
  | .ramp => if x.testing then ({ x with testing := false }.toBattery).storm else x.toBattery
  | .off => x.lapse

/-- MAINS_RETURN: mains is adequate again; a qualification starts from zero in BATTERY and OFF (R775, R789). -/
def Shelf.mainsReturn (x : Shelf) : Shelf :=
  let x := { x with adequate := true }
  match x.state with
  | .battery => if x.testing then x else { x with qualifying := true }
  | .off => { x with qualifying := true }
  | _ => x

/-- HANDOVER_END after `us` microseconds from the loss: BATTERY, with PWR_STORM_N except in a test (R775, R778, R788). -/
def Shelf.handoverEnd (x : Shelf) (us : W16) : Shelf :=
  if x.state != .handover then x
  else
    let y := { x with handoverUs := us }.toBattery
    if x.testing then y else y.storm

/-- QUALIFY_COMPLETE: mains has stayed adequate for RETURN_QUALIFY, or for 60 s under LOCKOUT (R775, R776). -/
def Shelf.qualified (x : Shelf) : Shelf :=
  if (x.state == .battery || x.state == .off) && x.adequate && x.qualifying && !x.testing then x.toRamp else x

/-- RAMP_END: MAINS, with PWR_STORM_N deasserted and the reserve no longer in use (R775, R778). -/
def Shelf.rampEnd (x : Shelf) : Shelf :=
  if x.state != .ramp then x
  else
    let y := { x with state := ShelfState.mains, testing := false, mainsSince := x.now, reserve := false, stormLow := false }
    if x.stormLow then y.event 1 else y

/-- RESERVE: in BATTERY only (R781, R791). -/
def Shelf.atReserve (x : Shelf) : Shelf :=
  if x.state != .battery then x else { x with reserve := true, soc := x.reserveLevel }.event 2

/-- CUTOFF: the output goes off; where mains is adequate, as in a test, it qualifies for the return (R775, R789). -/
def Shelf.atCutoff (x : Shelf) : Shelf :=
  if x.state != .battery then x else { x with state := ShelfState.off, soc := x.cutoffLevel, testing := false, qualifying := x.adequate }.event 6

/-- LOCKOUT_CLEAR: after 60 s in MAINS (R776). -/
def Shelf.lockoutEnd (x : Shelf) : Shelf :=
  if x.state == .mains && x.lockout && x.mainsSince + 60000000 ≤ x.now then { x with lockout := false } else x

/-- HANDOVER_TEST_END: the 10 s of a test are over; RAMP, which is no return (R788). -/
def Shelf.testEnd (x : Shelf) : Shelf :=
  if x.state == .battery && x.testing then { x with state := .ramp } else x

/-! ### PMBus (R782–R784) -/

/-- A command answered with NACK, `b` being its bit of STATUS_CML: 7 for an invalid command, 6 for invalid data. -/
def Shelf.nack (x : Shelf) (b : Nat) : Shelf := { x with reply := none, statusCml := x.statusCml ||| BitVec.ofNat 8 (2 ^ b) }

/-- A command answered with `n` bytes of value `v`. -/
def Shelf.give (x : Shelf) (n v : Nat) : Shelf := { x with reply := some (natLe n v) }

/-- A write that was taken. -/
def Shelf.taken (x : Shelf) : Shelf := { x with reply := some [] }

/-- SMBALERT# is asserted: a status bit or an event bit is set (R782). -/
def Shelf.smbAlert (x : Shelf) : Bool := x.statusCml != 0 || x.events != 0

/-- A command that is only read, on the pages that have it. -/
def Shelf.readOnly (x : Shelf) (w : PmData) (pages : Nat → Bool) (f : Shelf → Shelf) : Shelf :=
  match w with
  | none => if pages x.page.toNat then f x else x.nack 7
  | some _ => x.nack 7

def everyPage : Nat → Bool := fun _ => true
def pages1to8 (p : Nat) : Bool := 1 ≤ p && p ≤ 8

/-- A word of the shelf that is read and written within a range. -/
def Shelf.wordLimits (x : Shelf) (w : PmData) (v : W16) (lo hi : Nat) (f : W16 → Shelf) : Shelf :=
  match w with
  | none => x.give 2 v.toNat
  | some b =>
    let n := leAt b 0 2
    if b.length = 2 && lo ≤ n && n ≤ hi then (f (BitVec.ofNat 16 n)).taken else x.nack 6

/-- PAGE. -/
def Shelf.doPage (x : Shelf) (w : PmData) : Shelf :=
  match w with
  | none => x.give 1 x.page.toNat
  | some b => if b.length = 1 && leAt b 0 1 ≤ 9 then { x with page := BitVec.ofNat 8 (leAt b 0 1) }.taken else x.nack 6

/-- OPERATION of the rectifier of the page: 0x80 on, 0x00 off. -/
def Shelf.doOperation (x : Shelf) (w : PmData) : Shelf :=
  let i := x.page.toNat - 1
  if !pages1to8 x.page.toNat then x.nack 7
  else match w with
    | none => x.give 1 (if x.rectOn.getLsbD i then 0x80 else 0)
    | some b =>
      if b = [0x80] then { x with rectOn := x.rectOn ||| BitVec.ofNat 8 (2 ^ i) }.taken
      else if b = [0x00] then { x with rectOn := x.rectOn &&& ~~~(BitVec.ofNat 8 (2 ^ i)) }.taken
      else x.nack 6

/-- The number of a shelf state (R773). -/
def shelfNum : ShelfState → Nat
  | .off => 0 | .mains => 1 | .handover => 2 | .battery => 3 | .ramp => 4

/-- MFR_SHELF_STATE. -/
def Shelf.stateByte (x : Shelf) : Nat :=
  shelfNum x.state + 16 * b2n x.qualifying + 32 * b2n x.lockout + 64 * b2n x.reserve + 128 * b2n x.stormLow

/-- MFR_SHELF_EVENTS: read, or write 1 to clear. -/
def Shelf.doEvents (x : Shelf) (w : PmData) : Shelf :=
  match w with
  | none => x.give 2 x.events.toNat
  | some b => if b.length = 2 then { x with events := x.events &&& ~~~(BitVec.ofNat 16 (leAt b 0 2)) }.taken else x.nack 6

/-- Entry `i` of MFR_RETURN_LOG: seconds since the return. -/
def Shelf.since (x : Shelf) (i : Nat) : Nat :=
  match x.returns[i]? with | some t => min 0xFFFFFFFE ((x.now - t) / 1000000) | none => 0xFFFFFFFF

/-- MFR_RETURN_LOG. -/
def Shelf.returnLog (x : Shelf) : Shelf := { x with reply := some ((upto 3).flatMap (fun i => natLe 4 (x.since i))) }

/-- A word that the shelf measures, a free value (assumption 10), with `f` bounding it. -/
def State.measured (s : State) (w : PmData) (code : Nat) (pages : Nat → Bool) (bytes : Nat) (f : Nat → Nat) : State :=
  let d := s.chip.drawFree
  let v := f (Config.freeReading d.2 code s.shelf.page.toNat).toNat
  { s with chip := d.1, shelf := s.shelf.readOnly w pages (fun x => x.give bytes v) }

/-- A status byte or word: its CML bit is known, what the shelf measures is free. -/
def State.status (s : State) (w : PmData) (code bytes : Nat) : State :=
  let cml := b2n (s.shelf.statusCml != 0)
  s.measured w code everyPage bytes (fun v => if bytes = 2 || code = 0x78 then setBits v 1 1 cml else v)

/-- The state of charge measured now. -/
def State.chargeNow (s : State) : State × Nat :=
  let d := s.chip.drawFree
  let v := min 1000 (Config.freeReading d.2 0xD2 0).toNat
  ({ s with chip := d.1, shelf := { s.shelf with soc := BitVec.ofNat 16 v } }, v)

/-- MFR_BATT_SOC. -/
def State.chargeRead (s : State) (w : PmData) : State :=
  match w with
  | some _ => { s with shelf := s.shelf.nack 7 }
  | none =>
    let r := s.chargeNow
    { r.1 with shelf := r.1.shelf.give 2 r.2 }

/-- MFR_TEST_HANDOVER: 0xA5, in MAINS with the charge at 90 % or more and RESERVE clear (R788). -/
def State.testHandover (s : State) (w : PmData) : State :=
  match w with
  | none => { s with shelf := s.shelf.nack 7 }
  | some b =>
    let r := s.chargeNow
    if b = [0xA5] && r.1.shelf.state == .mains && 900 ≤ r.2 && !r.1.shelf.reserve then
      { r.1 with shelf := { r.1.shelf with state := .handover, testing := true }.taken }
    else { r.1 with shelf := r.1.shelf.nack 6 }

end Sys2Proof.Machine
end

