-- ==== Sys2Proof/Machine/Sled.lean ====
section
/-! DEFINITION. The sled controller and the rack manager's side of the bridge: datagrams and their answers (R804, R805), power
sequencing and PROFILE pins (R621–R624, R760, R795), enumeration (R765–R768), notices (R778, R790) and the reserve
shutdown (R781). -/

namespace Sys2Proof.Machine

/-! ### Frames to the package -/

/-- The sled controller delivers a frame on the SMBus segment and reads its response, if one comes at once. -/
def Chip.sledFrame (c : Chip) (hold : Bool) (f : List Byte) : Chip × Option (List Byte) :=
  let r := c.smbusWrite f
  if !r.2 then (r.1, none)
  else
    let n := r.1.crook.smbus.length
    let d := r.1.crookServe hold 64
    match (d.crook.smbus.drop n).find? (fun g => leAt g 0 1 = leAt f 0 1 && leAt g 2 2 = leAt f 2 2) with
    | none => (d, none)
    | some g => ({ d with crook := { d.crook with smbus := d.crook.smbus.take n ++ (d.crook.smbus.drop n).erase g } }, some g)

/-- The sled slot `k`. -/
def Sled.slotAt (x : Sled) (k : DieId) : SledSlot := nth { rails := false, porLow := true, pins := 0 } x.slots k.val
def Sled.setSlot (x : Sled) (k : DieId) (f : SledSlot → SledSlot) : Sled := { x with slots := listSet x.slots k.val (f (x.slotAt k)) }

/-! ### Datagrams (R804, R805) -/

/-- A datagram of kind `kind` for slot `slot` with a body (R804). -/
def Sled.datagram (x : Sled) (kind : Nat) (slot : DieId) (seq : W32) (body : List Byte) : List Byte :=
  natLe 2 0x4C4D ++ natLe 1 1 ++ natLe 1 kind ++ natLe 1 x.rack.toNat ++ natLe 1 x.place.toNat ++ natLe 1 slot.val ++ natLe 1 0
    ++ natLe 4 seq.toNat ++ natLe 2 body.length ++ natLe 2 0 ++ body

/-- The answer `a` to sequence number `seq` sent and kept with the last 64. -/
def Sled.answered (x : Sled) (seq : W32) (a : List Byte) : Sled := { x with answer := a, answers := (seq, a) :: x.answers.take 63 }

/-- A datagram arrives: a repeat is answered from the store; a new one is carried out by `f`, which gives its answer. -/
def State.onDatagram (s : State) (seq : W32) (f : State → State × List Byte) : State :=
  match s.sled.answers.find? (fun e => e.1 == seq) with
  | some e => { s with sled := { s.sled with answer := e.2 } }
  | none =>
    let r := f s
    { r.1 with sled := r.1.sled.answered seq r.2 }

/-- A SLED_REQ of code `code` carried out by `f`, answered with its result. -/
def State.onRequest (s : State) (seq : W32) (slot : DieId) (code : Nat) (f : State → State) : State :=
  s.onDatagram seq (fun s =>
    let t := f s
    (t, t.sled.datagram 3 slot seq (natLe 1 5 ++ natLe 1 code ++ natLe 1 stOK)))

/-- TO_PACKAGE. A frame for another slot reaches a package that this model does not hold. -/
def State.toPackage (s : State) (seq : W32) (slot : DieId) (f : List Byte) : State :=
  s.onDatagram seq (fun s =>
    if slot = s.sled.slot then
      let r := s.chip.sledFrame s.sled.stormHold f
      ({ s with chip := r.1 }, match r.2 with | some g => s.sled.datagram 1 slot seq g | none => [])
    else (s, []))

/-- BRIDGE_RETRY: the datagram `seq` comes again (R805). -/
def State.bridgeRetry (s : State) (seq : W32) : State :=
  match s.sled.answers.find? (fun e => e.1 == seq) with
  | some e => { s with sled := { s.sled with answer := e.2 } }
  | none => s

/-! ### Power and pins (R621–R624, R760, R795) -/

/-- The rails come into range and POR_N is released; a package that is up already is left alone. -/
def Chip.powerUp (c : Chip) (pins : BitVec 2) : Chip :=
  if c.porLow then { c with railsOut := false }.porRelease pins else c.railRecovery pins

/-- POR_N is asserted and the rails go off after it (R623). -/
def Chip.powerDown (c : Chip) : Chip := { c.porAssert with railsOut := true }

/-- Slot `k` powered up. -/
def State.slotOn (s : State) (k : DieId) : State :=
  let pins := (s.sled.slotAt k).pins
  let s := { s with sled := s.sled.setSlot k (fun e => { e with rails := true, porLow := false }) }
  if k = s.sled.slot then { s with chip := s.chip.powerUp pins, sled := { s.sled with shutdown := 0 } } else s

/-- Slot `k` powered down. -/
def State.slotOff (s : State) (k : DieId) : State :=
  let s := { s with sled := s.sled.setSlot k (fun e => { e with rails := false, porLow := true }) }
  if k = s.sled.slot then { s with chip := s.chip.powerDown } else s

/-- The PROFILE pins of slot `k` driven; the package samples them at its next release of POR_N. -/
def State.drivePins (s : State) (k : DieId) (pins : BitVec 2) : State :=
  { s with sled := s.sled.setSlot k (fun e => { e with pins := pins }) }

/-- STATE_GET: rails, POR_N low and pins of each slot, one byte a slot. -/
def Sled.stateBytes (x : Sled) : List Byte :=
  natLe 1 4 ++ (x.slots.flatMap (fun e => natLe 1 (b2n e.rails + 2 * b2n e.porLow + 4 * e.pins.toNat)))

def State.stateGet (s : State) (seq : W32) : State :=
  s.onDatagram seq (fun s => (s, s.sled.datagram 3 s.sled.slot seq s.sled.stateBytes))

/-- SLED_POWER_UP: the next sled in rising slot number while the shelf is in MAINS; this sled powers its four packages. -/
def State.sledPowerUp (s : State) : State :=
  if s.shelf.state != .mains || 16 ≤ s.sled.powered then s
  else
    let n := s.sled.powered
    let s := { s with sled := { s.sled with powered := n + 1 } }
    if n = s.sled.place.toNat then [0, 1, 2, 3].foldl (fun (s : State) (k : DieId) => s.slotOn k) s else s

/-! ### Enumeration (R765–R768) -/

/-- DX and DY of a machine of `n` racks. -/
def rackDims (n : Nat) : Nat × Nat :=
  if n ≤ 1 then (4, 4) else if n = 2 then (8, 4) else if n = 3 then (8, 6) else (8, 8)

/-- TORUS_DIM and TORUS_POS of the package of this model, and the package number of slot 0 of its sled. -/
def Sled.torus (x : Sled) : Nat × Nat × Nat :=
  let d := if x.standalone then (1, 1) else rackDims x.racks.toNat
  let i := if x.standalone then 0 else 16 * x.rack.toNat + x.place.toNat
  let px := i % d.1
  let py := i / d.1
  (d.1 + 16 * d.2 + 256 * 4, px + 16 * py + 256 * x.slot.val, px + d.1 * py)

/-- ENUMERATION, once the firmware of the package runs (R767). -/
def State.enumerate (s : State) : State :=
  if s.chip.held || s.chip.recovery then s
  else
    let t := s.sled.torus
    let c := (s.chip.writeAt (pgLINK * 4096 + 0x180) t.1 3 none).1
    let c := (c.writeAt (pgLINK * 4096 + 0x184) t.2.1 3 none).1
    let c := (c.writeAt (pgGATE * 4096 + 0x10C) t.2.2 3 none).1
    { s with chip := (c.writeAt (pgLINK * 4096 + 0x00C) 1 3 none).1 }

/-! ### Notices (R778, R779, R790, R793) -/

/-- The notice sent to the package as a NOTICE frame; one that it does not take is held. -/
def State.sendNotice (s : State) (storm : Bool) : State :=
  let f := requestFrame 0x12 0 (natLe 1 (if storm then 1 else 2))
  if s.chip.held || 8 ≤ s.chip.crook.smbus.length then { s with sled := { s.sled with heldNotice := some storm } }
  else { s with chip := (s.chip.sledFrame s.sled.stormHold f).1, sled := { s.sled with heldNotice := none } }

/-- A notice that reaches the sled controller over the network is passed on once. -/
def State.passNotice (s : State) (storm : Bool) : State :=
  if s.sled.noticed = some storm then s
  else { s with sled := { s.sled with noticed := some storm } }.sendNotice storm

/-- A notice that waits for the package to answer. -/
def State.passHeld (s : State) : State :=
  match s.sled.heldNotice with
  | some n => if s.chip.held then s else s.sendNotice n
  | none => s

/-- The package receives a notice on its SMBus segment; while its Crook does not answer, the sled controller holds it. -/
def State.notice (s : State) (storm : Bool) : State :=
  let s := { s with sled := { s.sled with noticed := some storm } }
  if s.chip.held || s.chip.recovery then { s with sled := { s.sled with heldNotice := some storm } }
  else
    let c := if storm then s.chip.powerStorm s.sled.stormHold else s.chip.powerCalm
    { s with chip := c, sled := { s.sled with heldNotice := none } }

/-! ### The reserve shutdown (R781, R791) and the loss of the bus -/

/-- RESERVE at the shelf, in BATTERY alone: the shutdown begins, with every resident pasture held at its next muster (R781, R791). -/
def State.atReserve (s : State) : State :=
  if s.shelf.state != .battery then s
  else
    let s := { s with shelf := s.shelf.atReserve }
    if s.sled.standalone || s.sled.shutdown != 0 then s
    else { s with chip := s.chip.residents.foldl (fun c p => c.stormHoldPast p) s.chip, sled := { s.sled with shutdown := 1 } }

/-- What the shutdown waits for has come: the save starts once none runs, and at its end the sled goes dark. -/
def State.shutdownSteps (s : State) : State :=
  let s :=
    if s.sled.shutdown = 1 && s.chip.nv.shelter.isNone && !s.chip.held then
      { s with chip := (s.chip.writeAt (pgNVS * 4096 + 0x120) 1 3 none).1, sled := { s.sled with shutdown := 2 } }
    else s
  if (s.sled.shutdown = 1 && s.chip.held) || (s.sled.shutdown = 2 && s.chip.nv.shelter.isNone) then
    let s := [0, 1, 2, 3].foldl (fun (s : State) (k : DieId) => s.slotOff k) s
    { s with sled := { s.sled with shutdown := 3 } }
  else s

/-- CUTOFF: with the bus at 0 V every supply of a rack package is gone; the sleds are to be powered again (R773, R775, R795). -/
def State.atCutoff (s : State) : State :=
  let off := s.shelf.state == .battery && !s.sled.standalone
  let s := { s with shelf := s.shelf.atCutoff }
  if !off then s
  else
    let slots := s.sled.slots.map (fun (e : SledSlot) => { e with rails := false, porLow := true })
    { s with chip := { s.chip.powerOn with railsOut := true }, sled := { s.sled with slots := slots, powered := 0, shutdown := 0 } }

/-! ### Supply and reset pins of the package -/

/-- What the pins of the package show in its slot. -/
def State.pinPor (s : State) (low : Bool) (pins : Option (BitVec 2)) : State :=
  { s with sled := s.sled.setSlot s.sled.slot (fun e => { e with porLow := low, pins := pins.getD e.pins }) }

end Sys2Proof.Machine
end

