-- ==== Sys2Proof/Machine/Tap.lean ====
section
/-! DEFINITION. The test access port (R810, R937–R939, R946, R948), the debug aperture (R649, R652, R814), and what every
command ends with. -/

namespace Sys2Proof.Machine

/-! ### Boundary scan -/

/-- The cells that drive a pad: AERx_ACK, SMB_SCL, SMB_SDA, ALERT_N, UART_TX, THERM_TRIP_N, GATE_WAKE_N and GATE_CLKREQ_N,
each with its enable at the next number (R939). -/
def outCells : List Nat := [25, 52, 54, 56, 58, 61, 66, 69, 71]

/-- Of a boundary value, what the port drives: each enabled output cell with its enable. -/
def drivenOf (b : BitVec 73) : BitVec 73 :=
  BitVec.ofNat 73 ((outCells.filter (fun i => b.getLsbD (i + 1))).map (fun i => 2 ^ (i + 1) + b2n (b.getLsbD i) * 2 ^ i)).sum

/-- EXTEST: the pads sampled, the new value shifted in and driven; with POR_N high it acts as BYPASS. -/
def Tap.extest (t : Tap) (porLow : Bool) (tdi pads : BitVec 73) : Tap :=
  if porLow then { t with ir := 0x00, bypass := false, boundary := tdi, driven := drivenOf tdi, shiftedOut := pads }
  else { t with ir := 0x00, bypass := true, driven := 0, shiftedOut := 0 }

/-- The identification register (R938). -/
def identity (gen : Nat) : Nat := 1 + Config.jep106.toNat * 2 + Config.partNumber.toNat * 2 ^ 12 + gen % 16 * 2 ^ 28

/-- IDCODE. -/
def Tap.idcode (t : Tap) (gen : Nat) : Tap :=
  { t with ir := 0x01, bypass := false, driven := 0, shiftedOut := BitVec.ofNat 73 (identity gen) }

/-- SAMPLE/PRELOAD. -/
def Tap.sample (t : Tap) (tdi pads : BitVec 73) : Tap :=
  { t with ir := 0x02, bypass := false, boundary := tdi, driven := 0, shiftedOut := pads }

/-- CLAMP: the preloaded value driven, BYPASS selected; with POR_N high it acts as BYPASS. -/
def Tap.clamp (t : Tap) (porLow : Bool) : Tap :=
  { t with ir := 0x04, bypass := true, driven := if porLow then drivenOf t.boundary else 0, shiftedOut := 0 }

/-- BYPASS: the register captures 0 and shifts `tdi` in, which the next shift gives. -/
def Tap.doBypass (t : Tap) (tdi : Bool) : Tap :=
  let was := t.ir == 0xFF && t.bypass && t.shiftedOut.getLsbD 1
  { t with ir := 0xFF, bypass := true, driven := 0, shiftedOut := BitVec.ofNat 73 (b2n was + 2 * b2n tdi) }

/-- POR_N is high: EXTEST and CLAMP act as BYPASS, the instruction register keeps its value (R946). -/
def Tap.porHigh (t : Tap) (porLow : Bool) : Tap :=
  if !porLow && (t.ir == 0x00 || t.ir == 0x04) then { t with bypass := true, driven := 0 } else t

/-! ### BAR4 -/

/-- The banks that BAR4 reaches. -/
inductive Aperture
  | tile (k : Nat)
  | commons
  | crook
  | none

/-- What offset `a` of BAR4 reaches, and the byte offset there (R814). -/
def Chip.apertureAt (c : Chip) (a : Nat) : Aperture × Nat :=
  let v := (c.page pgAUTH).rd 0x120
  let k := tileKey (bits v 1 0) (bits v 9 2)
  if a < 0x100000 then (if a < 8 * tileWords k then .tile k else .none, a)
  else if 0x1000000 ≤ a && a < 0x2000000 then (.commons, a - 0x1000000)
  else if 0x2000000 ≤ a && a < 0x2040000 then (.crook, a - 0x2000000)
  else (.none, 0)

/-- The Crook bank with the CROOK page. -/
def Chip.crookCtx (c : Chip) : BankCtx := { b := c.crookBank, pg := c.page pgCROOK, off := 0, words := 32768, plain := true }

/-- The word of a bank that byte offset `a` lies in, and the bank after the read. -/
def Chip.apertureRead (c : Chip) (m : Aperture) (a : Nat) : Chip × Nat :=
  match m with
  | .tile k =>
    if !c.bankOn k then (c, 0)
    else
      let r := (c.tile k).bankCtx.read (a / 8)
      (c.updTile k (fun t => t.putBank r.1), r.2.getD 0)
  | .commons =>
    if !c.domOn domCOMMONS then (c, 0)
    else
      let r := c.commonsCtx.read (a / 8)
      (c.putCommons r.1, r.2.getD 0)
  | .crook =>
    let r := c.crookCtx.read (a / 8)
    ({ c with crookBank := r.1.b }.putPage pgCROOK r.1.pg, r.2.getD 0)
  | .none => (c, 0)

/-- `n` bytes of value `v` written at byte offset `a` of a bank. -/
def Chip.apertureWrite (c : Chip) (m : Aperture) (a n v : Nat) : Chip :=
  match m with
  | .tile k =>
    if !c.bankOn k then c
    else c.updTile k (fun t =>
      let t := t.putBank (t.bankCtx.writePart a n v).1
      if tileKind (k % 256) = .neuron && touchesRecords a n then { t with nc := { t.nc with recount := true } } else t)
  | .commons => if c.domOn domCOMMONS then c.putCommons (c.commonsCtx.writePart a n v).1 else c
  | .crook => c
  | .none => c

/-- DEBUG_APERTURE_ACCESS of 4 or 8 bytes at offset `a` of BAR4. -/
def Chip.aperture (c : Chip) (write : Bool) (a : Nat) (vs : List Nat) : Chip :=
  let zero := Answer.data (List.replicate vs.length 0)
  if c.held || !c.barOpen then c.say .none
  else if !(c.dbgLock.isOpen && c.dbgLock.scope.getLsbD 1) then (c.gateFault stNO_AUTHORITY a).say (if write then .data [] else zero)
  else if !barShape a vs.length then (c.gateFault stBAD_OPERAND a).say (if write then .data [] else zero)
  else
    let m := c.apertureAt a
    if write then
      (c.apertureWrite m.1 m.2 (4 * vs.length) ((nth 0 vs 0) % 2 ^ 32 + (nth 0 vs 1) * 2 ^ 32)).say (.data [])
    else
      let r := c.apertureRead m.1 m.2
      let w := if m.2 % 8 = 0 then r.2 else r.2 / 2 ^ 32
      r.1.say (.data (if vs.length = 2 then [w % 2 ^ 32, w / 2 ^ 32] else [w % 2 ^ 32]))

/-! ### What every command ends with -/

/-- The state after a command that gave `t`: what the sled controller waits for takes place, messages are delivered, and the
TAP follows POR_N. -/
def State.settledTo (s t : State) : State :=
  let t := t.passHeld.shutdownSteps
  let d := settle s.sled.stormHold s.chip t.chip
  { t with chip := d, tap := t.tap.porHigh d.porLow }

/-- The state after a command that has left the package as `c` and changed nothing else itself. -/
def State.settled (s : State) (c : Chip) : State := s.settledTo { s with chip := c }

end Sys2Proof.Machine
end

