-- ==== Sys2Proof/WellFormed.lean ====
section
/-! DEFINITION. The shape that the port of arrival gives each list operand: the word count of a message (R98, R99), the
256 bytes of a rack-link frame (R719), the register count of an access (R890), the sensor count of a sample (R564). -/

namespace Sys2Proof

/-- Bits [hi:lo] of a word. -/
def wordField (w : W64) (hi lo : Nat) : Nat := w.toNat / 2 ^ lo % 2 ^ (hi + 1 - lo)

/-- The words of a DATA message after its header: the second word and as many words as it gives (R120). -/
def dataShape : List W64 → Bool
  | [] => false
  | w :: l => decide (1 ≤ l.length) && l.length == wordField w 55 48

/-- The words of a READ_RESP after its header: the second word and its data, none when ERROR is set (R126). -/
def respShape : List W64 → Bool
  | [] => false
  | w :: l =>
    if wordField w 38 38 = 1 then l.isEmpty
    else if wordField w 39 39 = 1 then l.length == (wordField w 51 48 + 2) / 2
    else l.length == wordField w 51 48 + 1

/-- A register access names 1–64 registers. -/
def valsShape (l : List W32) : Bool := decide (1 ≤ l.length) && decide (l.length ≤ 64)

/-- A command is well formed: each of its list operands has the shape its port gives it. -/
def Instr.wf : Instr → Bool
  | .commandShare _ ws => ws.length == 8
  | .torderNop _ _ _ ws => ws.length == 8
  | .runChain _ _ _ ws => ws.length == 8
  | .clear _ _ _ ws _ => ws.length == 8
  | .test _ _ _ ws _ => ws.length == 8
  | .torderReset _ _ _ ws => ws.length == 8
  | .bankWrite _ _ ws => dataShape ws
  | .readResp _ ws => respShape ws
  | .registerWrite _ _ _ vs => valsShape vs
  | .machineWindowAccess _ _ vs => valsShape vs
  | .throttleSample s => s.length == 32
  | .dataFrame _ f _ _ => f.length == 256
  | .idleFrame _ f _ _ => f.length == 256
  | .hello _ f _ _ => f.length == 256
  | .leave _ f _ _ => f.length == 256
  | .debugApertureAccess _ _ vs => valsShape vs
  | _ => true

end Sys2Proof
end

