-- ==== Sys2Proof/Machine/Events.lean ====
section
/-! DEFINITION. What is left between a command and the operations: the ways a command enters, the stall watchdog, the shared
pools, and the router events of the mesh. -/

namespace Sys2Proof.Machine

/-! ### How a command enters -/

/-- What a command answers. -/
abbrev Ans := Host.Outcome State Fault Refusal

/-- A command of the package: while it is held in reset nothing takes effect (R622). -/
def State.run (s : State) (f : Chip → Chip) : Ans := if s.chip.held then .next s else .next (s.settled (f s.chip))

/-- A command that acts on the package in reset too. -/
def State.runAny (s : State) (f : Chip → Chip) : Ans := .next (s.settled (f s.chip))

/-- A frame at the package's Crook, served at once when its turn comes. -/
def State.runFrame (s : State) (f : Chip → Chip) : Ans := s.runAny (fun c => (f c).flush.crookServe s.sled.stormHold 64)

/-- A command of the boards around the package. -/
def State.runWhole (s : State) (f : State → State) : Ans := .next (s.settledTo (f s))

/-- A command of the power shelf alone. -/
def State.runShelf (s : State) (f : Shelf → Shelf) : Ans := .next { s with shelf := f s.shelf }

/-- A command of the TAP alone. -/
def State.runTap (s : State) (f : Tap → Tap) : Ans := .next { s with tap := f s.tap }

/-- A command whose operands must keep the shape of its port. -/
def shaped (i : Instr) (a : Ans) : Ans := if i.wf then a else .fault .illFormed

/-- A register written through the mesh or a frame by class `o` (R797). -/
def Chip.regWrite (c : Chip) (o : Origin) (a v : Nat) : Chip := (c.writeAt a v (originNum o) none).1

/-- The address of a register of base-die page `n`. -/
def regAt (n off : Nat) : Nat := n * 4096 + off

/-- The address of register `off` of a numbered page of the package view. -/
def pageReg (pg : PageId) (off : Nat) : Nat := pg.val * 4096 + off

def tkey (d : DieId) (t : TileId) : Nat := tileKey d.val t.val

/-! ### The stall watchdog (R180–R184) -/

/-- STALL_LIMIT of a pasture in microseconds (R171). -/
def Past.stallMicros (x : Past) : Nat := 1000 * (if x.stallLimit = 0 then 10 else x.stallLimit.toNat)

/-- The commands of pasture `p` that wait for a muster or a cut end with `st` (R181). -/
def Chip.endWaiting (c : Chip) (p st : Nat) : Chip :=
  let x := c.past p
  let es := x.ckpts ++ x.shifts.map (fun e => e.1) ++ (x.inject.filterMap (fun e => e.entry)).eraseDups
  let c := c.updPast p (fun x => { x with ckpts := [], shifts := [], inject := x.inject.map (fun e => { e with entry := none }) })
  es.foldl (fun c e => c.finishBad e.val st) c

/-- STALL_FREEZE of pasture `p`, once it has made no progress for STALL_LIMIT: UNCORRECTED in place of STALLED when a drove
entry could not be read (R184). -/
def Chip.stallFreeze (c : Chip) (p : Nat) : Chip :=
  let x := c.past p
  if !c.runsOn p || c.now < x.progressAt + x.stallMicros then c
  else
    let st := if x.droveBad then stUNCORRECTED else stSTALLED
    ((c.raise pgMUSTER 3).stall p st c.snapshot).endWaiting p st

/-! ### The RTC (R91, R601) -/

/-- The RTC shows VALID, and the pastures that waited for it may start their rounds (R91). -/
def Chip.rtcValid (c : Chip) (r : Rtc) : Chip :=
  let c : Chip := { c with rtc := { r with valid := true } }
  c.residents.foldl (fun c p => c.due p) c

/-- RTC_LOCK: the loop locks on the crystal. -/
def Chip.rtcLocks (c : Chip) : Chip := c.rtcValid { c.rtc with locked := true, internal := false }

/-- XTAL_FAIL: the crystal has not started within 1 s; the RTC runs from the internal oscillator. -/
def Chip.xtalFails (c : Chip) : Chip :=
  if c.rtc.valid then c else (c.raise pgRTC 2).rtcValid { c.rtc with internal := true }

/-! ### DMA errors (R679) -/

/-- The work of a command other than COPY that reads host memory, by the opcode of entry `e`. -/
def Chip.hostReader (c : Chip) (e : Nat) : Option (Chip → Chip) :=
  let x := c.entry e
  match x.opcode with
  | 0x11 => some (fun c => c.doInject e)
  | 0x12 => some (fun c => c.doReplay e)
  | 0x41 => if bit (x.bytes 44 1) 0 then none else some (fun c => c.doLoad e)
  | 0x43 => some (fun c => c.doPageIn e)
  | 0x45 => some (fun c => c.doRestore e)
  | _ => none

/-- The command of entry `e` starts, and its read of host memory is answered with an error. -/
def Chip.hostReadFails (c : Chip) (e aer : Nat) : Chip :=
  match c.hostReader e with
  | none => c
  | some f =>
    if (c.entry e).state != .ready then c
    else
      let d := ({ c with gate := { c.gate with dmaBad := true } } : Chip).start e (c.entry e).opcode f
      let d : Chip := { d with gate := { d.gate with dmaBad := false } }
      if (d.entry e).state == .completing && (d.entry e).status.toNat = stUNCORRECTED then d.dmaError aer else d

/-- DMA_COMPLETION for entry `e`. -/
def Chip.dmaAnswer (c : Chip) (e : Nat) (a : DmaAnswer) : Chip :=
  if c.waitsHost e then c.dmaCompletion e a
  else match a with
    | .ok => c
    | .unsupported => c.hostReadFails e 20
    | .completerAbort => c.hostReadFails e 15
    | .poisoned => c.hostReadFails e 12

/-- DMA_COMPLETION_TIMEOUT for entry `e`. -/
def Chip.dmaLate (c : Chip) (e : Nat) : Chip := if c.waitsHost e then c.dmaTimeout e else c.hostReadFails e 14

/-! ### Shared pools (R371, R372) -/

def poolSize (i : Nat) : Nat := if i = 0 then 128 else 64

/-- POOL_GRANT: the oldest request that waits for pool `i` takes a freed unit. -/
def Chip.poolGrant (c : Chip) (i : Nat) : Chip :=
  let p := nth { used := 0, queue := [] } c.pools i
  match p.queue with
  | [] => c
  | _ :: l => if p.used < poolSize i then { c with pools := listSet c.pools i { used := p.used + 1, queue := l } } else c

/-! ### Router events -/

/-- DROVE_ENTRY: output `o` of tile `k` runs the entry it stands at (R161). -/
def Chip.droveEntry (c : Chip) (k o : Nat) : Chip :=
  if !c.routerServes k then c
  else
    let c := c.wakeTile k
    c.putMesh (c.mesh.runEntry k o)

/-- CLOSE: the close at the head of input `port` of tile `k` goes once its join is complete (R162). -/
def Chip.closeHead (c : Chip) (k port : Nat) : Chip :=
  match c.mesh.join k port with | some m => c.putMesh m | none => c

/-- The pasture whose slot binds input `port` of tile `k`. -/
def Chip.boundAt (c : Chip) (k port : Nat) : Nat := match boundSlot (c.tile k) port with | some s => s.pasture.val | none => 0

/-- FLOCK: the router of tile `k` takes a FLOCK in on input `port`, and its outputs go on (R111–R113, R164). What enters by L
comes from the core's own outbound queue. -/
def Chip.flockIn (c : Chip) (k port : Nat) (hdr mask : Nat) : Chip :=
  if port = 4 || !c.routerServes k then c
  else
    let c := c.wakeTile k
    c.putMesh ((c.mesh.takeIn k port (c.boundAt k port) [mkFlit hdr, mkFlit mask]).runTile k)

/-- AXON or TALLY delivered through port L of tile `k` for pasture `p`, when its header names that kind (R109, R114, R116). -/
def Chip.takeAxon (c : Chip) (p k w : Nat) : Chip :=
  if !c.routerServes k then c
  else
    let c := c.wakeTile k
    c.putMesh (c.mesh.deliver k p w)

end Sys2Proof.Machine
end

