-- ==== Sys2Proof/Machine/ExecCommands.lean ====
section
/-! DEFINITION. The meanings of the scoreboard commands (chapters 9 and 10) and of the queue contexts (chapter 9). Each is the
unit's own work on the entry of its row once the entry is READY with that opcode and the unit takes it (R360, R388). -/

namespace Sys2Proof.Machine

/-! ### Commands of the scoreboard (R388) -/

/-- NOP (R388). -/
def execNop (e : EntryId) (s : State) : Ans := s.run (fun c => c.start e.val 0x00 (fun c => c.doNop e.val))
/-- SYNC_CFG (R397, R398). -/
def execSyncCfg (e : EntryId) (s : State) : Ans := s.run (fun c => c.start e.val 0x01 (fun c => c.doSyncCfg e.val))
/-- HOLD (R399–R404). -/
def execHold (e : EntryId) (s : State) : Ans := s.run (fun c => c.start e.val 0x02 (fun c => c.doHold e.val))
/-- RELEASE (R405, R406). -/
def execRelease (e : EntryId) (s : State) : Ans := s.run (fun c => c.start e.val 0x03 (fun c => c.doRelease e.val))
/-- ABORT (R407–R409). -/
def execAbort (e : EntryId) (s : State) : Ans := s.run (fun c => c.start e.val 0x04 (fun c => c.doAbort e.val))
/-- SHIFT (R410). -/
def execShift (e : EntryId) (s : State) : Ans := s.run (fun c => c.start e.val 0x05 (fun c => c.doShift e.val))
/-- UNLOAD (R411). -/
def execUnload (e : EntryId) (s : State) : Ans := s.run (fun c => c.start e.val 0x06 (fun c => c.doUnload e.val))
/-- TEST_UNIT (R412–R414, R854–R856); `fails` are the tests that fail. One that runs already goes on once its unit can be
tested. -/
def execTestUnit (e : EntryId) (fails : BitVec 5) (s : State) : Ans :=
  s.run (fun c => if (c.entry e.val).state = .ready then c.start e.val 0x07 (fun c => c.doTestUnit e.val fails.toNat)
    else c.moreTest e.val fails.toNat)
/-- SET_DOMAIN (R415). -/
def execSetDomain (e : EntryId) (s : State) : Ans := s.run (fun c => c.start e.val 0x08 (fun c => c.doSetDomain e.val))
/-- SET_OP_POINT (R416). -/
def execSetOpPoint (e : EntryId) (s : State) : Ans := s.run (fun c => c.start e.val 0x09 (fun c => c.doSetOpPoint e.val))
/-- SET_PROFILE (R417). -/
def execSetProfile (e : EntryId) (s : State) : Ans := s.run (fun c => c.start e.val 0x0A (fun c => c.doSetProfile e.val))
/-- RUN (R418–R421). -/
def execRun (e : EntryId) (s : State) : Ans := s.run (fun c => c.start e.val 0x10 (fun c => c.doRun e.val))
/-- INJECT (R422, R423). -/
def execInject (e : EntryId) (s : State) : Ans := s.run (fun c => c.start e.val 0x11 (fun c => c.doInject e.val))
/-- REPLAY_CHECK (R424, R425). -/
def execReplayCheck (e : EntryId) (s : State) : Ans := s.run (fun c => c.start e.val 0x12 (fun c => c.doReplay e.val))
/-- PASS (R426–R428). -/
def execPass (e : EntryId) (s : State) : Ans := s.run (fun c => c.start e.val 0x20 (fun c => c.doPass e.val))
/-- LADDER (R316–R329). -/
def execLadder (e : EntryId) (s : State) : Ans := s.run (fun c => c.start e.val 0x30 (fun c => c.doLadder e.val))
/-- COPY (R430–R432). -/
def execCopy (e : EntryId) (s : State) : Ans := s.run (fun c => c.start e.val 0x40 (fun c => c.doCopy e.val))
/-- LOAD (R433, R434). -/
def execLoad (e : EntryId) (s : State) : Ans := s.run (fun c => c.start e.val 0x41 (fun c => c.doLoad e.val))
/-- PAGE_OUT (R435). -/
def execPageOut (e : EntryId) (s : State) : Ans := s.run (fun c => c.start e.val 0x42 (fun c => c.doPageOut e.val))
/-- PAGE_IN (R436). -/
def execPageIn (e : EntryId) (s : State) : Ans := s.run (fun c => c.start e.val 0x43 (fun c => c.doPageIn e.val))
/-- CHECKPOINT (R437). -/
def execCheckpoint (e : EntryId) (s : State) : Ans := s.run (fun c => c.start e.val 0x44 (fun c => c.doCheckpoint e.val))
/-- RESTORE (R438). -/
def execRestore (e : EntryId) (s : State) : Ans := s.run (fun c => c.start e.val 0x45 (fun c => c.doRestore e.val))
/-- NV_SAVE (R439). -/
def execNvSave (e : EntryId) (s : State) : Ans := s.run (fun c => c.start e.val 0x46 (fun c => c.doNvSave e.val))
/-- NV_LOAD (R440). -/
def execNvLoad (e : EntryId) (s : State) : Ans := s.run (fun c => c.start e.val 0x47 (fun c => c.doNvLoad e.val))

/-! ### Queue contexts -/

/-- SQ_PI (R352, R353), through the gate's doorbell page. -/
def execSqPi (ctx : CtxId) (value : W32) (s : State) : Ans :=
  s.run (fun c => if c.barOpen then c.doorbell false ctx.val value else c)
/-- CQ_CI (R352, R354). -/
def execCqCi (ctx : CtxId) (value : W32) (s : State) : Ans :=
  s.run (fun c => if c.barOpen then c.doorbell true ctx.val value else c)
/-- REMOTE_DB_VAL (R655). -/
def execRemoteDbVal (o : Origin) (value : W32) (s : State) : Ans := s.run (fun c => c.regWrite o (regAt pgGATE 0x11C) value.toNat)
/-- FETCH (R356, R366). -/
def execFetch (s : State) : Ans := s.run Chip.fetch
/-- COMPLETION_RECORD_WRITE (R361, R362, R376). -/
def execCompletionRecordWrite (e : EntryId) (s : State) : Ans := s.run (fun c => c.writeCompletion e.val)
/-- MOD_DELAY (R355). -/
def execModDelay (ctx : CtxId) (s : State) : Ans := s.run (fun c => c.modDelayEnds ctx.val)
/-- CTX_CTRL.ENABLE (R380, R382). -/
def execEnable (o : Origin) (s : State) : Ans := s.run (fun c => c.regWrite o (regAt pgSHEP 0x108) 1)
/-- CTX_CTRL.STOP (R378). -/
def execStop (o : Origin) (s : State) : Ans := s.run (fun c => c.regWrite o (regAt pgSHEP 0x108) 2)
/-- CTX_CTRL.RESUME (R357). -/
def execResume (o : Origin) (s : State) : Ans := s.run (fun c => c.regWrite o (regAt pgSHEP 0x108) 4)
/-- CTX_CTRL.DISABLE (R378, R382). -/
def execDisable (o : Origin) (s : State) : Ans := s.run (fun c => c.regWrite o (regAt pgSHEP 0x108) 8)

/-- The header of the SYNC message of an operation (R97, R123). -/
def syncHdr (c : Chip) (m : SyncOp) : Nat :=
  match m.tile with
  | none => ({ kind := kSYNC, pkg := c.pkg, qclass := 3, origin := originNum m.origin, tag := baseTag pgMUSTER
               payload := m.operand.toNat : Hdr }).word
  | some (d, t) => ({ kind := kSYNC, pkg := c.pkg, die := d.val, x := tileX t.val, y := tileY t.val, qclass := 3
                      origin := originNum m.origin, payload := m.operand.toNat : Hdr }).word

/-- Its second word: OBJECT, and OP 0 for ADD or 1 for SET. -/
def syncWord (m : SyncOp) (op : Nat) : Nat := m.object.toNat + op * 2 ^ 16

/-- A SYNC operation at its target. -/
def Chip.syncOp (c : Chip) (m : SyncOp) (op : Nat) : Chip :=
  let p := m.sender.map (fun p => p.val)
  match m.tile with
  | none => c.syncMsg p (syncHdr c m) (syncWord m op)
  | some (d, t) => c.tileSync (tkey d t) p (syncHdr c m) (syncWord m op)

/-- ADD (R363, R364). -/
def execAdd (m : SyncOp) (s : State) : Ans := s.run (fun c => c.syncOp m 0)
/-- SET (R363, R364). -/
def execSet (m : SyncOp) (s : State) : Ans := s.run (fun c => c.syncOp m 1)
/-- OBJ_CFG (R384, R398). -/
def execObjCfg (o : Origin) (value : W32) (s : State) : Ans := s.run (fun c => c.regWrite o (regAt pgMUSTER 0x104) value.toNat)
/-- POOL_GRANT (R371, R372). -/
def execPoolGrant (pool : Fin 3) (s : State) : Ans := s.run (fun c => c.poolGrant pool.val)
/-- COMMAND_SHARE (R904). -/
def execCommandShare (hdr : W64) (words : List W64) (s : State) : Ans :=
  shaped (.commandShare hdr words) (s.run (fun c => (c.shareMsg hdr.toNat (words.map (fun w => w.toNat))).getD (c.send (hdr.toNat :: words.map (fun w => w.toNat)))))

end Sys2Proof.Machine
end

