-- ==== Sys2Proof/Machine/ExecMessages.lean ====
section
/-! DEFINITION. The meanings of the tile orders (chapter 4) and of the messages at their receiver (chapter 3). -/

namespace Sys2Proof.Machine

/-- The words of a list of 64-bit values. -/
def nats (l : List W64) : List Nat := l.map (fun w => w.toNat)
def nats32 (l : List W32) : List Nat := l.map (fun w => w.toNat)

/-! ### Tile orders (R152–R155): a COMMAND arrives at a tile and its order is served -/

/-- TORDER_NOP. -/
def execTorderNop (d : DieId) (t : TileId) (hdr : W64) (ws : List W64) (s : State) : Ans :=
  shaped (.torderNop d t hdr ws) (s.run (fun c => c.tileCommand (tkey d t) hdr ws {}))
/-- RUN_CHAIN (R153, R286). -/
def execRunChain (d : DieId) (t : TileId) (hdr : W64) (ws : List W64) (s : State) : Ans :=
  shaped (.runChain d t hdr ws) (s.run (fun c => c.tileCommand (tkey d t) hdr ws {}))
/-- CLEAR (R153, R480, R490); the read-back of a cleared tile fails where the world says so. -/
def execClear (d : DieId) (t : TileId) (hdr : W64) (ws : List W64) (readBackFails : Bool) (s : State) : Ans :=
  shaped (.clear d t hdr ws readBackFails) (s.run (fun c => c.tileCommand (tkey d t) hdr ws { readBackFails := readBackFails }))
/-- TEST (R153, R833); `fails` are the tests that fail. -/
def execTest (d : DieId) (t : TileId) (hdr : W64) (ws : List W64) (fails : BitVec 5) (s : State) : Ans :=
  shaped (.test d t hdr ws fails) (s.run (fun c => c.tileCommand (tkey d t) hdr ws { fails := fails.toNat }))
/-- TORDER_RESET (R153, R637). -/
def execTorderReset (d : DieId) (t : TileId) (hdr : W64) (ws : List W64) (s : State) : Ans :=
  shaped (.torderReset d t hdr ws) (s.run (fun c => c.tileCommand (tkey d t) hdr ws {}))

/-! ### Messages -/

/-- AXON (R109, R114, R115). -/
def execAxon (p : PastureId) (d : DieId) (t : TileId) (hdr : W64) (s : State) : Ans :=
  s.run (fun c => c.takeAxon p.val (tkey d t) hdr.toNat)
/-- FLOCK (R111–R113, R164). -/
def execFlock (d : DieId) (t : TileId) (input : PortId) (hdr mask : W64) (s : State) : Ans :=
  s.run (fun c => c.flockIn (tkey d t) input.val hdr.toNat mask.toNat)
/-- TALLY (R116, R117). -/
def execTally (p : PastureId) (d : DieId) (t : TileId) (hdr : W64) (s : State) : Ans :=
  s.run (fun c => c.takeAxon p.val (tkey d t) hdr.toNat)
/-- BANK_WRITE (R120, R121, R287). -/
def execBankWrite (sender : Option PastureId) (hdr : W64) (words : List W64) (s : State) : Ans :=
  shaped (.bankWrite sender hdr words) (s.run (fun c => c.bankWrite (sender.map (fun p => p.val)) hdr.toNat (nats words)))
/-- REGISTER_WRITE (R120, R652, R797, R889). -/
def execRegisterWrite (port : AccessPort) (o : Origin) (addr : BitVec 25) (vals : List W32) (s : State) : Ans :=
  shaped (.registerWrite port o addr vals) (s.run (fun c => c.portWrite port o addr.toNat (nats32 vals) none))
/-- READ_REQ (R125–R127), sent by no pasture's tile. -/
def execReadReq (hdr w2 : W64) (s : State) : Ans := s.run (fun c => c.readReq none hdr.toNat w2.toNat)
/-- READ_RESP (R126, R127, R904). -/
def execReadResp (hdr : W64) (words : List W64) (s : State) : Ans :=
  shaped (.readResp hdr words) (s.run (fun c => c.readResp hdr.toNat ((nats words).headD 0) ((nats words).drop 1)))
/-- COMPLETION (R124, R376): one that finds no room stays on its way. -/
def execCompletion (hdr w0 w1 : W64) (s : State) : Ans :=
  s.run (fun c => (c.completionMsg hdr.toNat w0.toNat w1.toNat).getD (c.send [hdr.toNat, w0.toNat, w1.toNat]))
/-- TRACE (R128, R839, R840). -/
def execTrace (hdr datum : W64) (s : State) : Ans := s.run (fun c => c.traceMsgIn hdr.toNat datum.toNat)
/-- EXCHANGE (R129, R316–R318). -/
def execExchange (hdr w2 : W64) (s : State) : Ans := s.run (fun c => c.exchangeMsg hdr.toNat w2.toNat)
/-- PORT_EGRESS (R110, R471, R662). -/
def execPortEgress (p : PastureId) (d : DieId) (t : TileId) (hdr : W64) (s : State) : Ans :=
  s.run (fun c => c.portEgress p.val (tkey d t) hdr.toNat)
/-- DIGEST_IN (R838). -/
def execDigestIn (o : Origin) (v0 v1 v2 v3 : W32) (s : State) : Ans :=
  s.run (fun c => c.wakeControl.digestIn (originNum o) v0.toNat v1.toNat v2.toNat v3.toNat)

end Sys2Proof.Machine
end

