-- ==== Sys2Proof/Machine/ExecFrames.lean ====
section
/-! DEFINITION. The meanings of the rows of the management frames (chapter 20): a request frame arrives by its transport, the
Crook serves it in its turn, and its response stands at the transport. -/

namespace Sys2Proof.Machine

/-- IDENT_GET. -/
def execIdentGet (f : Frame) (s : State) : Ans := s.runFrame (fun c => c.frameArrives 0x01 f)
/-- REG_READ. -/
def execRegRead (f : Frame) (s : State) : Ans := s.runFrame (fun c => c.frameArrives 0x02 f)
/-- REG_WRITE. -/
def execRegWrite (f : Frame) (s : State) : Ans := s.runFrame (fun c => c.frameArrives 0x03 f)
/-- SUBMIT (R806). -/
def execSubmit (f : Frame) (s : State) : Ans := s.runFrame (fun c => c.frameArrives 0x04 f)
/-- PROFILE_READ. -/
def execProfileRead (f : Frame) (s : State) : Ans := s.runFrame (fun c => c.frameArrives 0x05 f)
/-- PROFILE_STAGE. -/
def execProfileStage (f : Frame) (s : State) : Ans := s.runFrame (fun c => c.frameArrives 0x06 f)
/-- PROFILE_COMMIT. -/
def execProfileCommit (f : Frame) (s : State) : Ans := s.runFrame (fun c => c.frameArrives 0x07 f)
/-- FW_BEGIN (R822). -/
def execFwBegin (f : Frame) (s : State) : Ans := s.runFrame (fun c => c.frameArrives 0x08 f)
/-- FW_DATA. -/
def execFwData (f : Frame) (s : State) : Ans := s.runFrame (fun c => c.frameArrives 0x09 f)
/-- FW_END. -/
def execFwEnd (f : Frame) (s : State) : Ans := s.runFrame (fun c => c.frameArrives 0x0A f)
/-- FW_COMMIT. -/
def execFwCommit (f : Frame) (s : State) : Ans := s.runFrame (fun c => c.frameArrives 0x0B f)
/-- FW_SESSION_IDLE (R822). -/
def execFwSessionIdle (s : State) : Ans := s.run Chip.sessionIdle
/-- DEBUG_CHALLENGE (R812). -/
def execDebugChallenge (f : Frame) (s : State) : Ans := s.runFrame (fun c => c.frameArrives 0x0C f)
/-- DEBUG_UNLOCK (R812, R813). -/
def execDebugUnlock (f : Frame) (s : State) : Ans := s.runFrame (fun c => c.frameArrives 0x0D f)
/-- DEBUG_CLOSE. -/
def execDebugClose (f : Frame) (s : State) : Ans := s.runFrame (fun c => c.frameArrives 0x0E f)
/-- DBG_CTRL.CLOSE (R813, R829). -/
def execDbgCtrlClose (o : Origin) (s : State) : Ans := s.run (fun c => c.regWrite o (regAt pgAUTH 0x124) 1)
/-- DEBUG_EXPIRY (R813). -/
def execDebugExpiry (s : State) : Ans := s.run Chip.debugExpiry
/-- AUDIT_READ (R815–R817). -/
def execAuditRead (f : Frame) (s : State) : Ans := s.runFrame (fun c => c.frameArrives 0x0F f)
/-- AUDIT_ACK. -/
def execAuditAck (f : Frame) (s : State) : Ans := s.runFrame (fun c => c.frameArrives 0x10 f)
/-- MAP_READ (R802). -/
def execMapRead (f : Frame) (s : State) : Ans := s.runFrame (fun c => c.frameArrives 0x11 f)
/-- NOTICE (R790, R801). -/
def execNotice (f : Frame) (s : State) : Ans := s.runFrame (fun c => c.frameArrives 0x12 f)
/-- RESPONSE_READ (R798). -/
def execResponseRead (s : State) : Ans := s.runAny Chip.responseRead
/-- MBOX_CTRL.TAKE (R798, R829). -/
def execMboxTake (o : Origin) (s : State) : Ans := s.run (fun c => c.regWrite o (regAt pgCROOK 0x120) 2)

end Sys2Proof.Machine
end

