-- ==== Sys2Proof/Machine/ExecGate.lean ====
section
/-! DEFINITION. The meanings of the rows of the host gate (chapter 16) and of the sensor ports (chapter 17). -/

namespace Sys2Proof.Machine

/-! ### The host gate -/

/-- GATE_RESET (R620, R640, R678). -/
def execGateReset (kind : GateResetKind) (s : State) : Ans := s.run (fun c => c.gateReset kind)
/-- CONFIG_REQUEST (R648, R650, R674); what a read gives is the answer. -/
def execConfigRequest (function : BitVec 3) (offset : BitVec 12) (write : Bool) (value : W32) (s : State) : Ans :=
  s.run (fun c => c.configRequest function.toNat offset.toNat write value.toNat)
/-- MACHINE_WINDOW_ACCESS (R653, R654). -/
def execMachineWindowAccess (write : Bool) (addr : BitVec 25) (vals : List W32) (s : State) : Ans :=
  shaped (.machineWindowAccess write addr vals) (s.run (fun c => c.machineWindow write addr.toNat (nats32 vals)))
/-- GATE_LINK_DOWN (R649, R676, R679). -/
def execGateLinkDown (s : State) : Ans := s.run Chip.gateLinkDown
/-- GATE_LINK_UP (R649, R676). -/
def execGateLinkUp (width : BitVec 2) (speed : BitVec 3) (s : State) : Ans := s.run (fun c => c.gateLinkUp width.toNat speed.toNat)
/-- DMA_COMPLETION (R656, R679). -/
def execDmaCompletion (e : EntryId) (answer : DmaAnswer) (s : State) : Ans := s.run (fun c => c.dmaAnswer e.val answer)
/-- DMA_COMPLETION_TIMEOUT (R679). -/
def execDmaCompletionTimeout (e : EntryId) (s : State) : Ans := s.run (fun c => c.dmaLate e.val)
/-- MSIX_UNMASK: the host writes an entry of the MSI-X table (R660). -/
def execMsixUnmask (vector : Fin 2048) (addr : W64) (data : W32) (mask : Bool) (s : State) : Ans :=
  s.run (fun c => if c.barOpen then c.msixWrite vector.val addr data mask else c)
/-- EGRESS_RECORD_WRITE: the next record that waits for the ring is written (R662–R666). -/
def execEgressRecordWrite (ring : Fin 64) (s : State) : Ans := s.run (fun c => c.ringNext ring.val)
/-- ERING_CI (R664). -/
def execEringCi (o : Origin) (value : W32) (s : State) : Ans := s.run (fun c => c.regWrite o (regAt pgGATE 0x134) value.toNat)
/-- TRACE_CI (R840). -/
def execTraceCi (o : Origin) (value : W32) (s : State) : Ans := s.run (fun c => c.regWrite o (regAt pgHEALTH 0x170) value.toNat)

/-! ### Sensor ports -/

/-- EVENT_PACKET (R693–R699, R709). -/
def execEventPacket (csi : DieId) (vc : BitVec 4) (dt : BitVec 6) (payload : List Byte) (crcOk ce : Bool) (s : State) : Ans :=
  s.run (fun c => c.eventPacket csi.val vc.toNat dt.toNat payload crcOk ce)
/-- OTHER_PACKET (R693, R709). -/
def execOtherPacket (csi : DieId) (vc : BitVec 4) (dt : BitVec 6) (ce : Bool) (s : State) : Ans :=
  s.run (fun c => c.otherPacket csi.val vc.toNat dt.toNat ce)
/-- FRAME_START (R700). -/
def execFrameStart (csi : DieId) (vc : BitVec 4) (ce : Bool) (s : State) : Ans := s.run (fun c => c.frameStart csi.val vc.toNat ce)
/-- RAW_LINE (R700–R706). -/
def execRawLine (csi : DieId) (vc : BitVec 4) (dt : BitVec 6) (payload : List Byte) (crcOk ce : Bool) (s : State) : Ans :=
  s.run (fun c => c.rawLine csi.val vc.toNat dt.toNat payload crcOk ce)
/-- FRAME_END (R700). -/
def execFrameEnd (csi : DieId) (vc : BitVec 4) (ce : Bool) (s : State) : Ans := s.run (fun c => c.frameEnd csi.val vc.toNat ce)
/-- SYNC_LOST (R709). -/
def execSyncLost (csi : DieId) (cause : SyncLossCause) (s : State) : Ans := s.run (fun c => c.syncLost csi.val cause)
/-- HS_SYNC (R690, R709). -/
def execHsSync (csi : DieId) (rate : Byte) (deskew : Bool) (s : State) : Ans := s.run (fun c => c.hsSync csi.val rate.toNat deskew)
/-- AER_HANDSHAKE (R707, R708). -/
def execAerHandshake (k : Fin 2) (data : BitVec 24) (s : State) : Ans := s.run (fun c => c.aerHandshake k.val data.toNat)
/-- REQ_LOW (R707). -/
def execReqLow (k : Fin 2) (s : State) : Ans := s.run (fun c => c.reqLow k.val)

end Sys2Proof.Machine
end

