-- ==== Sys2Proof/Machine/ExecHealth.lean ====
section
/-! DEFINITION. The meanings of the rows of the banks and the NV store (chapter 12) and of field reliability (chapter 21). -/

namespace Sys2Proof.Machine

/-- SHELTER_START: SHELTER_CTRL.START (R533–R540). -/
def execShelterStart (o : Origin) (s : State) : Ans := s.run (fun c => c.regWrite o (regAt pgNVS 0x120) 1)
/-- NV_PAGE_WRITE: whether the verify passes, and the second write's where it does not (R526, R527, R544). -/
def execNvPageWrite (verifyOk retryOk : Bool) (s : State) : Ans := s.run (fun c => c.nvPageWrite verifyOk retryOk)
/-- SCRUB_VISIT (R507–R512). -/
def execScrubVisit (key : BankKey) (s : State) : Ans := s.run (fun c => c.scrubVisit key)
/-- SHEAR (R513–R518). -/
def execShear (key : BankKey) (marchPasses : Bool) (s : State) : Ans := s.run (fun c => c.shear key marchPasses)
/-- TEST_DUE (R851, R854, R859). -/
def execTestDue (u : UnitKey) (fails : BitVec 5) (s : State) : Ans := s.run (fun c => c.testDue u.toNat fails.toNat)
/-- DEFER_LIMIT (R855). -/
def execDeferLimit (u : UnitKey) (s : State) : Ans := s.run (fun c => c.deferLimit u.toNat)
/-- DEFER_RETRY (R855). -/
def execDeferRetry (u : UnitKey) (fails : BitVec 5) (s : State) : Ans := s.run (fun c => c.deferRetry u.toNat fails.toNat)
/-- PLACEMENT_RETRY (R853). -/
def execPlacementRetry (e : EntryId) (s : State) : Ans := s.run (fun c => c.placementRetry e.val)
/-- VIEW_SWEEP (R867). -/
def execViewSweep (s : State) : Ans := s.run Chip.viewSweep
/-- RETURN: UNIT_CMD with 1 in [1:0]; `fails` are the tests that fail (R863). -/
def execUnitReturn (o : Origin) (value : W32) (fails : BitVec 5) (s : State) : Ans :=
  s.run (fun c => (c.writeAt (regAt pgHEALTH 0x110) (setBits value.toNat 1 0 1) (originNum o) (some fails.toNat)).1)
/-- RECONCILE: UNIT_CMD with 2 in [1:0] (R869). -/
def execReconcile (o : Origin) (value : W32) (s : State) : Ans :=
  s.run (fun c => c.regWrite o (regAt pgHEALTH 0x110) (setBits value.toNat 1 0 2))
/-- RESTART (R843–R846). -/
def execRestart (p : PastureId) (s : State) : Ans := s.run (fun c => c.restart p.val)
/-- LOG_WRITE (R834–R837). -/
def execLogWrite (p : PastureId) (s : State) : Ans := s.run (fun c => c.logWrite p.val)

end Sys2Proof.Machine
end

