-- ==== Sys2Proof/Machine/ExecLinks.lean ====
section
/-! DEFINITION. The meanings of the rows of the rack links (chapter 18). -/

namespace Sys2Proof.Machine

/-- A frame at the receiver of link `k`, with the symbols its decoder corrected and could not (R718, R719). -/
def Chip.linkFrame (c : Chip) (k : LinkId) (f : List Byte) (corr uncorr : Byte) : Chip := c.frameIn k.val f corr.toNat uncorr.toNat

/-- DATA_FRAME (R719–R728). -/
def execDataFrame (link : LinkId) (f : List Byte) (corr uncorr : Byte) (s : State) : Ans :=
  shaped (.dataFrame link f corr uncorr) (s.run (fun c => c.linkFrame link f corr uncorr))
/-- IDLE_FRAME (R719, R726). -/
def execIdleFrame (link : LinkId) (f : List Byte) (corr uncorr : Byte) (s : State) : Ans :=
  shaped (.idleFrame link f corr uncorr) (s.run (fun c => c.linkFrame link f corr uncorr))
/-- HELLO (R736–R739). -/
def execHello (link : LinkId) (f : List Byte) (corr uncorr : Byte) (s : State) : Ans :=
  shaped (.hello link f corr uncorr) (s.run (fun c => c.linkFrame link f corr uncorr))
/-- LEAVE (R740). -/
def execLeave (link : LinkId) (f : List Byte) (corr uncorr : Byte) (s : State) : Ans :=
  shaped (.leave link f corr uncorr) (s.run (fun c => c.linkFrame link f corr uncorr))
/-- IDLE_FRAME_SEND (R719). -/
def execIdleFrameSend (link : LinkId) (s : State) : Ans := s.run (fun c => c.idleSend link.val)
/-- ACK_TIMEOUT (R727). -/
def execAckTimeout (link : LinkId) (s : State) : Ans := s.run (fun c => c.ackTimeout link.val)
/-- LINK_DOWN (R741). -/
def execLinkDown (link : LinkId) (s : State) : Ans := s.run (fun c => c.linkDown link.val)
/-- HOLD_EXPIRED (R742). -/
def execHoldExpired (link : LinkId) (s : State) : Ans := s.run (fun c => c.holdExpired link.val)
/-- BRINGUP (R736). -/
def execBringup (link : LinkId) (s : State) : Ans := s.run (fun c => c.bringup link.val)
/-- BRINGUP_TIMEOUT (R736). -/
def execBringupTimeout (link : LinkId) (s : State) : Ans := s.run (fun c => c.bringupTimeout link.val)
/-- WHISTLE_SEND: LINK_WHISTLE.SEND written beside the present value (R737). -/
def execWhistleSend (o : Origin) (link : LinkId) (s : State) : Ans :=
  s.run (fun c => c.regWrite o (regAt (lkPage link.val) 0x10C) ((c.page (lkPage link.val)).rd 0x10C ||| 1))
/-- LINK_STATE: what the package learns of the links of package `pkg` (R743). -/
def execLinkState (pkg : Fin 256) (ports : BitVec 6) (s : State) : Ans := s.run (fun c => c.linkState pkg.val ports)

end Sys2Proof.Machine
end

