-- ==== Sys2Proof/Machine/ExecPower.lean ====
section
/-! DEFINITION. The meanings of the events of power, stack and time (chapters 13 and 14) and of the resets (chapter 15). -/

namespace Sys2Proof.Machine

/-- DOM_REQ (R584, R611). -/
def execDomReq (o : Origin) (value : W32) (s : State) : Ans := s.run (fun c => c.regWrite o (regAt pgPOWER 0x108) value.toNat)
/-- DRAIN_END (R586). -/
def execDrainEnd (dom : DomainId) (s : State) : Ans := s.run (fun c => c.drainEnd dom.val)
/-- DRAIN_TIMEOUT (R587). -/
def execDrainTimeout (dom : DomainId) (s : State) : Ans := s.run (fun c => c.drainTimeout dom.val)
/-- WAKING_END (R593, R600, R604). -/
def execWakingEnd (dom : DomainId) (s : State) : Ans := s.run (fun c => c.wakingEnd dom.val)
/-- CORE_IDLE (R590). -/
def execCoreIdle (d : DieId) (t : TileId) (s : State) : Ans := s.run (fun c => c.coreIdle (tkey d t))
/-- ROUTER_IDLE (R591). -/
def execRouterIdle (d : DieId) (t : TileId) (s : State) : Ans := s.run (fun c => c.routerIdle (tkey d t))
/-- POWER_CAP_SAMPLE: the measured power of each die in mW (R603). -/
def execPowerCapSample (mw0 mw1 mw2 mw3 : W32) (s : State) : Ans :=
  s.run (fun c => c.powerSample [mw0.toNat, mw1.toNat, mw2.toNat, mw3.toNat])
/-- THROTTLE_SAMPLE (R564–R566). -/
def execThrottleSample (l : List SensorReading) (s : State) : Ans := shaped (.throttleSample l) (s.run (fun c => c.throttleSample l))
/-- TRIP_CLEAR (R567). -/
def execTripClear (o : Origin) (value : W32) (s : State) : Ans := s.run (fun c => c.regWrite o (regAt pgTHERM 0x170) value.toNat)
/-- VOLTAGE_STEP (R565). -/
def execVoltageStep (d : DieId) (s : State) : Ans := s.run (fun c => c.voltageStep d.val)
/-- LANE_CHECK_DUE (R556). -/
def execLaneCheckDue (d : DieId) (port : Fin 16) (s : State) : Ans := s.run (fun c => c.laneDue d.val port.val)
/-- LANE_CHECK (R556–R561). -/
def execLaneCheck (d : DieId) (port : Fin 16) (upFails downFails : BitVec 76) (railFails : BitVec 12) (s : State) : Ans :=
  s.run (fun c => c.laneCheck d.val port.val upFails downFails railFails.toNat)
/-- REG_FAULT (R609). -/
def execRegFault (d : DieId) (s : State) : Ans := s.run (fun c => c.regFault d.val)
/-- HANDSHAKE_FAIL (R572). -/
def execHandshakeFail (d : DieId) (s : State) : Ans := s.run (fun c => c.handshakeFail d.val)
/-- DIE_TRIP (R566, R579). -/
def execDieTrip (d : DieId) (s : State) : Ans := s.run (fun c => c.dieTrip d.val)
/-- PADS.RELEASE (R597). -/
def execPadsRelease (o : Origin) (value : W32) (s : State) : Ans := s.run (fun c => c.regWrite o (regAt pgPADS 0x100) value.toNat)
/-- WAKE_DETECT (R598, R599, R640): AON detects a source in a reset too. -/
def execWakeDetect (src : Fin 16) (s : State) : Ans := s.runAny (fun c => c.wakeDetect src.val)
/-- ROUTE_SLOT_START (R599). -/
def execRouteSlotStart (src : Fin 16) (s : State) : Ans := s.run (fun c => c.routeNext src.val)
/-- ALARM (R602, R618): the RTC runs in a reset too. -/
def execAlarm (k : Fin 2) (s : State) : Ans := s.runAny (fun c => c.alarmFire k.val)
/-- SET_CTRL.LOAD (R602, R618). -/
def execSetCtrlLoad (o : Origin) (s : State) : Ans := s.run (fun c => c.regWrite o (regAt pgRTC 0x118) 1)
/-- RTC_LOCK (R91, R601). -/
def execRtcLock (s : State) : Ans := s.runAny Chip.rtcLocks
/-- XTAL_FAIL (R601). -/
def execXtalFail (s : State) : Ans := s.runAny Chip.xtalFails

/-! ### Resets -/

/-- POWER_ON_RESET (R620–R622). -/
def execPowerOnReset (s : State) : Ans := s.runWhole (fun s => ({ s with chip := s.chip.powerOn } : State).pinPor true none)
/-- POR_N_ASSERT (R622, R636). -/
def execPorNAssert (s : State) : Ans := s.runWhole (fun s => ({ s with chip := s.chip.porAssert } : State).pinPor true none)
/-- POR_N_RELEASE (R624, R625, R631). -/
def execPorNRelease (profilePins : BitVec 2) (s : State) : Ans :=
  s.runWhole (fun s => ({ s with chip := s.chip.porRelease profilePins } : State).pinPor false (some profilePins))
/-- BROWNOUT (R642). -/
def execBrownout (s : State) : Ans := s.runAny Chip.brownout
/-- RAIL_RECOVERY (R642). -/
def execRailRecovery (profilePins : BitVec 2) (s : State) : Ans := s.runAny (fun c => c.railRecovery profilePins)
/-- RESET_REQ.PKG_RESET (R643, R644). -/
def execPkgReset (o : Origin) (value : W32) (s : State) : Ans := s.run (fun c => c.regWrite o (regAt pgPROFILE 0x130) (value ||| 0x40000).toNat)
/-- RESET_REQ.DIE_RESET (R637, R644). -/
def execDieReset (o : Origin) (value : W32) (s : State) : Ans := s.run (fun c => c.regWrite o (regAt pgPROFILE 0x130) (value ||| 0x10000).toNat)
/-- RESET_REQ.TILE_RESET (R637, R644). -/
def execTileReset (o : Origin) (value : W32) (s : State) : Ans := s.run (fun c => c.regWrite o (regAt pgPROFILE 0x130) (value ||| 0x20000).toNat)

end Sys2Proof.Machine
end

