-- ==== Sys2Proof/Machine/ExecRegisters.lean ====
section
/-! DEFINITION. The meanings of the register rows (chapters 4, 14, 20 and 22): each is an access to its register's address by
the class that the port gave, under every rule of R797 and of its page, with the effect that its page's table names. -/

namespace Sys2Proof.Machine

/-- TAKE of SNAP_CTRL (R192). -/
def execTake (o : Origin) (d : DieId) (t : TileId) (s : State) : Ans := s.run (fun c => c.regWrite o (tileAddr (tkey d t) 3 0x100) 1)
/-- THAW of SNAP_CTRL (R192). -/
def execThaw (o : Origin) (d : DieId) (t : TileId) (s : State) : Ans := s.run (fun c => c.regWrite o (tileAddr (tkey d t) 3 0x100) 4)
/-- HW_CLEAR (R191). -/
def execHwClear (o : Origin) (d : DieId) (t : TileId) (s : State) : Ans := s.run (fun c => c.regWrite o (tileAddr (tkey d t) 3 0x1FC) 1)
/-- DROVE_DATA: the entry read is the answer (R189). -/
def execDroveData (o : Origin) (d : DieId) (t : TileId) (s : State) : Ans :=
  s.run (fun c =>
    let r := c.readAt (tileAddr (tkey d t) 0 0x154) (originNum o)
    r.1.say (.data [r.2.1]))
/-- TIME_LO: the value read is the answer (R617). -/
def execTimeLoRead (o : Origin) (s : State) : Ans :=
  s.run (fun c =>
    let r := c.readAt (regAt pgRTC 0x100) (originNum o)
    r.1.say (.data [r.2.1]))
/-- A COUNT_CLEAR register (R896, R897). -/
def execCountClear (o : Origin) (pg : PageId) (off : BitVec 12) (value : W32) (s : State) : Ans :=
  s.run (fun c => if off.toNat % 4 = 0 then c.regWrite o (pageReg pg off.toNat) value.toNat else c)
/-- BLK_CTRL.LOCK (R889, R891). -/
def execLock (o : Origin) (pg : PageId) (value : W32) (s : State) : Ans := s.run (fun c => c.regWrite o (pageReg pg 0x00C) (value ||| 1).toNat)
/-- BLK_CTRL.FAULT_CLEAR (R889, R895). -/
def execFaultClear (o : Origin) (pg : PageId) (value : W32) (s : State) : Ans := s.run (fun c => c.regWrite o (pageReg pg 0x00C) (value ||| 2).toNat)
/-- BLK_CTRL.CE_CLEAR (R889, R897). -/
def execCeClear (o : Origin) (pg : PageId) (value : W32) (s : State) : Ans := s.run (fun c => c.regWrite o (pageReg pg 0x00C) (value ||| 4).toNat)

/-- Event bits that hardware sets in the cycle of a write. -/
def Chip.hwEvents (c : Chip) (a : Nat) (bits : W32) : Chip :=
  match regPlace a with
  | .base n _ => c.updPage n (fun p => { p with ev := p.ev ||| (bits &&& BitVec.ofNat 32 (eventMask p.code)) })
  | .tile k j _ => if (c.tile k).pageAt j |>.code |> (· == 0) then c
      else c.updTile k (fun t =>
        let p := t.pageAt j
        t.setPage j { p with ev := p.ev ||| (bits &&& BitVec.ofNat 32 (eventMask p.code)) })
  | .absent => c

/-- A write of BLK_EVENT; a bit that hardware sets in the same cycle stays set (R23, R893). -/
def execBlkEventClear (o : Origin) (pg : PageId) (value hwBits : W32) (s : State) : Ans :=
  s.run (fun c => (c.regWrite o (pageReg pg 0x014) value.toNat).hwEvents (pageReg pg 0x014) hwBits)
/-- BLK_EVENT_FORCE (R797, R907). -/
def execBlkEventForce (o : Origin) (pg : PageId) (value : W32) (s : State) : Ans := s.run (fun c => c.regWrite o (pageReg pg 0x01C) value.toNat)
/-- REGISTER_READ of `n` + 1 registers (R652, R797, R899). -/
def execRegisterRead (port : AccessPort) (o : Origin) (addr : BitVec 25) (n : Fin 64) (s : State) : Ans :=
  s.run (fun c => c.portRead port o addr.toNat (n.val + 1))

end Sys2Proof.Machine
end

