-- ==== Sys2Proof/Machine/ExecRounds.lean ====
section
/-! DEFINITION. The meanings of the events of the mesh and of the round (chapters 2, 4, 7 and 8). -/

namespace Sys2Proof.Machine

/-- DROVE_ENTRY (R161). -/
def execDroveEntry (d : DieId) (t : TileId) (out : PortId) (s : State) : Ans := s.run (fun c => c.droveEntry (tkey d t) out.val)
/-- CLOSE (R162). -/
def execClose (d : DieId) (t : TileId) (input : PortId) (s : State) : Ans := s.run (fun c => c.closeHead (tkey d t) input.val)
/-- PACER_TICK (R70, R73). -/
def execPacerTick (p : PastureId) (s : State) : Ans := s.run (fun c => c.pacerTick p.val)
/-- ROUND_START (R62–R64, R71). -/
def execRoundStart (p : PastureId) (s : State) : Ans := s.run (fun c => c.roundStart p.val)
/-- SPIKE (R62, R161). -/
def execSpike (p : PastureId) (d : DieId) (t : TileId) (s : State) : Ans := s.run (fun c => c.spike p.val (tkey d t))
/-- LAP_START (R65, R167). -/
def execLapStart (p : PastureId) (d : DieId) (t : TileId) (s : State) : Ans := s.run (fun c => c.lapStart p.val (tkey d t))
/-- LAP_VOTE (R65, R168). -/
def execLapVote (p : PastureId) (s : State) : Ans := s.run (fun c => c.lapVote p.val)
/-- INTEGRATE (R62, R207, R286). -/
def execIntegrate (p : PastureId) (d : DieId) (t : TileId) (s : State) : Ans := s.run (fun c => c.integrateTile p.val (tkey d t))
/-- LEARN (R62, R246). -/
def execLearn (p : PastureId) (d : DieId) (t : TileId) (s : State) : Ans := s.run (fun c => c.learnTile p.val (tkey d t))
/-- MUSTER_ARRIVE (R67). -/
def execMusterArrive (p : PastureId) (d : DieId) (t : TileId) (s : State) : Ans := s.run (fun c => c.musterArrive p.val (tkey d t))
/-- MUSTER_COMPLETE (R68, R441, R446). -/
def execMusterComplete (p : PastureId) (s : State) : Ans := s.run (fun c => c.musterComplete p.val)
/-- FREE_LADDER_STEP (R323). -/
def execFreeLadderStep (ladder : Fin 64) (s : State) : Ans := s.run (fun c => c.freeStep ladder.val)
/-- HOLD_EXPIRY (R401). -/
def execHoldExpiry (p : PastureId) (s : State) : Ans := s.run (fun c => c.holdExpiry p.val)
/-- STALL_FREEZE (R180–R185). -/
def execStallFreeze (p : PastureId) (s : State) : Ans := s.run (fun c => c.stallFreeze p.val)
/-- WINDOW_WAIT_MET (R287). -/
def execWindowWaitMet (d : DieId) (t : TileId) (s : State) : Ans := s.run (fun c => c.windowMet (tkey d t))
/-- WINDOW_WAIT_TIMEOUT (R299). -/
def execWindowWaitTimeout (d : DieId) (t : TileId) (s : State) : Ans := s.run (fun c => c.windowTimeout (tkey d t))

end Sys2Proof.Machine
end

