-- ==== Sys2Proof/Machine/ExecShelf.lean ====
section
/-! DEFINITION. The meanings of the rows of the power shelf and of its notices (chapter 19), and of its PMBus commands. -/

namespace Sys2Proof.Machine

/-! ### The shelf's states -/

/-- MAINS_LOSS (R775, R788). -/
def execMainsLoss (s : State) : Ans := s.runShelf Shelf.mainsLoss
/-- HANDOVER_END, `micros` after the loss (R775, R778). -/
def execHandoverEnd (micros : W16) (s : State) : Ans := s.runShelf (fun x => x.handoverEnd micros)
/-- QUALIFY_COMPLETE (R775, R776). -/
def execQualifyComplete (s : State) : Ans := s.runShelf Shelf.qualified
/-- RAMP_END (R775, R778). -/
def execRampEnd (s : State) : Ans := s.runShelf Shelf.rampEnd
/-- RESERVE (R781, R791). -/
def execReserve (s : State) : Ans := s.runWhole State.atReserve
/-- CUTOFF (R773, R775). -/
def execCutoff (s : State) : Ans := s.runWhole State.atCutoff
/-- LOCKOUT_CLEAR (R776). -/
def execLockoutClear (s : State) : Ans := s.runShelf Shelf.lockoutEnd
/-- MAINS_RETURN (R775, R789). -/
def execMainsReturn (s : State) : Ans := s.runShelf Shelf.mainsReturn
/-- HANDOVER_TEST_END (R788). -/
def execHandoverTestEnd (s : State) : Ans := s.runShelf Shelf.testEnd
/-- POWER_STORM (R779, R790, R793). -/
def execPowerStorm (s : State) : Ans := s.runWhole (fun s => s.notice true)
/-- POWER_CALM (R780, R790). -/
def execPowerCalm (s : State) : Ans := s.runWhole (fun s => s.notice false)

/-! ### PMBus (R782–R784) -/

/-- PAGE. -/
def execPage (w : PmData) (s : State) : Ans := s.runShelf (fun x => x.doPage w)
/-- OPERATION. -/
def execOperation (w : PmData) (s : State) : Ans := s.runShelf (fun x => x.doOperation w)
/-- CLEAR_FAULTS. -/
def execClearFaults (s : State) : Ans := s.runShelf (fun x => { x with statusCml := 0 }.taken)
/-- CAPABILITY: PEC, 400 kHz and SMBALERT# (R782). -/
def execCapability (w : PmData) (s : State) : Ans := s.runShelf (fun x => x.readOnly w everyPage (fun x => x.give 1 0xB0))
/-- VOUT_MODE: LINEAR16 with exponent −9 (R783). -/
def execVoutMode (w : PmData) (s : State) : Ans := s.runShelf (fun x => x.readOnly w (· == 0) (fun x => x.give 1 0x17))
/-- STATUS_BYTE. -/
def execStatusByte (w : PmData) (s : State) : Ans := .next (s.status w 0x78 1)
/-- STATUS_WORD. -/
def execStatusWord (w : PmData) (s : State) : Ans := .next (s.status w 0x79 2)
/-- STATUS_VOUT. -/
def execStatusVout (w : PmData) (s : State) : Ans := .next (s.status w 0x7A 1)
/-- STATUS_IOUT. -/
def execStatusIout (w : PmData) (s : State) : Ans := .next (s.status w 0x7B 1)
/-- STATUS_INPUT. -/
def execStatusInput (w : PmData) (s : State) : Ans := .next (s.status w 0x7C 1)
/-- STATUS_TEMPERATURE. -/
def execStatusTemperature (w : PmData) (s : State) : Ans := .next (s.status w 0x7D 1)
/-- STATUS_CML. -/
def execStatusCml (w : PmData) (s : State) : Ans :=
  s.runShelf (fun x => x.readOnly w everyPage (fun x => x.give 1 x.statusCml.toNat))
/-- READ_VIN. -/
def execReadVin (w : PmData) (s : State) : Ans := .next (s.measured w 0x88 pages1to8 2 id)
/-- READ_IIN. -/
def execReadIin (w : PmData) (s : State) : Ans := .next (s.measured w 0x89 pages1to8 2 id)
/-- READ_VOUT. -/
def execReadVout (w : PmData) (s : State) : Ans := .next (s.measured w 0x8B (fun p => p == 0 || p == 9) 2 id)
/-- READ_IOUT. -/
def execReadIout (w : PmData) (s : State) : Ans := .next (s.measured w 0x8C (fun p => p == 0 || p == 9) 2 id)
/-- READ_TEMPERATURE_1. -/
def execReadTemperature1 (w : PmData) (s : State) : Ans := .next (s.measured w 0x8D (fun p => p != 0) 2 id)
/-- READ_POUT. -/
def execReadPout (w : PmData) (s : State) : Ans := .next (s.measured w 0x96 (fun p => p ≤ 8) 2 id)
/-- READ_PIN. -/
def execReadPin (w : PmData) (s : State) : Ans := .next (s.measured w 0x97 (fun p => p ≤ 8) 2 id)
/-- PMBUS_REVISION: both parts of revision 1.3 (R782). -/
def execPmbusRevision (w : PmData) (s : State) : Ans := s.runShelf (fun x => x.readOnly w everyPage (fun x => x.give 1 0x33))
/-- MFR_ID. -/
def execMfrId (w : PmData) (s : State) : Ans :=
  s.runShelf (fun x => x.readOnly w everyPage (fun x => { x with reply := some Config.mfrId }))
/-- MFR_MODEL. -/
def execMfrModel (w : PmData) (s : State) : Ans :=
  s.runShelf (fun x => x.readOnly w everyPage (fun x => { x with reply := some Config.mfrModel }))
/-- MFR_SHELF_STATE. -/
def execMfrShelfState (w : PmData) (s : State) : Ans := s.runShelf (fun x => x.readOnly w everyPage (fun x => x.give 1 x.stateByte))
/-- MFR_SHELF_EVENTS. -/
def execMfrShelfEvents (w : PmData) (s : State) : Ans := s.runShelf (fun x => x.doEvents w)
/-- MFR_BATT_SOC. -/
def execMfrBattSoc (w : PmData) (s : State) : Ans := .next (s.chargeRead w)
/-- MFR_BATT_HOLDUP. -/
def execMfrBattHoldup (w : PmData) (s : State) : Ans := .next (s.measured w 0xD3 everyPage 2 id)
/-- MFR_RETURN_QUALIFY. -/
def execMfrReturnQualify (w : PmData) (s : State) : Ans :=
  s.runShelf (fun x => x.wordLimits w x.qualifyMs 3000 30000 (fun v => { x with qualifyMs := v }))
/-- MFR_RESERVE_LEVEL. -/
def execMfrReserveLevel (w : PmData) (s : State) : Ans :=
  s.runShelf (fun x => x.wordLimits w x.reserveLevel 150 500 (fun v => { x with reserveLevel := v }))
/-- MFR_CUTOFF_LEVEL, below RESERVE_LEVEL. -/
def execMfrCutoffLevel (w : PmData) (s : State) : Ans :=
  s.runShelf (fun x => x.wordLimits w x.cutoffLevel 20 (min 100 (x.reserveLevel.toNat - 1)) (fun v => { x with cutoffLevel := v }))
/-- MFR_BATT_HEALTH. -/
def execMfrBattHealth (w : PmData) (s : State) : Ans := .next (s.measured w 0xD7 everyPage 2 (min 1000))
/-- MFR_HANDOVER_TIME. -/
def execMfrHandoverTime (w : PmData) (s : State) : Ans :=
  s.runShelf (fun x => x.readOnly w everyPage (fun x => x.give 2 x.handoverUs.toNat))
/-- MFR_RETURN_LOG. -/
def execMfrReturnLog (w : PmData) (s : State) : Ans := s.runShelf (fun x => x.readOnly w everyPage Shelf.returnLog)
/-- MFR_STORM_COUNT. -/
def execMfrStormCount (w : PmData) (s : State) : Ans :=
  s.runShelf (fun x => x.readOnly w everyPage (fun x => x.give 2 x.stormCount.toNat))
/-- MFR_TEST_HANDOVER (R788). -/
def execMfrTestHandover (w : PmData) (s : State) : Ans := .next (s.testHandover w)

end Sys2Proof.Machine
end

