-- ==== Sys2Proof/Machine/ExecSled.lean ====
section
/-! DEFINITION. The meanings of the rows of the sled controller and the rack manager (chapters 19 and 20), of the test access
port (chapter 23) and of the debug aperture (chapter 20). -/

namespace Sys2Proof.Machine

/-! ### The sled controller -/

/-- TO_PACKAGE (R804, R805). -/
def execToPackage (seq : W32) (slot : DieId) (frame : List Byte) (s : State) : Ans := s.runWhole (fun s => s.toPackage seq slot frame)
/-- BRIDGE_RETRY (R805). -/
def execBridgeRetry (seq : W32) (s : State) : Ans := s.runWhole (fun s => s.bridgeRetry seq)
/-- SET_PROFILE_PINS (R631, R804). -/
def execSetProfilePins (seq : W32) (slot : DieId) (pins : BitVec 2) (s : State) : Ans :=
  s.runWhole (fun s => s.onRequest seq slot 1 (fun s => s.drivePins slot pins))
/-- POWER_ON (R621, R760, R804). -/
def execPowerOn (seq : W32) (slot : DieId) (s : State) : Ans := s.runWhole (fun s => s.onRequest seq slot 2 (fun s => s.slotOn slot))
/-- POWER_OFF (R623, R804). -/
def execPowerOff (seq : W32) (slot : DieId) (s : State) : Ans := s.runWhole (fun s => s.onRequest seq slot 3 (fun s => s.slotOff slot))
/-- SLED_NOTICE (R790, R804). -/
def execSledNotice (seq : W32) (storm : Bool) (s : State) : Ans :=
  s.runWhole (fun s => s.onRequest seq s.sled.slot 4 (fun s => s.passNotice storm))
/-- STATE_GET (R804). -/
def execStateGet (seq : W32) (s : State) : Ans := s.runWhole (fun s => s.stateGet seq)
/-- ENUMERATION (R765–R768). -/
def execEnumeration (s : State) : Ans := s.runWhole State.enumerate
/-- SLED_POWER_UP (R760, R795). -/
def execSledPowerUp (s : State) : Ans := s.runWhole State.sledPowerUp

/-! ### The test access port (R936–R938) -/

/-- EXTEST. -/
def execExtest (tdi padsIn : BitVec 73) (s : State) : Ans := s.runTap (fun t => t.extest s.chip.porLow tdi padsIn)
/-- IDCODE. -/
def execIdcode (s : State) : Ans := s.runTap (fun t => t.idcode s.chip.fuses.baseGen.toNat)
/-- SAMPLE_PRELOAD. -/
def execSamplePreload (tdi padsIn : BitVec 73) (s : State) : Ans := s.runTap (fun t => t.sample tdi padsIn)
/-- CLAMP. -/
def execClamp (s : State) : Ans := s.runTap (fun t => t.clamp s.chip.porLow)
/-- BYPASS. -/
def execBypass (tdi : Bool) (s : State) : Ans := s.runTap (fun t => t.doBypass tdi)

/-- DEBUG_APERTURE_ACCESS (R811, R814). -/
def execDebugApertureAccess (write : Bool) (offset : BitVec 27) (vals : List W32) (s : State) : Ans :=
  shaped (.debugApertureAccess write offset vals)
    (s.run (fun c => c.aperture write offset.toNat (vals.map (fun v => v.toNat))))

end Sys2Proof.Machine
end

