-- ==== Sys2Proof/Machine/Dispatch.lean ====
section
/-! DEFINITION. The meaning of each command, one arm per row of the opcode table. -/

namespace Sys2Proof.Machine

/-- The effect of a command on everything but the queue. -/
def exec (i : Instr) (s : State) : Host.Outcome State Fault Refusal :=
  match i with
  | .nop e => Sys2Proof.Machine.execNop e s
  | .syncCfg e => Sys2Proof.Machine.execSyncCfg e s
  | .hold e => Sys2Proof.Machine.execHold e s
  | .release e => Sys2Proof.Machine.execRelease e s
  | .abort e => Sys2Proof.Machine.execAbort e s
  | .shift e => Sys2Proof.Machine.execShift e s
  | .unload e => Sys2Proof.Machine.execUnload e s
  | .testUnit e fails => Sys2Proof.Machine.execTestUnit e fails s
  | .setDomain e => Sys2Proof.Machine.execSetDomain e s
  | .setOpPoint e => Sys2Proof.Machine.execSetOpPoint e s
  | .setProfile e => Sys2Proof.Machine.execSetProfile e s
  | .run e => Sys2Proof.Machine.execRun e s
  | .inject e => Sys2Proof.Machine.execInject e s
  | .replayCheck e => Sys2Proof.Machine.execReplayCheck e s
  | .pass e => Sys2Proof.Machine.execPass e s
  | .ladder e => Sys2Proof.Machine.execLadder e s
  | .copy e => Sys2Proof.Machine.execCopy e s
  | .load e => Sys2Proof.Machine.execLoad e s
  | .pageOut e => Sys2Proof.Machine.execPageOut e s
  | .pageIn e => Sys2Proof.Machine.execPageIn e s
  | .checkpoint e => Sys2Proof.Machine.execCheckpoint e s
  | .restore e => Sys2Proof.Machine.execRestore e s
  | .nvSave e => Sys2Proof.Machine.execNvSave e s
  | .nvLoad e => Sys2Proof.Machine.execNvLoad e s
  | .sqPi ctx value => Sys2Proof.Machine.execSqPi ctx value s
  | .cqCi ctx value => Sys2Proof.Machine.execCqCi ctx value s
  | .remoteDbVal o value => Sys2Proof.Machine.execRemoteDbVal o value s
  | .fetch => Sys2Proof.Machine.execFetch s
  | .completionRecordWrite e => Sys2Proof.Machine.execCompletionRecordWrite e s
  | .modDelay ctx => Sys2Proof.Machine.execModDelay ctx s
  | .enable o => Sys2Proof.Machine.execEnable o s
  | .stop o => Sys2Proof.Machine.execStop o s
  | .resume o => Sys2Proof.Machine.execResume o s
  | .disable o => Sys2Proof.Machine.execDisable o s
  | .add m => Sys2Proof.Machine.execAdd m s
  | .set m => Sys2Proof.Machine.execSet m s
  | .objCfg o value => Sys2Proof.Machine.execObjCfg o value s
  | .poolGrant pool => Sys2Proof.Machine.execPoolGrant pool s
  | .commandShare hdr words => Sys2Proof.Machine.execCommandShare hdr words s
  | .torderNop d t hdr words => Sys2Proof.Machine.execTorderNop d t hdr words s
  | .runChain d t hdr words => Sys2Proof.Machine.execRunChain d t hdr words s
  | .clear d t hdr words readBackFails => Sys2Proof.Machine.execClear d t hdr words readBackFails s
  | .test d t hdr words fails => Sys2Proof.Machine.execTest d t hdr words fails s
  | .torderReset d t hdr words => Sys2Proof.Machine.execTorderReset d t hdr words s
  | .axon p d t hdr => Sys2Proof.Machine.execAxon p d t hdr s
  | .flock d t input hdr mask => Sys2Proof.Machine.execFlock d t input hdr mask s
  | .tally p d t hdr => Sys2Proof.Machine.execTally p d t hdr s
  | .bankWrite sender hdr words => Sys2Proof.Machine.execBankWrite sender hdr words s
  | .registerWrite port o addr vals => Sys2Proof.Machine.execRegisterWrite port o addr vals s
  | .readReq hdr w2 => Sys2Proof.Machine.execReadReq hdr w2 s
  | .readResp hdr words => Sys2Proof.Machine.execReadResp hdr words s
  | .completion hdr w0 w1 => Sys2Proof.Machine.execCompletion hdr w0 w1 s
  | .trace hdr datum => Sys2Proof.Machine.execTrace hdr datum s
  | .exchange hdr w2 => Sys2Proof.Machine.execExchange hdr w2 s
  | .portEgress p d t hdr => Sys2Proof.Machine.execPortEgress p d t hdr s
  | .digestIn o v0 v1 v2 v3 => Sys2Proof.Machine.execDigestIn o v0 v1 v2 v3 s
  | .droveEntry d t out => Sys2Proof.Machine.execDroveEntry d t out s
  | .close d t input => Sys2Proof.Machine.execClose d t input s
  | .pacerTick p => Sys2Proof.Machine.execPacerTick p s
  | .roundStart p => Sys2Proof.Machine.execRoundStart p s
  | .spike p d t => Sys2Proof.Machine.execSpike p d t s
  | .lapStart p d t => Sys2Proof.Machine.execLapStart p d t s
  | .lapVote p => Sys2Proof.Machine.execLapVote p s
  | .integrate p d t => Sys2Proof.Machine.execIntegrate p d t s
  | .learn p d t => Sys2Proof.Machine.execLearn p d t s
  | .musterArrive p d t => Sys2Proof.Machine.execMusterArrive p d t s
  | .musterComplete p => Sys2Proof.Machine.execMusterComplete p s
  | .freeLadderStep ladder => Sys2Proof.Machine.execFreeLadderStep ladder s
  | .holdExpiry p => Sys2Proof.Machine.execHoldExpiry p s
  | .stallFreeze p => Sys2Proof.Machine.execStallFreeze p s
  | .take o d t => Sys2Proof.Machine.execTake o d t s
  | .thaw o d t => Sys2Proof.Machine.execThaw o d t s
  | .hwClear o d t => Sys2Proof.Machine.execHwClear o d t s
  | .droveData o d t => Sys2Proof.Machine.execDroveData o d t s
  | .timeLoRead o => Sys2Proof.Machine.execTimeLoRead o s
  | .countClear o pg off value => Sys2Proof.Machine.execCountClear o pg off value s
  | .lock o pg value => Sys2Proof.Machine.execLock o pg value s
  | .faultClear o pg value => Sys2Proof.Machine.execFaultClear o pg value s
  | .ceClear o pg value => Sys2Proof.Machine.execCeClear o pg value s
  | .blkEventClear o pg value hwBits => Sys2Proof.Machine.execBlkEventClear o pg value hwBits s
  | .blkEventForce o pg value => Sys2Proof.Machine.execBlkEventForce o pg value s
  | .windowWaitMet d t => Sys2Proof.Machine.execWindowWaitMet d t s
  | .windowWaitTimeout d t => Sys2Proof.Machine.execWindowWaitTimeout d t s
  | .domReq o value => Sys2Proof.Machine.execDomReq o value s
  | .drainEnd dom => Sys2Proof.Machine.execDrainEnd dom s
  | .drainTimeout dom => Sys2Proof.Machine.execDrainTimeout dom s
  | .coreIdle d t => Sys2Proof.Machine.execCoreIdle d t s
  | .routerIdle d t => Sys2Proof.Machine.execRouterIdle d t s
  | .powerCapSample mw0 mw1 mw2 mw3 => Sys2Proof.Machine.execPowerCapSample mw0 mw1 mw2 mw3 s
  | .throttleSample xs => Sys2Proof.Machine.execThrottleSample xs s
  | .tripClear o value => Sys2Proof.Machine.execTripClear o value s
  | .voltageStep d => Sys2Proof.Machine.execVoltageStep d s
  | .laneCheckDue d port => Sys2Proof.Machine.execLaneCheckDue d port s
  | .laneCheck d port upFails downFails railFails => Sys2Proof.Machine.execLaneCheck d port upFails downFails railFails s
  | .regFault d => Sys2Proof.Machine.execRegFault d s
  | .handshakeFail d => Sys2Proof.Machine.execHandshakeFail d s
  | .padsRelease o value => Sys2Proof.Machine.execPadsRelease o value s
  | .wakeDetect src => Sys2Proof.Machine.execWakeDetect src s
  | .routeSlotStart src => Sys2Proof.Machine.execRouteSlotStart src s
  | .alarm k => Sys2Proof.Machine.execAlarm k s
  | .setCtrlLoad o => Sys2Proof.Machine.execSetCtrlLoad o s
  | .rtcLock => Sys2Proof.Machine.execRtcLock s
  | .xtalFail => Sys2Proof.Machine.execXtalFail s
  | .powerOnReset => Sys2Proof.Machine.execPowerOnReset s
  | .porNAssert => Sys2Proof.Machine.execPorNAssert s
  | .porNRelease profilePins => Sys2Proof.Machine.execPorNRelease profilePins s
  | .brownout => Sys2Proof.Machine.execBrownout s
  | .pkgReset o value => Sys2Proof.Machine.execPkgReset o value s
  | .dieReset o value => Sys2Proof.Machine.execDieReset o value s
  | .tileReset o value => Sys2Proof.Machine.execTileReset o value s
  | .gateReset kind => Sys2Proof.Machine.execGateReset kind s
  | .configRequest function offset write value => Sys2Proof.Machine.execConfigRequest function offset write value s
  | .machineWindowAccess write addr vals => Sys2Proof.Machine.execMachineWindowAccess write addr vals s
  | .gateLinkDown => Sys2Proof.Machine.execGateLinkDown s
  | .gateLinkUp width speed => Sys2Proof.Machine.execGateLinkUp width speed s
  | .dmaCompletion e answer => Sys2Proof.Machine.execDmaCompletion e answer s
  | .dmaCompletionTimeout e => Sys2Proof.Machine.execDmaCompletionTimeout e s
  | .msixUnmask vector addr data mask => Sys2Proof.Machine.execMsixUnmask vector addr data mask s
  | .egressRecordWrite ring => Sys2Proof.Machine.execEgressRecordWrite ring s
  | .eringCi o value => Sys2Proof.Machine.execEringCi o value s
  | .traceCi o value => Sys2Proof.Machine.execTraceCi o value s
  | .eventPacket csi vc dt payload crcOk ce => Sys2Proof.Machine.execEventPacket csi vc dt payload crcOk ce s
  | .otherPacket csi vc dt ce => Sys2Proof.Machine.execOtherPacket csi vc dt ce s
  | .frameStart csi vc ce => Sys2Proof.Machine.execFrameStart csi vc ce s
  | .rawLine csi vc dt payload crcOk ce => Sys2Proof.Machine.execRawLine csi vc dt payload crcOk ce s
  | .frameEnd csi vc ce => Sys2Proof.Machine.execFrameEnd csi vc ce s
  | .aerHandshake k data => Sys2Proof.Machine.execAerHandshake k data s
  | .dataFrame link frame fecCorr fecUncorr => Sys2Proof.Machine.execDataFrame link frame fecCorr fecUncorr s
  | .idleFrame link frame fecCorr fecUncorr => Sys2Proof.Machine.execIdleFrame link frame fecCorr fecUncorr s
  | .idleFrameSend link => Sys2Proof.Machine.execIdleFrameSend link s
  | .hello link frame fecCorr fecUncorr => Sys2Proof.Machine.execHello link frame fecCorr fecUncorr s
  | .leave link frame fecCorr fecUncorr => Sys2Proof.Machine.execLeave link frame fecCorr fecUncorr s
  | .ackTimeout link => Sys2Proof.Machine.execAckTimeout link s
  | .linkDown link => Sys2Proof.Machine.execLinkDown link s
  | .holdExpired link => Sys2Proof.Machine.execHoldExpired link s
  | .bringup link => Sys2Proof.Machine.execBringup link s
  | .bringupTimeout link => Sys2Proof.Machine.execBringupTimeout link s
  | .whistleSend o link => Sys2Proof.Machine.execWhistleSend o link s
  | .linkState pkg ports => Sys2Proof.Machine.execLinkState pkg ports s
  | .mainsLoss => Sys2Proof.Machine.execMainsLoss s
  | .handoverEnd micros => Sys2Proof.Machine.execHandoverEnd micros s
  | .qualifyComplete => Sys2Proof.Machine.execQualifyComplete s
  | .rampEnd => Sys2Proof.Machine.execRampEnd s
  | .reserve => Sys2Proof.Machine.execReserve s
  | .cutoff => Sys2Proof.Machine.execCutoff s
  | .lockoutClear => Sys2Proof.Machine.execLockoutClear s
  | .powerStorm => Sys2Proof.Machine.execPowerStorm s
  | .powerCalm => Sys2Proof.Machine.execPowerCalm s
  | .shelterStart o => Sys2Proof.Machine.execShelterStart o s
  | .nvPageWrite verifyOk retryOk => Sys2Proof.Machine.execNvPageWrite verifyOk retryOk s
  | .scrubVisit key => Sys2Proof.Machine.execScrubVisit key s
  | .shear key marchPasses => Sys2Proof.Machine.execShear key marchPasses s
  | .testDue u fails => Sys2Proof.Machine.execTestDue u fails s
  | .deferLimit u => Sys2Proof.Machine.execDeferLimit u s
  | .deferRetry u fails => Sys2Proof.Machine.execDeferRetry u fails s
  | .placementRetry e => Sys2Proof.Machine.execPlacementRetry e s
  | .viewSweep => Sys2Proof.Machine.execViewSweep s
  | .unitReturn o value fails => Sys2Proof.Machine.execUnitReturn o value fails s
  | .reconcile o value => Sys2Proof.Machine.execReconcile o value s
  | .restart p => Sys2Proof.Machine.execRestart p s
  | .logWrite p => Sys2Proof.Machine.execLogWrite p s
  | .identGet f => Sys2Proof.Machine.execIdentGet f s
  | .regRead f => Sys2Proof.Machine.execRegRead f s
  | .regWrite f => Sys2Proof.Machine.execRegWrite f s
  | .submit f => Sys2Proof.Machine.execSubmit f s
  | .profileRead f => Sys2Proof.Machine.execProfileRead f s
  | .profileStage f => Sys2Proof.Machine.execProfileStage f s
  | .profileCommit f => Sys2Proof.Machine.execProfileCommit f s
  | .fwBegin f => Sys2Proof.Machine.execFwBegin f s
  | .fwData f => Sys2Proof.Machine.execFwData f s
  | .fwEnd f => Sys2Proof.Machine.execFwEnd f s
  | .fwCommit f => Sys2Proof.Machine.execFwCommit f s
  | .fwSessionIdle => Sys2Proof.Machine.execFwSessionIdle s
  | .debugChallenge f => Sys2Proof.Machine.execDebugChallenge f s
  | .debugUnlock f => Sys2Proof.Machine.execDebugUnlock f s
  | .debugClose f => Sys2Proof.Machine.execDebugClose f s
  | .dbgCtrlClose o => Sys2Proof.Machine.execDbgCtrlClose o s
  | .debugExpiry => Sys2Proof.Machine.execDebugExpiry s
  | .auditRead f => Sys2Proof.Machine.execAuditRead f s
  | .auditAck f => Sys2Proof.Machine.execAuditAck f s
  | .mapRead f => Sys2Proof.Machine.execMapRead f s
  | .notice f => Sys2Proof.Machine.execNotice f s
  | .responseRead => Sys2Proof.Machine.execResponseRead s
  | .mboxTake o => Sys2Proof.Machine.execMboxTake o s
  | .toPackage seq slot frame => Sys2Proof.Machine.execToPackage seq slot frame s
  | .bridgeRetry seq => Sys2Proof.Machine.execBridgeRetry seq s
  | .setProfilePins seq slot pins => Sys2Proof.Machine.execSetProfilePins seq slot pins s
  | .powerOn seq slot => Sys2Proof.Machine.execPowerOn seq slot s
  | .powerOff seq slot => Sys2Proof.Machine.execPowerOff seq slot s
  | .sledNotice seq storm => Sys2Proof.Machine.execSledNotice seq storm s
  | .stateGet seq => Sys2Proof.Machine.execStateGet seq s
  | .enumeration => Sys2Proof.Machine.execEnumeration s
  | .sledPowerUp => Sys2Proof.Machine.execSledPowerUp s
  | .page w => Sys2Proof.Machine.execPage w s
  | .operation w => Sys2Proof.Machine.execOperation w s
  | .clearFaults => Sys2Proof.Machine.execClearFaults s
  | .capability w => Sys2Proof.Machine.execCapability w s
  | .voutMode w => Sys2Proof.Machine.execVoutMode w s
  | .statusByte w => Sys2Proof.Machine.execStatusByte w s
  | .statusWord w => Sys2Proof.Machine.execStatusWord w s
  | .statusVout w => Sys2Proof.Machine.execStatusVout w s
  | .statusIout w => Sys2Proof.Machine.execStatusIout w s
  | .statusInput w => Sys2Proof.Machine.execStatusInput w s
  | .statusTemperature w => Sys2Proof.Machine.execStatusTemperature w s
  | .statusCml w => Sys2Proof.Machine.execStatusCml w s
  | .readVin w => Sys2Proof.Machine.execReadVin w s
  | .readIin w => Sys2Proof.Machine.execReadIin w s
  | .readVout w => Sys2Proof.Machine.execReadVout w s
  | .readIout w => Sys2Proof.Machine.execReadIout w s
  | .readTemperature1 w => Sys2Proof.Machine.execReadTemperature1 w s
  | .readPout w => Sys2Proof.Machine.execReadPout w s
  | .readPin w => Sys2Proof.Machine.execReadPin w s
  | .pmbusRevision w => Sys2Proof.Machine.execPmbusRevision w s
  | .mfrId w => Sys2Proof.Machine.execMfrId w s
  | .mfrModel w => Sys2Proof.Machine.execMfrModel w s
  | .mfrShelfState w => Sys2Proof.Machine.execMfrShelfState w s
  | .mfrShelfEvents w => Sys2Proof.Machine.execMfrShelfEvents w s
  | .mfrBattSoc w => Sys2Proof.Machine.execMfrBattSoc w s
  | .mfrBattHoldup w => Sys2Proof.Machine.execMfrBattHoldup w s
  | .mfrReturnQualify w => Sys2Proof.Machine.execMfrReturnQualify w s
  | .mfrReserveLevel w => Sys2Proof.Machine.execMfrReserveLevel w s
  | .mfrCutoffLevel w => Sys2Proof.Machine.execMfrCutoffLevel w s
  | .mfrBattHealth w => Sys2Proof.Machine.execMfrBattHealth w s
  | .mfrHandoverTime w => Sys2Proof.Machine.execMfrHandoverTime w s
  | .mfrReturnLog w => Sys2Proof.Machine.execMfrReturnLog w s
  | .mfrStormCount w => Sys2Proof.Machine.execMfrStormCount w s
  | .mfrTestHandover w => Sys2Proof.Machine.execMfrTestHandover w s
  | .extest tdi padsIn => Sys2Proof.Machine.execExtest tdi padsIn s
  | .idcode => Sys2Proof.Machine.execIdcode s
  | .samplePreload tdi padsIn => Sys2Proof.Machine.execSamplePreload tdi padsIn s
  | .clamp => Sys2Proof.Machine.execClamp s
  | .bypass tdi => Sys2Proof.Machine.execBypass tdi s
  | .registerRead port o addr n => Sys2Proof.Machine.execRegisterRead port o addr n s
  | .debugApertureAccess write offset vals => Sys2Proof.Machine.execDebugApertureAccess write offset vals s
  | .wakingEnd dom => Sys2Proof.Machine.execWakingEnd dom s
  | .railRecovery profilePins => Sys2Proof.Machine.execRailRecovery profilePins s
  | .dieTrip d => Sys2Proof.Machine.execDieTrip d s
  | .syncLost csi cause => Sys2Proof.Machine.execSyncLost csi cause s
  | .hsSync csi rate deskew => Sys2Proof.Machine.execHsSync csi rate deskew s
  | .reqLow k => Sys2Proof.Machine.execReqLow k s
  | .mainsReturn => Sys2Proof.Machine.execMainsReturn s
  | .handoverTestEnd => Sys2Proof.Machine.execHandoverTestEnd s

end Sys2Proof.Machine
end

