-- ==== Sys2Proof/Machine/Tick.lean ====
section
/-! DEFINITION. One microsecond of time passing with no command (assumption 1). -/

namespace Sys2Proof.Machine

/-- One microsecond: the elapsed times of the package and of the shelf, and TIME of the RTC (R601, R602). -/
def tick (s : State) : State :=
  let chip : Chip := { s.chip with now := s.chip.now + 1, rtc := { s.chip.rtc with time := s.chip.rtc.time + 1 } }
  { s with chip := chip, shelf := { s.shelf with now := s.shelf.now + 1 } }

end Sys2Proof.Machine
end

