-- ==== Sys2Proof/Safety.lean ====
section
/-! DEFINITION. The terms that claims about the machine use: which commands belong to which part, when a scoreboard command
starts, how an entry and a frame are answered, what a quiet package is, and the invariants of the shelf and of the test access port. -/

namespace Sys2Proof

/-! ### Which part a command belongs to -/

/-- Commands of the power shelf alone: its states and its PMBus commands that measure nothing (R775, R782–R784). -/
def Instr.ofShelf : Instr → Bool
  | .mainsLoss | .handoverEnd _ | .qualifyComplete | .rampEnd | .lockoutClear | .mainsReturn | .handoverTestEnd
  | .page _ | .operation _ | .clearFaults | .capability _ | .voutMode _ | .statusCml _ | .pmbusRevision _ | .mfrId _
  | .mfrModel _ | .mfrShelfState _ | .mfrShelfEvents _ | .mfrReturnQualify _ | .mfrReserveLevel _ | .mfrCutoffLevel _
  | .mfrHandoverTime _ | .mfrReturnLog _ | .mfrStormCount _ => true
  | _ => false

/-- PMBus commands that read what the shelf measures, and the test that reads the charge (R783, R784, R788). -/
def Instr.measures : Instr → Bool
  | .statusByte _ | .statusWord _ | .statusVout _ | .statusIout _ | .statusInput _ | .statusTemperature _ | .readVin _
  | .readIin _ | .readVout _ | .readIout _ | .readTemperature1 _ | .readPout _ | .readPin _ | .mfrBattSoc _ | .mfrBattHoldup _
  | .mfrBattHealth _ | .mfrTestHandover _ => true
  | _ => false

/-- Commands of the test access port (R936–R938). -/
def Instr.ofTap : Instr → Bool
  | .extest _ _ | .idcode | .samplePreload _ _ | .clamp | .bypass _ => true
  | _ => false

/-- Commands of the boards around the package, which move its supply and its pins, or reach it through the sled controller
(R621–R623, R773, R790, R804). -/
def Instr.ofBoards : Instr → Bool
  | .reserve | .cutoff | .powerStorm | .powerCalm | .powerOnReset | .porNAssert | .porNRelease _ | .toPackage _ _ _
  | .bridgeRetry _ | .setProfilePins _ _ _ | .powerOn _ _ | .powerOff _ _ | .sledNotice _ _ | .stateGet _ | .enumeration
  | .sledPowerUp => true
  | _ => false

/-- Commands that act on the package in a reset too: what the always-on domain, the RTC and the supply do, and a frame that
waits at the Crook (R598, R601, R602, R642, R798). -/
def Instr.inReset : Instr → Bool
  | .wakeDetect _ | .alarm _ | .rtcLock | .xtalFail | .brownout | .railRecovery _ | .responseRead | .identGet _ | .regRead _
  | .regWrite _ | .submit _ | .profileRead _ | .profileStage _ | .profileCommit _ | .fwBegin _ | .fwData _ | .fwEnd _
  | .fwCommit _ | .debugChallenge _ | .debugUnlock _ | .debugClose _ | .auditRead _ | .auditAck _ | .mapRead _ | .notice _ => true
  | _ => false

/-- The commands that a package held in reset does not take (R622). -/
def Instr.ofPackage (i : Instr) : Bool := !i.ofShelf && !i.measures && !i.ofTap && !i.ofBoards && !i.inReset

end Sys2Proof

namespace Sys2Proof.Machine

/-! ### Scoreboard commands -/

/-- Entry `e` is READY with opcode `op`, its unit takes it now, its domains are ON, and its share reaches every package of
its pasture (R360, R586, R904). -/
def Chip.starts (c : Chip) (e : EntryId) (op : Nat) : Bool :=
  !c.held && c.startable e.val op && c.domGate e.val == .go && ((c.running e.val).shareOut e.val).2

/-- The package once entry `e` has become RUNNING and its share has gone out. -/
def Chip.started (c : Chip) (e : EntryId) : Chip := ((c.running e.val).shareOut e.val).1

/-- Entry `e` came from a queue context, asks for its completion (QUIET clear), and signals no object (R349, R350). -/
def Chip.plain (c : Chip) (e : EntryId) : Bool :=
  (c.entry e.val).source != .share && !(c.entry e.val).flag 18 && !bit ((c.entry e.val).bytes 24 4) 31

/-- Entry `e` has finished with status `st` and result word `r`, and its record waits to be written (R351, R361). -/
def Chip.done (c : Chip) (e : EntryId) (st r : Nat) : Bool :=
  (c.entry e.val).state == .completing && (c.entry e.val).status == BitVec.ofNat 8 st
    && (c.entry e.val).result == BitVec.ofNat 64 r

/-- Package `d` is package `c` but for entry `e`, the Transfer channels, the shares on their way, the count of finished commands and
the counters of the register pages. -/
def Chip.like (c d : Chip) (e : EntryId) : Prop :=
  (∀ f, f ≠ e.val → d.entry f = c.entry f)
    ∧ d = { c with channels := d.channels, inFlight := d.inFlight, pages := d.pages, readied := d.readied, sb := d.sb }

/-- Package `d` is package `c` with entry `e` finished with status `st` and result word `r`. -/
def Chip.ends (c d : Chip) (e : EntryId) (st r : Nat) : Prop := d.done e st r = true ∧ c.like d e

/-! ### Registers and messages -/

/-- The package runs, its CONTROL domain is ON where the page lies in it, and class `o` may reach base-die page `n` (R641, R797,
R899). -/
def Chip.opens (c : Chip) (n : Nat) (o : Origin) : Bool :=
  !c.held && c.pageOpen n (originNum o) && (!inControl n || c.domOn domCONTROL)

/-- A write of class `o` to the block-specific register at `off` of base-die page `n` takes effect: the register is no read-only one,
its class is permitted, and no lock bars it (R797, R890, R891). -/
def Chip.accepts (c : Chip) (n off : Nat) (o : Origin) : Bool :=
  c.opens n o && match (regsOf (baseCode n)).find? (fun r => r.off == off && r.acc != .ro) with
    | some r => r.cls.permits (originNum o) && !(r.acc == .rwl && (c.page n).lock)
    | none => false

/-- A message of well-formed header `hdr` names base-die page `n` of this package (R101, R138). -/
def Chip.reaches (c : Chip) (hdr n : Nat) : Bool :=
  hdrShape (Hdr.of hdr) && c.baseNames (Hdr.of hdr) && (Hdr.of hdr).tag == 2048 + n

/-- Command `i` answers a next state, in which the package has taken the effect `post` and then settled. -/
def State.takes (s : State) (i : Instr) (post : Chip → Prop) : Prop := ∃ c : Chip, exec i s = .next (s.settled c) ∧ post c

/-! ### Tiles -/

/-- A COMMAND of header `hdr` with order `ws` finds tile `k` idle: the package runs, the header names the tile in a permitted class,
the tile's router and core serve, no order and no chain runs or waits there, the order is legal, and its wait is met (R138, R152,
R154). -/
def Chip.orderServed (c : Chip) (k : Nat) (hdr : W64) (ws : List W64) : Bool :=
  !c.held && ws.length == 8 && c.routerServes k && c.coreServes k
    && (c.tileClass k (Hdr.of hdr.toNat) true ((Hdr.of hdr.toNat).kind = kCOMMAND) [0, 4]).isNone
    && (c.tile k).q.command.isEmpty && (c.tile k).orders.current.isNone && (c.tile k).tc.chain.isNone
    && !ordBad (tileKind (k % 256)) ws && ordMet (c.tile k) (ordOf (hdr :: ws))

/-- The package once tile `k` has taken that order: the tile is awake, its command queue has held the message, and the order is the
current one. -/
def Chip.orderTaken (c : Chip) (k : Nat) (hdr : W64) (ws : List W64) : Chip :=
  ((((c.wakeTile k).updTile k (fun t =>
    { t with q := raiseHigh { t.q with command := t.q.command ++ [hdr :: ws] } 4 (t.q.command.length + 1) })).updTile k (fun t =>
    { t with q := { t.q with command := t.q.command.drop 1 } })).updTile k (fun t =>
    { t with orders := { t.orders with current := some (ordOf (hdr :: ws)) } }))

/-- The same with no order current any more: an order that clears the tile ends no order that it finds there. -/
def Chip.orderFreed (c : Chip) (k : Nat) : Chip := c.updTile k (fun t => { t with orders := { t.orders with current := none } })

/-- The package runs, the die of tile `k` answers, the tile's router serves, and class `o` may reach its pages (R638, R641, R797,
R911). -/
def Chip.tileOpens (c : Chip) (k : Nat) (o : Origin) : Bool :=
  !c.held && (c.die (k / 256)).state != .dead && c.routerServes k && o != .stream && (!c.recovery || o == .internal)

/-- An access has woken the router of tile `k` from RETAIN (R591). -/
def Chip.routerAwake (c : Chip) (k : Nat) : Chip := if c.routerDom k = .retain then c.setRouterDom k .on else c

/-! ### The shelf, the sled and the management frames -/

/-- Command `i` changes the shelf alone, to one of which `post` holds. -/
def State.shelfTakes (s : State) (i : Instr) (post : Shelf → Prop) : Prop := ∃ x : Shelf, exec i s = .next { s with shelf := x } ∧ post x

/-- The package once a request frame has come to the Crook and the messages under way are delivered (R798–R800). -/
def State.framed (s : State) (type : Nat) (f : Frame) : Chip := (s.chip.frameArrives type f).flush

/-- The Crook serves the frame now: no REG_READ runs and the frame stands first, its transport has room for the response (R800). -/
def State.firstFrame (s : State) (type : Nat) (f : Frame) : Bool :=
  let b := s.framed type f
  !b.held && b.crook.job.isNone && (f.via != .mailbox || b.crook.mbox.length < 8)
    && match b.crook.frames with
      | (v, g) :: _ => v == f.via && leAt g 0 1 == type && BitVec.ofNat 16 (leAt g 2 2) == f.tag && slice g 8 (leAt g 4 2) == f.payload
          && frameHeaderOk g && (v != .smbus || g.length == 8 + f.payload.length)
      | [] => false

/-- It is also well formed and permitted (R799, R801). -/
def State.frameServed (s : State) (type : Nat) (f : Frame) : Bool :=
  s.firstFrame type f && framePayloadOk type f.payload && (s.framed type f).frameAllowed type (viaClass f.via) f.payload

/-- The package as the Crook serves the frame. -/
def State.frameAt (s : State) (type : Nat) (f : Frame) : Chip := (s.framed type f).popFrame f.via

/-- Command `i`, a frame of type `type`, leaves the package as `d` and is answered with status `st` and payload `l`; the Crook then goes
on with what else waits. -/
def State.answers (s : State) (i : Instr) (type : Nat) (f : Frame) (d : Chip) (st : Nat) (l : List Byte) : Prop :=
  s.takes i (fun c => c = (d.frameReply f.via type f.tag st l).crookServe s.sled.stormHold 63)

/-- A datagram of sequence number `seq` that the sled controller has not answered before (R805). -/
def State.fresh (s : State) (seq : W32) : Bool := (s.sled.answers.find? (fun e => e.1 == seq)).isNone

/-! ### Invariants -/

/-- What every state of the shelf keeps (R773–R776, R778, R784, R788): its settings lie within their limits; on mains and in
HANDOVER neither PWR_STORM_N nor the reserve is asserted; a test stands in HANDOVER, BATTERY or RAMP without PWR_STORM_N;
qualification runs in BATTERY or OFF while mains is adequate and no test runs. -/
def Shelf.sound (x : Shelf) : Prop :=
  3000 ≤ x.qualifyMs.toNat ∧ x.qualifyMs.toNat ≤ 30000 ∧ 150 ≤ x.reserveLevel.toNat ∧ x.reserveLevel.toNat ≤ 500
    ∧ 20 ≤ x.cutoffLevel.toNat ∧ x.cutoffLevel.toNat ≤ 100 ∧ x.soc.toNat ≤ 1000
    ∧ x.page.toNat ≤ 9 ∧ x.returns.length ≤ 3
    ∧ (x.state = .mains ∨ x.state = .handover → x.stormLow = false ∧ x.reserve = false)
    ∧ (x.testing = true → (x.state = .handover ∨ x.state = .battery ∨ x.state = .ramp) ∧ x.stormLow = false)
    ∧ (x.qualifying = true → x.adequate = true ∧ x.testing = false ∧ (x.state = .battery ∨ x.state = .off))

/-- Pads are driven from the boundary register only while POR_N is low and EXTEST or CLAMP is the current instruction
(R937, R946). -/
def State.padsSafe (s : State) : Prop := s.tap.driven = 0 ∨ (s.chip.porLow = true ∧ (s.tap.ir = 0x00 ∨ s.tap.ir = 0x04))

end Sys2Proof.Machine
end

