-- ==== Sys2Proof/Certificates/Slice0/Obligations.lean ====
section
/-! DEFINITION. The statements about the model, for the provers. A clause about a command says what the package has become before it
settles: the settling delivers the control messages that the command has sent, lets the Crook serve what waits, and lets every
pasture and queue go on (assumption 15). -/

open Sys2Proof Sys2Proof.Machine

/-! ### The machine as a whole -/

/-- A step with a command at the front of the queue is that command's effect on the state with the rest of the queue. -/
def Obligations.StepRunsTheFrontCommand : Prop :=
  ∀ (s : State) (i : Instr) (rest : List Instr), step { s with pending := i :: rest } = exec i { s with pending := rest }

/-- The state right after reset: no command waits; POR_N is low; every context is DISABLED with its indices at 0, every scoreboard
entry FREE, every sync object of type NONE with state 0, every pool and channel free (R380); the TAP holds IDCODE with no pad driven
(R937, R946); the shelf is in MAINS with the defaults of R787 and no event recorded (the MAINS state itself is the model's choice,
assumption 10).

The shelf after reset keeps `Shelf.sound`.

After reset no pad is driven from the boundary register. -/
def Obligations.ResetIsIdleAndSafe : Prop :=
  (State.reset.pending = [] ∧ State.reset.chip.held = true ∧ State.reset.chip.porLow = true
    ∧ (∀ q, State.reset.chip.ctx q = Ctx.init ∧ (State.reset.chip.ctx q).state = .disabled ∧ (State.reset.chip.ctx q).pi = 0
        ∧ (State.reset.chip.ctx q).ci = 0 ∧ (State.reset.chip.ctx q).cqPi = 0 ∧ (State.reset.chip.ctx q).cqCi = 0)
    ∧ (∀ e, (State.reset.chip.entry e).state = .free)
    ∧ (∀ o, (State.reset.chip.obj o).type = 0 ∧ (State.reset.chip.obj o).owned = false ∧ (State.reset.chip.obj o).value = 0)
    ∧ (∀ h ∈ State.reset.chip.pools, h.used = 0 ∧ h.queue = []) ∧ (∀ h ∈ State.reset.chip.channels, h.entry = none)
    ∧ (∀ p, (State.reset.chip.past p).presence = .free)
    ∧ State.reset.tap.ir = 0x01 ∧ State.reset.tap.driven = 0
    ∧ State.reset.shelf.state = .mains ∧ State.reset.shelf.qualifyMs = 3000 ∧ State.reset.shelf.reserveLevel = 250
    ∧ State.reset.shelf.cutoffLevel = 50 ∧ State.reset.shelf.events = 0 ∧ State.reset.shelf.stormLow = false)
  ∧ (State.reset.shelf.sound)
  ∧ (State.reset.padsSafe)

/-- Every well-formed command answers a next state, in every state; one whose lists break the shape of its port stops with
illFormed.

A package held in reset takes none of its commands: the whole state stays as it was, the queue included (R622). -/
def Obligations.WellFormedCommandsAlwaysAnswer : Prop :=
  (∀ (i : Instr) (s : State), (i.wf = true → ∃ t, exec i s = .next t) ∧ (i.wf = false → exec i s = .fault .illFormed))
  ∧ (∀ (i : Instr) (s : State), i.ofPackage = true → i.wf = true → s.chip.held = true → exec i s = .next s)

/-- No command changes the queue behind it: what waits is taken in its turn.

No command of the package, of its pins or of the TAP moves the shelf but RESERVE and CUTOFF, which are the shelf's own.

A command of the shelf leaves the package, the sled and the TAP as they were; one that measures changes nothing there but the
count of free values drawn, the model's own field.

A command of the TAP changes the TAP alone.

With no command waiting, one microsecond passes: the elapsed times and TIME advance by one and nothing else changes. This is the
model's choice (assumption 1). -/
def Obligations.CommandsStayWithinTheirPart : Prop :=
  (∀ (i : Instr) (s t : State), exec i s = .next t → t.pending = s.pending)
  ∧ (∀ (i : Instr) (s t : State), i.ofShelf = false → i.measures = false → i ≠ .reserve → i ≠ .cutoff → exec i s = .next t →
    t.shelf = s.shelf)
  ∧ (∀ (i : Instr) (s : State),
    (i.ofShelf = true → ∃ x : Shelf, exec i s = .next { s with shelf := x })
    ∧ (i.measures = true → ∃ (x : Shelf) (n : Nat), n ≤ s.chip.free + 1
        ∧ exec i s = .next { s with shelf := x, chip := { s.chip with free := n } }))
  ∧ (∀ (i : Instr) (s : State), i.ofTap = true → ∃ t : Tap, exec i s = .next { s with tap := t })
  ∧ (∀ s : State, s.pending = [] →
    step s = .next { s with
      chip := { s.chip with now := s.chip.now + 1, rtc := { s.chip.rtc with time := s.chip.rtc.time + 1 } }
      shelf := { s.shelf with now := s.shelf.now + 1 } })

/-- Every step, of a command or of idle time, keeps `Shelf.sound`, whatever the rest of the machine holds. -/
def Obligations.EveryStepKeepsTheShelfSound : Prop :=
  ∀ s t : State, s.shelf.sound → step s = .next t → t.shelf.sound

/-- Every step keeps it that pads are driven from the boundary register only while POR_N is low: a step that ends with POR_N high
leaves no pad driven. -/
def Obligations.EveryStepKeepsThePadsSafe : Prop :=
  ∀ s t : State, s.padsSafe → step s = .next t → t.padsSafe

/-! ### Commands of the scoreboard -/

/-- A command that starts is RUNNING, and nothing else of the package changes but the channel it takes and the shares of it on their
way to other packages (R358, R904).

A RUNNING command of a queue context that asks for its completion and signals nothing finishes: its entry is COMPLETING with the
status, the result word and the progress given, it holds no Transfer channel, and every other entry stays as it was (R351, R358). -/
def Obligations.CommandsStartAndFinishOnTheirEntry : Prop :=
  (∀ (c : Chip) (e : EntryId), ((c.started e).entry e.val).state = .running
    ∧ c.like (c.started e) e)
  ∧ (∀ (c : Chip) (e : EntryId) (st r : Nat) (pr : W32), (c.entry e.val).state = .running → c.plain e = true →
    c.ends (c.finish e.val st r pr) e st r ∧ ((c.finish e.val st r pr).entry e.val).progress = pr
      ∧ (∀ h ∈ (c.finish e.val st r pr).channels, h.entry ≠ some e))

/-- NOP, SYNC_CFG, HOLD, RELEASE, ABORT and SET_PROFILE complete.
NOP on a pasture that exists ends OK with result 0 and changes nothing else.
SYNC_CFG of an object without waiters, with INIT in the range of its TYPE, gives the object that type and value, ends OK and changes
nothing else.
HOLD of a pasture between rounds that holds nothing yet takes effect at once: the hold stands with its duration, no tick and no
parking is left, and the command ends HELD with the round and the duration as result; during a round the hold is pending and
the command stays RUNNING.
RELEASE of a pasture with no hold of HOLD in effect or pending ends OK with the round, and bit 33 set where another hold
remains.
ABORT that finds no command ends OK with 0; one that names one WAITING or READY command other than HOLD, RELEASE and ABORT
ends that command with ABORTED and itself with one aborted.
SET_PROFILE without IMMEDIATE stores PROFILE.NEXT and ends OK with 0 once its audit record has room. -/
def Obligations.ControlCommandsComplete : Prop :=
  (∀ (s : State) (e : EntryId), s.chip.starts e 0x00 = true → s.chip.plain e = true →
    (s.chip.past (s.chip.entry e.val).pasture).presence ≠ .free →
    s.takes (.nop e) (fun c => s.chip.ends c e stOK 0))
  ∧ (∀ (s : State) (e : EntryId) (o t v : Nat), s.chip.starts e 0x01 = true → s.chip.plain e = true →
    o = bits ((s.chip.entry e.val).bytes 32 4) 13 0 → t = bits ((s.chip.entry e.val).bytes 32 4) 17 16 →
    v = (s.chip.entry e.val).bytes 36 4 → bit ((s.chip.entry e.val).bytes 32 4) 31 = false →
    (s.chip.started e).waitersOf o = [] → initOk t v = true →
    s.takes (.syncCfg e) (fun c => (s.chip.putObj o (objInit t v none)).ends c e stOK 0))
  ∧ (∀ (s : State) (e : EntryId) (p d : Nat), s.chip.starts e 0x02 = true → s.chip.plain e = true →
    p = (s.chip.entry e.val).pasture → d = (s.chip.entry e.val).bytes 32 4 → bit ((s.chip.entry e.val).bytes 36 4) 0 = false →
    (s.chip.past p).presence ≠ .free → (s.chip.past p).pendingHold = none → (s.chip.past p).hold = none →
    ((s.chip.past p).between = true →
      s.takes (.hold e) (fun c =>
        (s.chip.updPast p (fun x => { x with
          tickDue := false, parked := false
          hold := some { duration := BitVec.ofNat 32 d, stopStreams := false
                         endsAt := if BitVec.ofNat 32 d = 0 then none else some (s.chip.now + (BitVec.ofNat 32 d).toNat) } })).ends c e stHELD
          ((s.chip.past p).round.toNat + (BitVec.ofNat 32 d).toNat * 2 ^ 32)))
    ∧ ((s.chip.past p).between = false →
      s.takes (.hold e) (fun c => c = (s.chip.started e).updPast p (fun x => { x with
        pendingHold := some { duration := BitVec.ofNat 32 d, stopStreams := false, entries := [e] } }))))
  ∧ (∀ (s : State) (e : EntryId) (p : Nat), s.chip.starts e 0x03 = true → s.chip.plain e = true →
    p = (s.chip.entry e.val).pasture → (s.chip.past p).presence ≠ .free → (s.chip.past p).restoreFailed = false →
    (s.chip.past p).pendingHold = none → (s.chip.past p).hold = none →
    s.takes (.release e) (fun c => s.chip.ends c e stOK ((s.chip.past p).round.toNat + b2n (s.chip.past p).held * 2 ^ 33)))
  ∧ (∀ (s : State) (e : EntryId) (p : Nat), s.chip.starts e 0x04 = true → s.chip.plain e = true →
    p = (s.chip.entry e.val).pasture → (s.chip.past p).presence ≠ .free →
    bit ((s.chip.entry e.val).bytes 32 4) 31 = false →
    ((s.chip.started e).abortHits e.val p = [] → s.takes (.abort e) (fun c => s.chip.ends c e stOK 0))
    ∧ (∀ t : EntryId, t ≠ e → (s.chip.started e).abortHits e.val p = [t.val] → (s.chip.entry t.val).state = .ready →
        (s.chip.entry t.val).opcode ≠ 0x02 → (s.chip.entry t.val).opcode ≠ 0x03 → (s.chip.entry t.val).opcode ≠ 0x04 →
        s.takes (.abort e) (fun c =>
          c = ((s.chip.started e).finish t.val stABORTED 0 (progressWord 0 0)).finish e.val stOK 1 (progressWord 100 0))))
  ∧ (∀ (s : State) (e : EntryId) (n : Nat), s.chip.starts e 0x0A = true → s.chip.plain e = true →
    n = bits ((s.chip.entry e.val).bytes 32 1) 1 0 → (s.chip.entry e.val).flag 20 = false →
    ((s.chip.started e).audit 7 (s.chip.entry e.val).origin stOK (natLe 4 n ++ natLe 4 0)).2 = true →
    s.takes (.setProfile e) (fun c => c = ({ ((s.chip.started e).audit 7 (s.chip.entry e.val).origin stOK (natLe 4 n ++ natLe 4 0)).1
        with next := some (BitVec.ofNat 2 n) } : Chip).finish e.val stOK 0 (progressWord 100 0)))

/-- SET_DOMAIN, SET_OP_POINT and TEST_UNIT complete.
SET_DOMAIN of a domain already in the state asked for ends OK with that state as result; a request out of ON, with no refusal
and no transition in progress, starts the drain and the command stays RUNNING until it ends (DRAIN_END).
SET_OP_POINT within 550–900 mV in steps of 5, on a die that no RUNNING pasture touches, sets the target and takes the step
that falls due at once, which completes it.
TEST_UNIT of a unit of this package that carries no live state and is no vertical link records the outcome of its tests, clears
the tile and completes the commands that wait on it; with no test named it completes at once. -/
def Obligations.UnitCommandsComplete : Prop :=
  (∀ (s : State) (e : EntryId) (n : Nat) (t : DomState), s.chip.starts e 0x08 = true → s.chip.plain e = true →
    n = bits ((s.chip.entry e.val).bytes 32 4) 9 0 → domOf (bits ((s.chip.entry e.val).bytes 32 4) 17 16) = some t →
    (s.chip.dom n).current = none → (s.chip.dom n).draining = false → (s.chip.dom n).waking = false → domKind n ≠ .nothing →
    ((s.chip.dom n).state = t →
      s.takes (.setDomain e) (fun c => (s.chip.updDom n (fun d => { d with lastStatus := BitVec.ofNat 8 stOK, drainTime := 0 })).ends c e stOK (domNum t)))
    ∧ ((s.chip.dom n).state = .on → t ≠ .on →
      (s.chip.started e).refusals n t { target := t, asker := .command e, origin := (s.chip.entry e.val).asOrigin } = [] →
      s.takes (.setDomain e) (fun c => c = (s.chip.started e).updDom n (fun d => { d with
        draining := true, prev := .on, drainFrom := s.chip.now
        current := some { target := t, asker := .command e, origin := (s.chip.entry e.val).asOrigin } }))))
  ∧ (∀ (s : State) (e : EntryId) (d mv : Nat), s.chip.starts e 0x09 = true →
    d = bits ((s.chip.entry e.val).bytes 32 1) 1 0 → mv = (s.chip.entry e.val).bytes 36 2 →
    550 ≤ mv → mv ≤ 900 → mv % 5 = 0 → s.chip.residents.any (fun p => (s.chip.past p).touchesDie d && (s.chip.past p).running) = false →
    s.takes (.setOpPoint e) (fun c =>
      c = (((s.chip.started e).updDie d (fun r => { r with target := mv, waiters := r.waiters ++ [e] })).dueStep d).takeStep d))
  ∧ (∀ (s : State) (e : EntryId) (fails : BitVec 5) (u ran : Nat), s.chip.starts e 0x07 = true →
    u = (s.chip.entry e.val).testUnit → ran = bits ((s.chip.entry e.val).bytes 36 4) 4 0 →
    bits ((s.chip.entry e.val).bytes 32 4) 7 0 = s.chip.pkg → unitExists u = true → ran &&& unitTests u = ran →
    (s.chip.unit u).applied ≠ .off →
    (ran = 0 → s.takes (.testUnit e fails) (fun c => c = (s.chip.started e).finishTest e.val 0 0))
    ∧ (ran ≠ 0 → unitKind u ≠ 4 → (s.chip.started e).liveUnit u = false → (s.chip.started e).heldFor u = none →
        s.takes (.testUnit e fails) (fun c =>
          c = (((s.chip.started e).recordTest u ran (fails.toNat &&& ran)).clearTested u).endTests u (fails.toNat &&& ran))))

/-- UNLOAD and SHIFT complete.
UNLOAD of a pasture that is neither RUNNING nor about to hold, and that no other waiting command names, ends its RUN if one is
left, returns its sync objects to NONE, frees it and ends OK with the number of its tiles; its identifier is free.
SHIFT between rounds of a SHIFTABLE resident pasture for which a new footprint is found moves it and ends OK with its round and
the tiles moved; during a round it waits for the next muster. -/
def Obligations.MovingCommandsComplete : Prop :=
  (∀ (s : State) (e : EntryId) (p : Nat), s.chip.starts e 0x06 = true → p = (s.chip.entry e.val).pasture →
    (s.chip.past p).presence ≠ .free → (s.chip.past p).running = false → (s.chip.past p).pendingHold = none →
    ((s.chip.started e).live.filter (fun y => y.1 != e.val && (y.2.state == .waiting || y.2.state == .ready) && !namesNone y.2.opcode
        && y.2.pasture == p)) = [] →
    s.takes (.unload e) (fun c =>
      c = (((((s.chip.started e).endRun p stABORTED).dropObjs p).forget p)).finishOk e.val (s.chip.past p).tiles.length
      ∧ ((((s.chip.started e).endRun p stABORTED).dropObjs p).forget p).past p = Past.init))
  ∧ (∀ (s : State) (e : EntryId) (p avoid : Nat), s.chip.starts e 0x05 = true → p = (s.chip.entry e.val).pasture →
    avoid = bits ((s.chip.entry e.val).bytes 32 1) 3 0 → (s.chip.past p).presence = .resident →
    (s.chip.past p).flags.getLsbD flSHIFTABLE = true →
    (∀ (d : Chip) (n : Nat), (s.chip.past p).between = true → (s.chip.started e).shiftPast p avoid = (d, stOK, n) →
      s.takes (.shift e) (fun c => c = d.finish e.val stOK ((d.past p).round.toNat + n * 2 ^ 32) (progressWord 100 0)))
    ∧ ((s.chip.past p).between = false →
      s.takes (.shift e) (fun c => c = (s.chip.started e).updPast p (fun x => { x with shifts := x.shifts ++ [(e, BitVec.ofNat 4 avoid)] }))))

/-- RUN, LADDER, INJECT and PASS take their effect.
RUN of a resident pasture with no RUN in flight, PERIOD at most 1 s: the run stands with its period and round count, no round is
anchored yet, and the first round falls due.
LADDER on the root of a ladder with no RUN in flight starts the ladder from s0 = the round counter, under a RUN of its own.
INJECT of up to 4,096 words that each keep R422, for a resident RUNNING pasture, queues them behind the entry, which
completes when the last has entered; for a resident pasture that is IDLE without a hold it ends OK with the count.
PASS without STAGE on tensor tiles of this package loads their windows and starts the chain of each target, which completes it
when the last has ended. -/
def Obligations.EngineCommandsTakeEffect : Prop :=
  (∀ (s : State) (e : EntryId) (p : Nat), s.chip.starts e 0x10 = true → p = (s.chip.entry e.val).pasture →
    (s.chip.past p).presence = .resident → (s.chip.past p).restoreFailed = false → (s.chip.past p).run = none →
    (s.chip.entry e.val).bytes 32 4 ≤ 1000000 →
    s.takes (.run e) (fun c => c = ((s.chip.started e).updPast p (fun x => { x with
      run := some { entry := some e, ladder := false, period := BitVec.ofNat 32 ((s.chip.entry e.val).bytes 32 4)
                    rounds := BitVec.ofNat 32 ((s.chip.entry e.val).bytes 36 4), advanced := 0, saturated := false, degraded := false }
      paced := BitVec.ofNat 32 ((s.chip.entry e.val).bytes 32 4) != 0, period := BitVec.ofNat 32 ((s.chip.entry e.val).bytes 32 4)
      anchored := false })).due p))
  ∧ (∀ (s : State) (e : EntryId) (p i : Nat) (l : Ladder), s.chip.starts e 0x30 = true → p = (s.chip.entry e.val).pasture →
    s.chip.ladderOf p = some (i, l) → l.root = true → (s.chip.past p).presence = .resident → (s.chip.past p).kind = 1 →
    (s.chip.past p).restoreFailed = false → (s.chip.past p).run = none → (s.chip.entry e.val).bytes 48 4 ≤ 1000000 →
    s.takes (.ladder e) (fun c => c =
      ((s.chip.started e).putLadder i (l.begin (s.chip.past p).round (some e)
        (if bit ((s.chip.entry e.val).bytes 36 4) 0 then some (BitVec.ofNat 32 ((s.chip.entry e.val).bytes 32 4)) else none)
        (BitVec.ofNat 32 ((s.chip.entry e.val).bytes 40 4)) (BitVec.ofNat 16 ((s.chip.entry e.val).bytes 44 2)))).beginRun p
        { entry := some e, ladder := true, period := BitVec.ofNat 32 ((s.chip.entry e.val).bytes 48 4), rounds := 0, advanced := 0
          saturated := false, degraded := false }))
  ∧ (∀ (s : State) (e : EntryId) (p src n : Nat), s.chip.starts e 0x11 = true → p = (s.chip.entry e.val).pasture →
    src = (s.chip.entry e.val).bytes 32 8 → n = (s.chip.entry e.val).bytes 40 2 → src % 8 = 0 → 1 ≤ n → n ≤ 4096 →
    (s.chip.past p).presence = .resident → (s.chip.past p).held = false → (s.chip.started e).hostStatus = none →
    (fields 8 n (memReadN s.chip.host src (8 * n))).all (injectOk (s.chip.past p)) = true →
    ((s.chip.past p).running = true →
      s.takes (.inject e) (fun c => c = ((s.chip.started e).updPast p (fun x =>
        { x with inject := x.inject ++ (fields 8 n (memReadN s.chip.host src (8 * n))).map (fun w => { word := BitVec.ofNat 64 w, entry := some e }) })).unpark p))
    ∧ ((s.chip.past p).running = false →
      s.takes (.inject e) (fun c => c = ((s.chip.started e).updPast p (fun x =>
        { x with inject := x.inject ++ (fields 8 n (memReadN s.chip.host src (8 * n))).map (fun w => { word := BitVec.ofNat 64 w, entry := none }) })).finishOk e.val
          (0xFFFFFFFF + n * 2 ^ 32))))
  ∧ (∀ (s : State) (e : EntryId) (p : Nat) (t : PTile), s.chip.starts e 0x20 = true → p = (s.chip.entry e.val).pasture →
    (s.chip.past p).presence = .resident → (s.chip.entry e.val).targets = [(t.imgPkg.toNat, t.imgDie.val, t.imgTile.val)] →
    (s.chip.past p).imageTile t.imgPkg.toNat t.imgDie.val t.imgTile.val = some t → tileKind t.imgTile.val = .tensor →
    ((s.chip.past p).img.tilesOf t.imgPkg.toNat t.imgDie.val).any (fun u => u.tile == t.imgTile.val && u.core) = true →
    bit ((s.chip.entry e.val).bytes 52 4) 31 = false →
    s.takes (.pass e) (fun c =>
      c = (((((s.chip.started e).loadWindows (s.chip.past p) t).wakeTile t.key).updEntry e.val
        (fun x => { x with parts := 1, status := BitVec.ofNat 8 stOK, result := 0, done := 0 })).chainOn t.key
          { desc := BitVec.ofNat 6 ((s.chip.entry e.val).bytes 48 4), waiting := false, entry := some e, round := none, status := 0 })))

/-- COPY from a bank of this package to host memory completes: a COPY of at most 4 KiB out of a core tile's bank whose words
are all sound, to host memory behind a live gate, stores exactly those words there, counts the bytes moved, and ends OK with
the length as result. -/
def Obligations.CopyToHostStoresTheSourceWords : Prop :=
  ∀ (s : State) (e : EntryId) (p n dst : Nat) (t : PTile) (ws : List Nat) (d : Chip), s.chip.starts e 0x40 = true →
    s.chip.plain e = true → p = (s.chip.entry e.val).pasture → (s.chip.past p).presence = .resident →
    (s.chip.started e).copyOk (s.chip.past p) (s.chip.entry e.val) = true →
    bits ((s.chip.entry e.val).bytes 52 1) 1 0 = 1 → bits ((s.chip.entry e.val).bytes 52 1) 3 2 = 0 →
    dst = (s.chip.entry e.val).bytes 40 8 → n = bits ((s.chip.entry e.val).bytes 48 4) 24 0 → n ≤ 4096 →
    (s.chip.entry e.val).done = 0 →
    (s.chip.past p).imageTile (copyTile ((s.chip.entry e.val).bytes 32 8)).1 (copyTile ((s.chip.entry e.val).bytes 32 8)).2.1
      (copyTile ((s.chip.entry e.val).bytes 32 8)).2.2.1 = some t →
    (s.chip.started e).tileRead t.key ((copyTile ((s.chip.entry e.val).bytes 32 8)).2.2.2 / 8) (n / 8) = (d, ws, false) →
    s.chip.bankOn t.key = true → d.hostStatus = none →
    s.takes (.copy e) (fun c => ∃ gs, c.host = memWriteN s.chip.host dst (gs.flatMap (natLe 8))
      ∧ gs = goodWords (d.tile t.key).bankCtx ((copyTile ((s.chip.entry e.val).bytes 32 8)).2.2.2 / 8) 0 ws
      ∧ (gs.length = n / 8 → c.done e stOK n = true))

/-- LOAD, PAGE_OUT, PAGE_IN, RESTORE and CHECKPOINT complete.
LOAD from host memory of an image that can be placed, for a free identifier, ends OK with the tiles taken here, the packages and
the round; PAGE_OUT of a pasture that is not RUNNING writes its image, evicts it and ends OK with the length; PAGE_IN of a pasture
that is not resident places it from the image, ends OK and lets its rounds resume; RESTORE takes the state of a checkpoint and
ends OK with the round; CHECKPOINT between rounds is taken at once and during a round waits for the next muster. -/
def Obligations.ImageCommandsComplete : Prop :=
  (∀ (s : State) (e : EntryId) (p : Nat) (d : Chip), s.chip.starts e 0x41 = true → p = (s.chip.entry e.val).pasture →
    (s.chip.past p).presence = .free → bit ((s.chip.entry e.val).bytes 44 1) 0 = false → (s.chip.entry e.val).bytes 32 8 % 64 = 0 →
    (s.chip.started e).hostStatus = none → (s.chip.entry e.val).source ≠ .share →
    (s.chip.started e).place false p (memReadN s.chip.host ((s.chip.entry e.val).bytes 32 8) ((s.chip.entry e.val).bytes 40 4)) = (d, stOK) →
    s.takes (.load e) (fun c => c = (d.shareOut e.val).1.finishOk e.val ((d.past p).tiles.length % 65536
      + ((d.past p).packages.toNat - 1) % 256 * 2 ^ 16 + (d.past p).round.toNat * 2 ^ 32)))
  ∧ (∀ (s : State) (e : EntryId) (p a : Nat) (d : Chip) (b : List Byte), s.chip.starts e 0x42 = true →
    p = (s.chip.entry e.val).pasture → a = (s.chip.entry e.val).bytes 32 8 → a % 64 = 0 → (s.chip.past p).presence = .resident →
    (s.chip.past p).running = false → (s.chip.started e).captureImage p 1 0 = (d, some b) → b.length ≤ (s.chip.entry e.val).bytes 40 4 →
    (s.chip.started e).hostStatus = none →
    s.takes (.pageOut e) (fun c => c = ((d.hostWrite a b).evict p a b.length (decide ((s.chip.started e).areaBase ≤ a)
      && decide (a + b.length ≤ (s.chip.started e).areaBase + (s.chip.started e).areaBytes))).finishOk e.val b.length))
  ∧ (∀ (s : State) (e : EntryId) (p : Nat) (d : Chip), s.chip.starts e 0x43 = true → p = (s.chip.entry e.val).pasture →
    (s.chip.entry e.val).bytes 32 8 % 64 = 0 → (s.chip.past p).presence = .pagedOut → (s.chip.started e).hostStatus = none →
    (s.chip.started e).pageInFrom p (memReadN s.chip.host ((s.chip.entry e.val).bytes 32 8) ((s.chip.entry e.val).bytes 40 4)) = (d, stOK) →
    s.takes (.pageIn e) (fun c => c = (({ d with sliceQ := d.sliceQ.filter (fun y => y.val != p) } : Chip).finishOk e.val 0).resume p))
  ∧ (∀ (s : State) (e : EntryId) (p : Nat) (d : Chip), s.chip.starts e 0x45 = true → p = (s.chip.entry e.val).pasture →
    (s.chip.past p).running = false → (s.chip.started e).hostStatus = none →
    (s.chip.started e).restoreFrom p (memReadN s.chip.host ((s.chip.entry e.val).bytes 32 8) ((s.chip.entry e.val).bytes 40 4)) = (d, stOK) →
    s.takes (.restore e) (fun c => c = d.finishOk e.val (d.past p).round.toNat))
  ∧ (∀ (s : State) (e : EntryId) (p : Nat), s.chip.starts e 0x44 = true → p = (s.chip.entry e.val).pasture →
    (s.chip.past p).presence = .resident → (s.chip.entry e.val).bytes 32 8 ≠ 0 → (s.chip.entry e.val).bytes 32 8 % 64 = 0 →
    (s.chip.entry e.val).bytes 44 4 = 0 →
    (∀ d crcs, (s.chip.past p).between = true →
      (s.chip.started e).captureTo p { addr := (s.chip.entry e.val).bytes 32 8, len := (s.chip.entry e.val).bytes 40 4, slot := none } = (d, stOK, crcs) →
      s.takes (.checkpoint e) (fun c => c = (d.boundary p { addr := (s.chip.entry e.val).bytes 32 8, len := (s.chip.entry e.val).bytes 40 4, slot := none } crcs).finishOk e.val
        (((d.boundary p { addr := (s.chip.entry e.val).bytes 32 8, len := (s.chip.entry e.val).bytes 40 4, slot := none } crcs).past p).round.toNat)))
    ∧ ((s.chip.past p).between = false →
      s.takes (.checkpoint e) (fun c => c = (s.chip.started e).updPast p (fun x => { x with ckpts := x.ckpts ++ [e] }))))

/-- NV_SAVE, NV_LOAD and REPLAY_CHECK take their effect.
NV_SAVE of a resident pasture with an NV area starts the save of its dirty pages, which completes the command when its last
page has been written (NV_PAGE_WRITE).
NV_LOAD of a resident pasture that is not RUNNING ends with the status of the area's copies, the pages taken and the pages of
the other copy.
REPLAY_CHECK of a readable log of the pasture, for no more rounds than it holds, replays them on a copy placed like a LOAD
and ends as the replay does. -/
def Obligations.StoreCommandsTakeEffect : Prop :=
  (∀ (s : State) (e : EntryId) (p : Nat) (d : Chip), s.chip.starts e 0x46 = true → p = (s.chip.entry e.val).pasture →
    (s.chip.past p).presence = .resident → (s.chip.started e).areaOf p ≠ none →
    (s.chip.started e).beginSave p (bit ((s.chip.entry e.val).bytes 32 1) 0) (some e) = (d, stOK) → s.takes (.nvSave e) (fun c => c = d))
  ∧ (∀ (s : State) (e : EntryId) (p : Nat) (d : Chip) (n m : Nat), s.chip.starts e 0x47 = true → p = (s.chip.entry e.val).pasture →
    (s.chip.past p).presence = .resident → (s.chip.past p).running = false → (s.chip.started e).nvLoad p = (d, stOK, n, m) →
    s.takes (.nvLoad e) (fun c => c = d.finish e.val stOK (n + m % 65536 * 2 ^ 32) (progressWord 100 0)))
  ∧ (∀ (s : State) (e : EntryId) (p a n : Nat) (b : List Byte) (g : LogRead) (pm : PlaceMap) (t : Chip), s.chip.starts e 0x12 = true →
    p = (s.chip.entry e.val).pasture → a = (s.chip.entry e.val).bytes 32 8 → n = (s.chip.entry e.val).bytes 48 4 → 1 ≤ n → n ≤ 65536 →
    (s.chip.past p).presence ≠ .free → (s.chip.past p).spans = false → s.chip.ladderOf p = none → (s.chip.started e).hostStatus = none →
    b = memReadN s.chip.host a (leAt (memReadN s.chip.host (a + 32) 4) 0 4) →
    imgOk b b.length 2 = true → (Img.read b).owner = p → (s.chip.started e).logAt a (Img.read b) = some g → g.broken = false → n ≤ g.logged →
    (s.chip.started e).searchAll (Img.read b) (fun _ => false) = some pm →
    t = ((((s.chip.started e).freeTiles p (s.chip.past p).tiles).install p (Img.read b) pm true).isolate p (Img.read b)) →
    s.takes (.replayCheck e) (fun c => c = ((s.chip.started e).placed.copyTilesDone (t.past p).touched).replayDone e.val (Img.read b).ckptRound n
      ((s.chip.past p).touched ++ (t.past p).touched)
      (Chip.replayRounds p ((s.chip.started e).placed.logInputs g)
        (fun k => leAt (memReadN s.chip.host ((s.chip.entry e.val).bytes 40 8 + 8 * k) 8) 0 8) n 0 t).2))

/-! ### Queue contexts and sync objects -/

/-- The doorbells. SQ_PI takes a value within the ring behind CI, CQ_CI one up to the producer index (R353, R354), each through the
open BAR with CONTROL ON; a value out of range leaves the index and is counted. REMOTE_DB_VAL rings the doorbell that REMOTE_DB
selects.

CTX_CTRL. ENABLE moves a DISABLED context with both ring sizes within 6–16 to ACTIVE, and its completions are written again;
STOP moves an ACTIVE one to STOPPING, ends its WAITING and READY commands and, with no command left, moves it to STOPPED; RESUME
moves one in ERROR back to ACTIVE; DISABLE moves one that is STOPPED or in ERROR with no command on the scoreboard to DISABLED
with its indices at 0. Context 4,095 takes them from INTERNAL alone. -/
def Obligations.ContextsFollowDoorbellsAndControl : Prop :=
  ((∀ (s : State) (q : CtxId) (v : W32), s.chip.held = false → s.chip.barOpen = true → s.chip.domOn domCONTROL = true →
    ((v - (s.chip.ctx q.val).pi).toNat
        ≤ ((s.chip.ctx q.val).ci + BitVec.ofNat 32 (2 ^ (s.chip.ctx q.val).logSq.toNat) - (s.chip.ctx q.val).pi).toNat →
      s.takes (.sqPi q v) (fun c => c = s.chip.putCtx q.val { s.chip.ctx q.val with pi := v }))
    ∧ (((s.chip.ctx q.val).ci + BitVec.ofNat 32 (2 ^ (s.chip.ctx q.val).logSq.toNat) - (s.chip.ctx q.val).pi).toNat
        < (v - (s.chip.ctx q.val).pi).toNat →
      s.takes (.sqPi q v) (fun c => (c.ctx q.val).pi = (s.chip.ctx q.val).pi
        ∧ (c.ctx q.val).dbErrors = BitVec.ofNat 16 (satAdd 16 (s.chip.ctx q.val).dbErrors.toNat 1))))
  ∧ (∀ (s : State) (q : CtxId) (v : W32), s.chip.held = false → s.chip.barOpen = true → s.chip.domOn domCONTROL = true →
    (v - (s.chip.ctx q.val).cqCi).toNat ≤ ((s.chip.ctx q.val).cqPi - (s.chip.ctx q.val).cqCi).toNat →
    s.takes (.cqCi q v) (fun c => c = s.chip.putCtx q.val { s.chip.ctx q.val with cqCi := v, cqWaiting := false }))
  ∧ (∀ (s : State) (o : Origin) (v : W32), s.chip.accepts pgGATE 0x11C o = true → s.chip.domOn domCONTROL = true →
    bit ((s.chip.page pgGATE).rd 0x118) 12 = true →
    s.takes (.remoteDbVal o v) (fun c => c = s.chip.doorbellCi (bits ((s.chip.page pgGATE).rd 0x118) 11 0) v)))
  ∧ (∀ (s : State) (o : Origin), s.chip.accepts pgSHEP 0x108 o = true → (s.chip.ctxSel ≠ 4095 ∨ o = .internal) →
    ((s.chip.ctx s.chip.ctxSel).state = .disabled →
      6 ≤ (s.chip.ctx s.chip.ctxSel).logSq.toNat → (s.chip.ctx s.chip.ctxSel).logSq.toNat ≤ 16 →
      6 ≤ (s.chip.ctx s.chip.ctxSel).logCq.toNat → (s.chip.ctx s.chip.ctxSel).logCq.toNat ≤ 16 →
      s.takes (.enable o) (fun c => (c.ctx s.chip.ctxSel).state = .active
        ∧ c.ctxs = (s.chip.putCtx s.chip.ctxSel { s.chip.ctx s.chip.ctxSel with state := .active }).ctxs
        ∧ c.gate.lost = s.chip.gate.lost.filter (fun y => y.val != s.chip.ctxSel)))
    ∧ ((s.chip.ctx s.chip.ctxSel).state = .active →
      s.takes (.stop o) (fun c => c = ((s.chip.updCtx s.chip.ctxSel (fun x => { x with state := .stopping })).abortQueued
        s.chip.ctxSel).maybeStopped s.chip.ctxSel))
    ∧ ((s.chip.ctx s.chip.ctxSel).state = .error →
      s.takes (.resume o) (fun c => c = s.chip.putCtx s.chip.ctxSel { s.chip.ctx s.chip.ctxSel with state := .active }))
    ∧ ((s.chip.ctx s.chip.ctxSel).state = .stopped ∨ (s.chip.ctx s.chip.ctxSel).state = .error → s.chip.onBoard s.chip.ctxSel = 0 →
      s.takes (.disable o) (fun c => c = s.chip.putCtx s.chip.ctxSel { s.chip.ctx s.chip.ctxSel with
        state := .disabled, pi := 0, ci := 0, cqPi := 0, cqCi := 0, counted := 0, cqWaiting := false })))

/-- FETCH takes the head record of the context with the highest priority, then the smallest V; a record in sequence is accepted into
the lowest FREE entry (R356, R366). COMPLETION_RECORD_WRITE writes the record of the oldest finished command of its context, once
there is room, raises CQ_PI and frees the entry (R361, R362). MOD_DELAY sends the vector of a context that has counted a completion
and starts its count again (R355). COMMAND_SHARE places the share of another package's command as READY in the lowest FREE
entry (R904). -/
def Obligations.RecordsEnterAndLeaveTheScoreboard : Prop :=
  (∀ (s : State) (q e : Nat) (x : Ctx), s.chip.held = false → q ≠ 4095 → s.chip.noteEligible.dmaOk = true →
    chooseCtx (s.chip.noteEligible.ctxs.filter (fun y => s.chip.noteEligible.eligible y.1)) = some (q, x) →
    s.chip.noteEligible.freeSlot = some e →
    subMod 65536 (s.chip.noteEligible.headEntry q).seq (s.chip.noteEligible.ctx q).seqNext.toNat = 0 →
    s.takes .fetch (fun c => c = s.chip.noteEligible.acceptRecord q e (s.chip.noteEligible.headEntry q)))
  ∧ (∀ (s : State) (e : EntryId) (q : CtxId), s.chip.held = false → (s.chip.entry e.val).source = .ctx q →
    (s.chip.entry e.val).state = .completing → s.chip.firstDone e.val = true → s.chip.discards q.val = false →
    (s.chip.gate.d3hot = false ∨ q.val = 4095) → (s.chip.ctx q.val).cqRoom = true →
    s.takes (.completionRecordWrite e) (fun c => c =
      (((s.chip.writeRecord q.val (s.chip.entry e.val).seq (s.chip.entry e.val).status.toNat (unitOf (s.chip.entry e.val).opcode)
        (s.chip.entry e.val).progress.toNat (s.chip.entry e.val).result.toNat ((s.chip.entry e.val).flag 16)).answerSubmit
          (s.chip.entry e.val)).freeEntry e.val)))
  ∧ (∀ (s : State) (q : CtxId), s.chip.held = false → (s.chip.ctx q.val).counted ≠ 0 → (s.chip.ctx q.val).modDelay ≠ 0 →
    (s.chip.ctx q.val).irqEn = true →
    s.takes (.modDelay q) (fun c => c = (s.chip.putCtx q.val { s.chip.ctx q.val with counted := 0 }).msix (s.chip.ctx q.val).vector.toNat))
  ∧ (∀ (s : State) (hdr : W64) (ws : List W64) (e : Nat), s.chip.held = false → ws.length = 8 → s.chip.reaches hdr.toNat pgSHEP = true →
    (Hdr.of hdr.toNat).origin = 0 → s.chip.domOn domCONTROL = true → s.chip.freeSlot = some e →
    s.takes (.commandShare hdr ws) (fun c => (c.entry e).state = .ready ∧ (c.entry e).source = .share ∧ (c.entry e).words = ws
      ∧ (c.entry e).readyNo = s.chip.readied ∧ c.readied = s.chip.readied + 1 ∧ ∀ f, f ≠ e → c.entry f = s.chip.entry f))

/-- ADD and SET on a sync object of the muster unit by class HOST, from no pasture, on an object that is not OWNED: the operation of
R363 is applied to its state and counted, and every waiter is looked at again; an operation that the object does not take
is only counted as discarded. On a core tile's local counter ADD by class TEST adds modulo 2^32, and waiting
orders are looked at again.

OBJ_CFG gives the selected object a type with its state at 0 and its owner, and looks at every waiter again; POOL_GRANT gives a
free unit of a pool to the oldest request that waits for it. -/
def Obligations.SyncOperationsAndObjectsApply : Prop :=
  ((∀ (s : State) (m : SyncOp) (y : SyncObj), s.chip.held = false → m.tile = none → m.origin = .host → m.sender = none →
    s.chip.pkg < 256 → s.chip.domOn domCONTROL = true → (s.chip.obj m.object.toNat).owned = false →
    (s.chip.obj m.object.toNat).poisoned = false →
    ((s.chip.obj m.object.toNat).apply 0 (sext 16 m.operand.toNat) = some y →
      s.takes (.add m) (fun c => c = ((s.chip.putObj m.object.toNat y).countWrap pgMUSTER 0x140 1).recheck))
    ∧ ((s.chip.obj m.object.toNat).apply 1 (sext 16 m.operand.toNat) = some y →
      s.takes (.set m) (fun c => c = ((s.chip.putObj m.object.toNat y).countWrap pgMUSTER 0x140 1).recheck))
    ∧ ((s.chip.obj m.object.toNat).apply 0 (sext 16 m.operand.toNat) = none →
      s.takes (.add m) (fun c => c = (s.chip.count pgMUSTER 0x144 1).raise pgMUSTER 1)))
  ∧ (∀ (s : State) (m : SyncOp) (d : DieId) (t : TileId), s.chip.held = false → m.tile = some (d, t) → m.origin = .test → m.sender = none →
    s.chip.pkg < 256 → m.object.toNat < 16 → s.chip.routerServes (tkey d t) = true → s.chip.coreServes (tkey d t) = true →
    tileKind t.val ≠ .port →
    s.takes (.add m) (fun c => ∃ b, b = (s.chip.wakeTile (tkey d t)).updTile (tkey d t) (fun u => { u with orders := { u.orders with
        lsync := listSet u.orders.lsync m.object.toNat
          (BitVec.ofNat 32 ((nth 0 u.orders.lsync m.object.toNat).toNat + unsext 32 (sext 16 m.operand.toNat))) } })
      ∧ c = b.serveOrders (tkey d t) {} ((b.tile (tkey d t)).q.command.length + 2))))
  ∧ ((∀ (s : State) (o : Origin) (v : W32) (w : Nat), s.chip.accepts pgMUSTER 0x104 o = true → w = v.toNat &&& 0x83FF0003 →
    s.takes (.objCfg o v) (fun c => c = (s.chip.putObj ((s.chip.page pgMUSTER).rd 0x100 % 16384)
      { objInit (bits w 1 0) 0 (if bit w 31 then some (bits w 25 16) else none) with
        owner := Fin.ofNat 1024 (bits w 25 16) }).recheck))
  ∧ (∀ (s : State) (i : Fin 3) (p : Pool) (r : Nat) (l : List Nat), s.chip.held = false →
    p = nth { used := 0, queue := [] } s.chip.pools i.val → p.queue = r :: l → p.used < poolSize i.val →
    s.takes (.poolGrant i) (fun c => c = { s.chip with pools := listSet s.chip.pools i.val { used := p.used + 1, queue := l } })))

/-- A counter takes ADD and SET modulo 2^32, an event is set by any ADD and holds whether the operand of SET is not 0, an object of
type NONE takes neither, and a barrier takes ADD k for k ≥ 1 by raising GEN once for each EXPECTED arrivals and SET k for k ≥ 1 by
taking k as EXPECTED with no arrival; it takes no k below 1. A wait on a counter or barrier is met while (state − W_VALUE) mod 2^32 < 2^31, on an event while it is 1, and
on NONE never (R363). -/
def Obligations.SyncObjectTypesFollowTheTable : Prop :=
  ∀ (x : SyncObj) (k : Int),
    (x.type = 0 → x.apply 0 k = none ∧ x.apply 1 k = none)
    ∧ (x.type = 1 → x.apply 0 k = some { x with value := x.value + BitVec.ofInt 32 k }
        ∧ x.apply 1 k = some { x with value := BitVec.ofInt 32 k })
    ∧ (x.type = 2 → k < 1 → x.apply 0 k = none ∧ x.apply 1 k = none)
    ∧ (x.type = 2 → 1 ≤ k → x.apply 1 k = some { x with expected := BitVec.ofNat 16 k.toNat, arrived := 0 })
    ∧ (x.type = 2 → 1 ≤ k → x.expected ≠ 0 → ∃ y, x.apply 0 k = some y ∧ y.expected = x.expected
        ∧ y.value = x.value + BitVec.ofNat 32 ((x.arrived.toNat + k.toNat) / x.expected.toNat)
        ∧ y.arrived.toNat = (x.arrived.toNat + k.toNat) % x.expected.toNat)
    ∧ (x.type = 3 → x.apply 0 k = some { x with value := 1 } ∧ x.apply 1 k = some { x with value := if k = 0 then 0 else 1 })
    ∧ (∀ v : W32, (x.type = 0 → x.holds v.toNat = false)
        ∧ (x.type = 1 ∨ x.type = 2 → x.holds v.toNat = decide ((x.value - v).toNat < 2 ^ 31))
        ∧ (x.type = 3 → x.holds v.toNat = decide (x.value = 1)))

/-! ### Tile orders, messages and registers -/

/-- A legal order whose wait is met, at a tile that is idle, runs at once and ends as R153 says, with its signal.
NOP ends OK. RUN_CHAIN on a tensor core that no pasture's round chain holds starts a Dense-engine chain at descriptor ARG.
CLEAR, TEST and RESET of a tile without live state clear it; CLEAR ends OK, or FENCED where the read-back fails, which fences the
core and the bank; TEST runs the tests of ARG and ends OK, or FENCED where one of them fails; RESET also returns the tile's router and
core registers to their reset values. On a tile with live state they end BUSY_PASTURE. The core then goes on with its queue. -/
def Obligations.TileOrdersRunAndEnd : Prop :=
  ∀ (s : State) (d : DieId) (t : TileId) (hdr : W64) (ws : List W64) (k : Nat) (o : TileOrder) (x : Chip), k = tkey d t →
    o = ordOf (hdr :: ws) → s.chip.orderServed k hdr ws = true → x = s.chip.orderTaken k hdr ws →
    (ordTop ws = 0 → s.takes (.torderNop d t hdr ws) (fun c => c = (x.endOrder k o stOK).serveOrders k {} 2))
    ∧ (ordTop ws = 1 → x.denseBarred k = false → s.takes (.runChain d t hdr ws) (fun c =>
        c = (x.chainOn k { desc := BitVec.ofNat 6 (ordArg ws), waiting := false, entry := none, round := none, status := 0 }).serveOrders k {} 2))
    ∧ (ordTop ws = 2 → x.liveTile k = false →
        s.takes (.clear d t hdr ws false) (fun c => c =
          (((x.orderFreed k).clearCore k (fun _ => true)).endOrder k o stOK).serveOrders k {} 2)
        ∧ s.takes (.clear d t hdr ws true) (fun c => c =
          ((((x.orderFreed k).clearCore k (fun _ => true)).clearFailed k).endOrder k o stFENCED).serveOrders k { readBackFails := true } 2))
    ∧ (∀ fails : BitVec 5, ordTop ws = 3 → x.liveTile k = false → s.takes (.test d t hdr ws fails) (fun c => c =
        (((x.orderFreed k).testTile k (ordArg ws) fails.toNat).endOrder k o (if fails.toNat &&& ordArg ws = 0 then stOK else stFENCED)).serveOrders k
          { fails := fails.toNat } 2))
    ∧ (ordTop ws = 4 → x.liveTile k = false → s.takes (.torderReset d t hdr ws) (fun c => c =
        ((((x.orderFreed k).clearCore k (fun _ => true)).resetTileRegs k).endOrder k o stOK).serveOrders k {} 2))
    ∧ (ordTop ws = 2 → x.liveTile k = true → s.takes (.clear d t hdr ws false) (fun c => c =
        (x.endOrder k o stBUSY_PASTURE).serveOrders k {} 2))

/-- When an order of opcode TOP ends with status st, TORDER_STATUS of its tile holds st in bits 7:0 and TOP in bits 15:8, TORDER_COUNT
has counted one more modulo 2^32, no order is current there, and no other tile and no pasture has changed. -/
def Obligations.EndedOrderIsReported : Prop :=
  ∀ (c : Chip) (k : Nat) (o : TileOrder) (st : Nat), st < 256 →
    (((c.endOrder k o st).tile k).pCore.rd 0x380 = st + 256 * ordTop o.words)
    ∧ (((c.endOrder k o st).tile k).pCore.rd 0x384 = ((c.tile k).pCore.rd 0x384 + 1) % 2 ^ 32)
    ∧ ((c.endOrder k o st).tile k).orders.current = none
    ∧ (∀ j, j ≠ k → (c.endOrder k o st).tile j = c.tile j)
    ∧ (c.endOrder k o st).pasts = c.pasts

/-- An AXON or TALLY that keeps every check of its core tile is placed behind the inbound queue, whose high-water mark follows,
and the core then drains the queue; one that fails a check is discarded in its class and changes nothing but the router
page. Either wakes the tile.

FLOCK: a router that serves takes the FLOCK in on one of its five mesh and vertical inputs, for the pasture whose slot binds that input, and its outputs go on.
DROVE_ENTRY: the output runs the entry it stands at, as far as it can. CLOSE: once every output of the close mask stands at the
close, it leaves the head of its input and each of those outputs ends its pace.

A close is removed only when its join is complete: while some output of the close mask does not stand at the close, nothing
leaves the input. When it is removed, the head of the input was a close, and every output of the mask stood at it. -/
def Obligations.EventsAndRoutersMove : Prop :=
  (∀ (s : State) (p : PastureId) (d : DieId) (t : TileId) (hdr : W64) (k : Nat) (x : Chip) (u : Tile), s.chip.held = false → k = tkey d t →
    s.chip.routerServes k = true → x = s.chip.wakeTile k → u = x.mesh.tile k →
    (∀ q : TileQueues, deliverClass x.mesh.env k p.val (Hdr.of hdr.toNat) = none → q = { u.q with axon := u.q.axon ++ [mkFlit hdr.toNat] } →
      ((Hdr.of hdr.toNat).kind = kAXON → s.takes (.axon p d t hdr) (fun c =>
        c = x.putMesh ((x.mesh.put k { u with q := raiseHigh q 0 q.axon.length }).serve k p.val)))
      ∧ ((Hdr.of hdr.toNat).kind = kTALLY → s.takes (.tally p d t hdr) (fun c =>
        c = x.putMesh ((x.mesh.put k { u with q := raiseHigh q 0 q.axon.length }).serve k p.val))))
    ∧ (∀ w : Discard, deliverClass x.mesh.env k p.val (Hdr.of hdr.toNat) = some w →
      s.takes (.axon p d t hdr) (fun c => c = x.putMesh (x.mesh.put k { u with pRouter := routerDiscard u.pRouter w hdr.toNat }))))
  ∧ ((∀ (s : State) (d : DieId) (t : TileId) (input : PortId) (hdr mask : W64) (k : Nat) (x : Chip), s.chip.held = false → k = tkey d t →
    input.val ≠ 4 → s.chip.routerServes k = true → x = s.chip.wakeTile k →
    s.takes (.flock d t input hdr mask) (fun c =>
      c = x.putMesh ((x.mesh.takeIn k input.val (x.boundAt k input.val) [mkFlit hdr.toNat, mkFlit mask.toNat]).runTile k)))
  ∧ (∀ (s : State) (d : DieId) (t : TileId) (out : PortId) (k : Nat) (x : Chip), s.chip.held = false → k = tkey d t →
    s.chip.routerServes k = true → x = s.chip.wakeTile k → s.takes (.droveEntry d t out) (fun c => c = x.putMesh (x.mesh.runEntry k out.val)))
  ∧ (∀ (s : State) (d : DieId) (t : TileId) (input : PortId) (m : Mesh), s.chip.held = false →
    s.chip.mesh.join (tkey d t) input.val = some m → s.takes (.close d t input) (fun c => c = s.chip.putMesh m)))
  ∧ (∀ (m n : Mesh) (k port : Nat), m.join k port = some n →
    ∃ (sl : Slot) (l : List _), boundSlot (m.tile k) port = some sl ∧ nth [] (m.tile k).rt.inputs (inIdx port) = .close :: l
      ∧ ∀ o, o < 6 → (nth 0 sl.closeMask port).getLsbD o = true → standsAt (m.tile k) port o = true)

/-- A DATA bank write that keeps its layout, from class INTERNAL to a tile that its sender may reach, or to the commons bank,
stores its words from the byte address on; a bank that is asleep takes nothing and POWER counts it.

A READ_REQ of class INTERNAL, sent by no pasture's tile, is answered with a READ_RESP: bank words of an awake tile with OK,
or with UNCORRECTED where a word cannot be corrected; bank words of a tile whose bank is OFF with ASLEEP and no words.

A READ_RESP at the requester that an outstanding request names is taken once: the request is no longer outstanding, and the
answer goes on to what asked; one that answers no outstanding request is discarded as misaddressed. -/
def Obligations.BankAndReadMessagesAreServed : Prop :=
  (∀ (s : State) (sender : Option PastureId) (hdr w2 : W64) (ws : List W64) (a : Nat), s.chip.held = false → 1 ≤ ws.length → ws.length ≤ 30 →
    a = bits w2.toNat 24 0 → bankShape w2.toNat ws.length = true → hdrShape (Hdr.of hdr.toNat) = true →
    (Hdr.of hdr.toNat).kind = kDATA → (Hdr.of hdr.toNat).origin = 0 →
    (∀ k : Nat, k = tileKey (Hdr.of hdr.toNat).die (tileOf (Hdr.of hdr.toNat).x (Hdr.of hdr.toNat).y) → (Hdr.of hdr.toNat).tag < 2048 →
      (Hdr.of hdr.toNat).pkg = s.chip.pkg → tileKind (k % 256) ≠ .port → inBank a (8 * ws.length) (tileWords k) = true → s.chip.routerServes k = true →
      s.chip.mayReach (sender.map (fun p => p.val)) k = true →
      (s.chip.bankOn k = true → s.chip.coreServes k = true →
        s.takes (.bankWrite sender hdr (w2 :: ws)) (fun c => c = (s.chip.wakeTile k).tileWrite k a (nats ws)))
      ∧ (s.chip.bankOn k = false → s.takes (.bankWrite sender hdr (w2 :: ws)) (fun c => c = s.chip.count pgPOWER 0x14C 1)))
    ∧ ((Hdr.of hdr.toNat).tag = 2048 + pgCOMMONS → s.chip.baseNames (Hdr.of hdr.toNat) = true → inBank a (8 * ws.length) 2097152 = true →
      s.chip.domOn domCOMMONS = true →
      s.takes (.bankWrite sender hdr (w2 :: ws)) (fun c => c = s.chip.commonsWrite (a / 8) (nats ws))))
  ∧ (∀ (s : State) (hdr w2 : W64) (k a n : Nat), s.chip.held = false → readShape (Hdr.of hdr.toNat) w2.toNat = true →
    (Hdr.of hdr.toNat).tag < 2048 → (Hdr.of hdr.toNat).origin = 0 → (Hdr.of hdr.toNat).pkg = s.chip.pkg →
    k = tileKey (Hdr.of hdr.toNat).die (tileOf (Hdr.of hdr.toNat).x (Hdr.of hdr.toNat).y) → a = bits w2.toNat 24 0 → n = bits w2.toNat 31 28 + 1 →
    bit w2.toNat 27 = false → inBank a (8 * n) (tileWords k) = true → (s.chip.die (k / 256)).state ≠ .dead → s.chip.routerServes k = true →
    (s.chip.tile k).bank.fenced = false →
    (∀ (d : Chip) (ws : List Nat) (bad : Bool), s.chip.bankOn k = true → s.chip.coreServes k = true → (s.chip.wakeTile k).tileRead k (a / 8) n = (d, ws, bad) →
      s.takes (.readReq hdr w2) (fun c => c = d.send (readAnswer hdr.toNat w2.toNat (if bad then stUNCORRECTED else stOK) (some ws))))
    ∧ (s.chip.bankOn k = false → s.takes (.readReq hdr w2) (fun c => c = s.chip.send (readAnswer hdr.toNat w2.toNat stASLEEP none))))
  ∧ (∀ (s : State) (hdr w2 : W64) (ws : List W64) (pg : Nat), s.chip.held = false → 1 + ws.length ≤ 31 → respShape (Hdr.of hdr.toNat) w2.toNat (nats ws) = true →
    (Instr.readResp hdr (w2 :: ws)).wf = true → (Hdr.of hdr.toNat).tag = 2048 + pg → s.chip.baseNames (Hdr.of hdr.toNat) = true →
    (∀ r : Outstanding, s.chip.reads.find? (fun r => r.issuer == pg && r.rtag == bits w2.toNat 63 52) = some r →
      s.takes (.readResp hdr (w2 :: ws)) (fun c => c = ({ s.chip with reads := s.chip.reads.erase r } : Chip).takeAnswer r w2.toNat (nats ws)))
    ∧ (s.chip.reads.find? (fun r => r.issuer == pg && r.rtag == bits w2.toNat 63 52) = none →
      s.takes (.readResp hdr (w2 :: ws)) (fun c => c = s.chip.baseDiscard pg .misaddressed hdr.toNat)))

/-- Registers through BAR0 and the TAP. With the gate's BARs open, one register at a multiple of 4 or two at a multiple of 8
are written or read as class HOST, in rising order; a write of another size is refused with BAD_OPERAND at the gate. With the debug
lock open for registers, the TAP writes and reads as class TEST; with it closed, a write does nothing.

A register write by class `o` that a base-die page accepts reaches that register and no other check: it is the page's own write of
the bits that the register table lets a write reach; a class that the register does not permit is refused with NO_AUTHORITY, and the
register keeps its value. -/
def Obligations.RegisterPortsServeTheirClass : Prop :=
  ((∀ (s : State) (o : Origin) (addr : BitVec 25) (vals : List W32), s.chip.held = false → 1 ≤ vals.length → vals.length ≤ 64 →
    (s.chip.barOpen = true →
      (barShape addr.toNat vals.length = true →
        s.takes (.registerWrite .bar0 o addr vals) (fun c => c = (s.chip.writeRun 2 none addr.toNat (nats32 vals)).1))
      ∧ (barShape addr.toNat vals.length = false →
        s.takes (.registerWrite .bar0 o addr vals) (fun c => c = s.chip.fault pgGATE stBAD_OPERAND addr.toNat 2)))
    ∧ (addr.toNat % 4 = 0 → (s.chip.dbgLock.isOpen && s.chip.dbgLock.scope.getLsbD 0) = true →
      s.takes (.registerWrite .tap o addr vals) (fun c => c = (s.chip.writeRun 4 none addr.toNat (nats32 vals)).1))
    ∧ ((s.chip.dbgLock.isOpen && s.chip.dbgLock.scope.getLsbD 0) = false →
      s.takes (.registerWrite .tap o addr vals) (fun c => c = s.chip)))
  ∧ (∀ (s : State) (o : Origin) (addr : BitVec 25) (n : Fin 64) (d : Chip) (vs : List Nat), s.chip.held = false →
    (s.chip.barOpen = true → barShape addr.toNat (n.val + 1) = true → s.chip.readRun 2 addr.toNat (n.val + 1) = (d, vs, none) →
      s.takes (.registerRead .bar0 o addr n) (fun c => c = d.say (.data vs)))
    ∧ ((s.chip.dbgLock.isOpen && s.chip.dbgLock.scope.getLsbD 0) = true → addr.toNat % 4 = 0 →
      s.chip.readRun 4 addr.toNat (n.val + 1) = (d, vs, none) →
      s.takes (.registerRead .tap o addr n) (fun c => c = d.say (.data vs)))))
  ∧ (∀ (c : Chip) (n off v : Nat) (o : Origin) (r : Reg), n < 2048 → off < 4096 → 256 ≤ off → baseCode n ≠ 0 → baseCode n ≠ codeIDENT →
    (regsOf (baseCode n)).find? (fun x => x.off == off && x.acc != .ro) = some r →
    (c.accepts n off o = true → c.regWrite o (regAt n off) v = c.writeReg n off (v &&& r.mask) (originNum o) none)
    ∧ (c.opens n o = true → r.cls.permits (originNum o) = false → c.regWrite o (regAt n off) v = c.refuse n (regAt n off) (originNum o))
    ∧ (c.opens n o = true → r.cls.permits (originNum o) = true → r.acc = .rwl → (c.page n).lock = true → c.regWrite o (regAt n off) v = c))

/-- The machine window and the debug aperture of the BARs. While AUTH_OPTIONS forbids the machine window, an access changes no
register: MWIN_STATUS shows NO_AUTHORITY, AUTH counts it, and a read gives zeros. Through the window a register of this package
is written as through BAR0, and a register of another package by a DATA message of class HOST. The debug aperture, open for banks, writes
4 or 8 bytes of the bank that the offset reaches, and reads them.

CONFIG_REQUEST with the gate's link up: while configuration is not READY it is answered with Request Retry; then a function other
than 0 is answered Unsupported Request, a read gives the double word that holds the offset, and a write to an offset that holds no register
changes nothing. -/
def Obligations.WindowsAndConfigurationAnswer : Prop :=
  ((∀ (s : State) (addr : BitVec 25) (vals : List W32) (q : Nat), s.chip.held = false → s.chip.barOpen = true → 1 ≤ vals.length → vals.length ≤ 64 →
    barShape addr.toNat vals.length = true → q = (s.chip.page pgGATE).rd 0x104 % 256 →
    (bit ((s.chip.page pgAUTH).rd 0x104) 2 = false →
      s.takes (.machineWindowAccess true addr vals) (fun c => c =
        ((s.chip.mwinFails stNO_AUTHORITY addr.toNat).count pgAUTH 0x140 1).say (.data (List.replicate vals.length 0))))
    ∧ (bit ((s.chip.page pgAUTH).rd 0x104) 2 = true → q = s.chip.pkg →
      s.takes (.machineWindowAccess true addr vals) (fun c => c = ((s.chip.writeRun 2 none addr.toNat (nats32 vals)).1).say (.data [])))
    ∧ (bit ((s.chip.page pgAUTH).rd 0x104) 2 = true → q ≠ s.chip.pkg → q < s.chip.machineSize → s.chip.hasPath q = true →
      s.takes (.machineWindowAccess true addr vals) (fun c => c =
        (s.chip.send ((regHdr kDATA q 2 addr.toNat).word :: (2 ^ 63 + vals.length * 2 ^ 48 + addr.toNat) :: nats32 vals)).say (.data []))))
  ∧ (∀ (s : State) (offset : BitVec 27) (v : W32), s.chip.held = false → s.chip.barOpen = true →
    s.chip.dbgLock.isOpen = true → s.chip.dbgLock.scope.getLsbD 1 = true → offset.toNat % 4 = 0 →
    s.takes (.debugApertureAccess true offset [v]) (fun c => c =
      (s.chip.apertureWrite (s.chip.apertureAt offset.toNat).1 (s.chip.apertureAt offset.toNat).2 4 (v.toNat % 2 ^ 32)).say (.data []))
    ∧ (∀ (d : Chip) (w : Nat), s.chip.apertureRead (s.chip.apertureAt offset.toNat).1 (s.chip.apertureAt offset.toNat).2 = (d, w) →
      (s.chip.apertureAt offset.toNat).2 % 8 = 0 →
      s.takes (.debugApertureAccess false offset [v]) (fun c => c = d.say (.data [w % 2 ^ 32])))))
  ∧ (∀ (s : State) (fn : BitVec 3) (off : BitVec 12) (w : Bool) (v : W32), s.chip.held = false → s.chip.domOn domGATE = true → s.chip.gate.dlUp = true →
    (s.chip.gate.ready = false → s.takes (.configRequest fn off w v) (fun c => c = s.chip.say .retry))
    ∧ (s.chip.gate.ready = true → fn ≠ 0 → s.takes (.configRequest fn off w v) (fun c => c = s.chip.say .unsupported))
    ∧ (s.chip.gate.ready = true →
      s.takes (.configRequest 0 off false v) (fun c => c = s.chip.say (.data [s.chip.cfgRead (off.toNat / 4 * 4)])))
    ∧ (s.chip.gate.ready = true → (∀ r ∈ s.chip.cfgSpace, r.off ≠ off.toNat / 4 * 4) →
      s.takes (.configRequest 0 off true v) (fun c => c = s.chip.say (.data []))))

/-- COMPLETION, TRACE and DIGEST_IN at the base die. A COMPLETION of class INTERNAL to SHEP writes its record to the ring of its
context when there is room, and otherwise stays on its way. A TRACE to HEALTH becomes a record of the trace ring: with the ring
disabled it is dropped, counted and raised. A digest part of class INTERNAL for a pasture whose image package 0 is here, for a round not
yet logged, joins the parts that the pasture holds; another class is refused.

EXCHANGE of class INTERNAL for a replica of a valid ladder, stamped with the low bits of its pasture's round and with the replica's
rung: its energy difference is added to the replica's energy, which is held to 48 bits, and nothing else changes unless it was
clamped. With another stamp the message is stale and changes no energy.

PORT_EGRESS. An AXON of a pasture at a port tile of its own, whose egress entry names host egress and belongs to the pasture, becomes
a record of the round, the pasture, the tag, the payload and the image place; into an enabled ring with room it is written at
once, and the ring's producer index advances. An entry of another pasture drops it and counts. -/
def Obligations.ControlMessagesReachTheirBlock : Prop :=
  ((∀ (s : State) (hdr w0 w1 : W64) (q : Nat), s.chip.held = false → s.chip.reaches hdr.toNat pgSHEP = true → (Hdr.of hdr.toNat).origin = 0 →
    q = (Hdr.of hdr.toNat).payload → q < 4096 → s.chip.domOn domCONTROL = true → s.chip.discards q = false →
    ((s.chip.ctx q).cqRoom = true → s.takes (.completion hdr w0 w1) (fun c => c =
      s.chip.writeRecord q (bits w0.toNat 15 0) (bits w0.toNat 23 16) (bits w0.toNat 26 24) (bits w0.toNat 63 32) w1.toNat true))
    ∧ ((s.chip.ctx q).cqRoom = false → s.takes (.completion hdr w0 w1) (fun c => c = s.chip.send [hdr.toNat, w0.toNat, w1.toNat])))
  ∧ (∀ (s : State) (hdr datum : W64), s.chip.held = false → s.chip.reaches hdr.toNat pgHEALTH = true → (Hdr.of hdr.toNat).origin = 0 →
    s.chip.domOn domCONTROL = true →
    s.takes (.trace hdr datum) (fun c => c = s.chip.traceRecord hdr.toNat datum.toNat
      ∧ (bit ((s.chip.page pgHEALTH).rd 0x168) 31 = false → c = (s.chip.count pgHEALTH 0x198 1).raise pgHEALTH 8)))
  ∧ (∀ (s : State) (o : Origin) (v0 v1 v2 v3 : W32) (p : Nat), s.chip.held = false → s.chip.domOn domCONTROL = true → p = v0.toNat % 1024 →
    (o = .internal → (s.chip.past p).presence ≠ .free → (s.chip.past p).imgPkg = 0 → s.chip.isRoot (s.chip.past p) = true →
      (s.chip.past p).digestRound = 0 →
      s.takes (.digestIn o v0 v1 v2 v3) (fun c => c = s.chip.updPast p (fun x =>
        x.addPartial (bits v0.toNat 23 16) v1.toNat (BitVec.ofNat 64 (v2.toNat + v3.toNat * 2 ^ 32)))))
    ∧ (o ≠ .internal → s.takes (.digestIn o v0 v1 v2 v3) (fun c => c = s.chip.refuse pgHEALTH (pgHEALTH * 4096 + 0x1B0) (originNum o)))))
  ∧ (∀ (s : State) (hdr w2 : W64) (i r : Nat) (l : Ladder) (x : Replica), s.chip.held = false → s.chip.reaches hdr.toNat pgMUSTER = true →
    bits w2.toNat 9 0 = 0 → (Hdr.of hdr.toNat).origin = 0 → s.chip.domOn domCONTROL = true → i = bits w2.toNat 31 18 → i ≤ 63 → l = s.chip.ladder i →
    l.valid = true → r = (Hdr.of hdr.toNat).payload → r < l.replicas.length → x = nth replicaInit l.replicas r →
    ((Hdr.of hdr.toNat).stamp = (s.chip.past l.pasture.val).round.toNat % 256 → bits w2.toNat 17 10 = x.rung.toNat →
      -(2 ^ 47) ≤ x.energy + sext 32 (w2.toNat / 2 ^ 32) → x.energy + sext 32 (w2.toNat / 2 ^ 32) ≤ 2 ^ 47 - 1 →
      s.takes (.exchange hdr w2) (fun c => c = s.chip.putLadder i { l with
        replicas := listSet l.replicas r { x with energy := x.energy + sext 32 (w2.toNat / 2 ^ 32) } }))
    ∧ ((Hdr.of hdr.toNat).stamp ≠ (s.chip.past l.pasture.val).round.toNat % 256 →
      s.takes (.exchange hdr w2) (fun c => c = s.chip)))
  ∧ (∀ (s : State) (p : PastureId) (d : DieId) (t : TileId) (hdr : W64) (k : Nat) (e : PTile) (g : EgressEntry), s.chip.held = false →
    k = tkey d t → (s.chip.past p.val).tileAt k = some e → g = mapGet egressDefault (s.chip.tile k).egress (Hdr.of hdr.toNat).tag →
    (g.owner = some p → bits g.word1.toNat 1 0 = 1 →
      s.takes (.portEgress p d t hdr) (fun c => c = (s.chip.updTile k (fun u => { u with pCore := u.pCore.cntSat 0x110 1 })).egressRecord
        (g.word1.toNat / 4 % 64) p.val (natLe 4 (s.chip.past p.val).round.toNat ++ natLe 2 p.val ++ natLe 2 (Hdr.of hdr.toNat).tag
          ++ natLe 2 (Hdr.of hdr.toNat).payload ++ [BitVec.ofNat 8 e.imgTile.val, BitVec.ofNat 8 e.imgDie.val, e.imgPkg, 0, 0, 0])))
    ∧ (g.owner ≠ some p →
      s.takes (.portEgress p d t hdr) (fun c => c = s.chip.updTile k (fun u => { u with pCore := (u.pCore.cntSat 0x114 1).raise 0 }))))

/-! ### Rounds and musters -/

/-- PACER_TICK of a paced pasture that may run, once its tick has come, makes its round due; a tick that has not come yet changes
nothing. ROUND_START of a due round starts it unless a Dense-engine pass still runs on its cores or a gap's work comes first, which is
counted once.

SPIKE opens the spike phase on a tile whose INJECT is over, and its outputs run on. LAP_START starts a lap on a tile whose outputs all
wait at their lap marks. LAP_VOTE of a pasture held by one package, once every tile has voted: a tile with a source still
pending starts another lap on every tile; with none pending and every inbound AXON queue empty, SPIKE ends and INTEGRATE begins. -/
def Obligations.RoundsStartAndSpike : Prop :=
  ((∀ (s : State) (p : PastureId) (x : Past), s.chip.held = false → x = s.chip.past p.val → x.paced = true → x.anchored = true →
    s.chip.roundsAllowed = true → x.resident = true → x.running = true → x.inRound = false → x.tickDue = false → x.spans = false →
    (x.tickTime ≤ s.chip.now → s.chip.skipOk p.val = false →
      s.takes (.pacerTick p) (fun c => c = s.chip.updPast p.val (fun x => { x with tickDue := true, parked := false })))
    ∧ (s.chip.now < x.tickTime → s.takes (.pacerTick p) (fun c => c = s.chip)))
  ∧ (∀ (s : State) (p : PastureId), s.chip.held = false → s.chip.maystart p.val = true →
    (s.chip.passRuns (s.chip.past p.val) = false → s.chip.gapWork p.val = false →
      s.takes (.roundStart p) (fun c => c = s.chip.startRound p.val))
    ∧ (s.chip.passRuns (s.chip.past p.val) = true → s.takes (.roundStart p) (fun c => c = s.chip))
    ∧ (s.chip.passRuns (s.chip.past p.val) = false → s.chip.gapWork p.val = true → (s.chip.past p.val).gapWaited = false →
      s.takes (.roundStart p) (fun c => c = (s.chip.updPast p.val (fun x => { x with gapWaited := true })).count pgSTACK 0x150 1))))
  ∧ ((∀ (s : State) (p : PastureId) (d : DieId) (t : TileId) (k : Nat), s.chip.held = false → k = tkey d t → s.chip.runsOn p.val = true →
    s.chip.phaseAt p.val k = .inject →
    s.takes (.spike p d t) (fun c => ∃ b, b = s.chip.updPast p.val (fun x =>
        { x.updTile k (fun t => { t with phase := .spike }) with phase := .spike }) ∧ c = b.putMesh (b.mesh.runTile k)))
  ∧ (∀ (s : State) (p : PastureId) (d : DieId) (t : TileId) (k : Nat) (e : PTile) (m : Mesh), s.chip.held = false → k = tkey d t →
    (s.chip.past p.val).tileAt k = some e → s.chip.runsOn p.val = true → e.phase = .spike →
    s.chip.mesh.startLap k e.slot.val e.core = (m, true) → s.takes (.lapStart p d t) (fun c => c = s.chip.putMesh (m.runTile k)))
  ∧ (∀ (s : State) (p : PastureId) (x : Past), s.chip.held = false → x = s.chip.past p.val → x.spans = false → s.chip.voteDecided p.val = true →
    ((x.tiles.any (fun t => tilePending (s.chip.tile t.key) t.core p.val) = true ∨ x.span.votes.any (fun v => v.2) = true) →
      s.takes (.lapVote p) (fun c => ∃ b, b = s.chip.updPast p.val (fun x => { x with span := { x.span with votes := [], sentVote := false, result := none } })
        ∧ c = b.putMesh (x.tiles.foldl (fun (m : Mesh) t => m.toLapMark t.key t.slot.val) b.mesh)))
    ∧ (x.tiles.any (fun t => tilePending (s.chip.tile t.key) t.core p.val) = false → x.span.votes.any (fun v => v.2) = false →
      (∀ t ∈ x.cores, (s.chip.tile t.key).q.axon = []) →
      s.takes (.lapVote p) (fun c => ∃ b, b = s.chip.updPast p.val (fun x => { x with span := { x.span with votes := [], sentVote := false, result := none } })
        ∧ ∃ d, d = b.putMesh (x.tiles.foldl (fun (m : Mesh) t => m.stopRound t.key t.slot.val) b.mesh) ∧ c = d.updPast p.val (fun x =>
          { x with phase := .integrate, progressAt := d.now, tiles := x.tiles.map (fun t => { t with phase := .integrate }) })))))

/-- INTEGRATE and LEARN on a neuron tile of a running round: the core integrates every neuron with what arrived, or applies its
learning, and the tile's phase moves on, to LEARN for a pasture that learns and to MUSTER else. MUSTER_ARRIVE reports whether
the tile is busy, and ends its phase. A tile that is not in the phase does nothing. -/
def Obligations.TilesGoThroughTheirPhases : Prop :=
  ∀ (s : State) (p : PastureId) (d : DieId) (t : TileId) (k : Nat) (e : PTile), s.chip.held = false → k = tkey d t →
    (s.chip.past p.val).tileAt k = some e → s.chip.runsOn p.val = true → e.core = true → tileKind e.tile.val = .neuron →
    (e.phase = .integrate → e.integrated = false →
      s.takes (.integrate p d t) (fun c => ∃ b, b = s.chip.updPast p.val (fun x => { x with progressAt := s.chip.now })
        ∧ c = (b.putWork k (Work.integrateNeuron { t := b.tile k } b.pkg (s.chip.past p.val).round.toNat)).updPast p.val (fun x =>
          x.updTile k (fun t => { t with integrated := true, phase := x.afterIntegrate }))))
    ∧ (e.phase = .learn →
      s.takes (.learn p d t) (fun c => c =
        (s.chip.putWork k (Work.learn { t := s.chip.tile k } (s.chip.past p.val).round.toNat)).updPast p.val (fun x =>
          { x.updTile k (fun t => { t with phase := .muster }) with progressAt := (s.chip.putWork k (Work.learn { t := s.chip.tile k } (s.chip.past p.val).round.toNat)).now })))
    ∧ (e.phase = .muster → (s.chip.tile k).nc.recount = false →
      s.takes (.musterArrive p d t) (fun c => c = s.chip.updPast p.val (fun x =>
        { x.updTile k (fun t => { t with phase := .none, busy := tileBusy (s.chip.tile k) true }) with
          progressAt := s.chip.now
          phase := if (x.updTile k (fun t => { t with phase := .none, busy := tileBusy (s.chip.tile k) true })).tiles.all (fun t => t.phase == .none)
            then .muster else x.phase })))
    ∧ (e.phase ≠ .integrate → s.takes (.integrate p d t) (fun c => c = s.chip))
    ∧ (e.phase ≠ .learn → s.takes (.learn p d t) (fun c => c = s.chip))

/-- MUSTER_COMPLETE of a pasture held by one package, once every tile has arrived: the egress vectors, the digest and the log come first;
then the counters advance, the exchange muster is held and the ladder may stop; then the captures and the shifts; then a RUN
that has its rounds completes, the waiting RUN takes its place, and the holds begin; then the shelter and the slice; and last the next
round is looked for. While a tile has not arrived nothing happens. -/
def Obligations.MustersCompleteInTheirOrder : Prop :=
  ∀ (s : State) (p : PastureId) (n : Nat) (a b d e : Chip), s.chip.held = false → (s.chip.past p.val).spans = false → n = (s.chip.past p.val).round.toNat →
    (s.chip.allArrived p.val = false → s.takes (.musterComplete p) (fun c => c = s.chip))
    ∧ (s.chip.allArrived p.val = true →
      a = (((s.chip.ringVectors p.val).updPast p.val Past.keepInputs).digestRound p.val).closeRound p.val →
      b = ((((a.ladderMuster p.val n).ladderStop p.val n).latchTemps ((a.ladderMuster p.val n).past p.val)).captures p.val).shifts p.val →
      d = b.countReached p.val → (d.past p.val).nextRun = none → (d.past p.val).abortRun = false →
      e = ((d.replaceRun p.val).musterHolds p.val false false).shelterRead p.val →
      s.takes (.musterComplete p) (fun c => c = (match e.sliceVictim p.val with | some (v, h) => e.sliceOut v h | none => e).due p.val))

/-- HOLD_EXPIRY once the hold's duration has passed ends the hold, and rounds resume; before, it changes nothing. STALL_FREEZE of a
pasture in a round that has made no progress for STALL_LIMIT raises STALL, freezes its pages and its outputs, holds it with STALLED,
or with UNCORRECTED where a drove entry could not be read, and ends what waits for its muster; before, it changes nothing.

FREE_LADDER_STEP on the root of a running ladder in free mode that is not local: once every replica has reported past the last
exchange, the exchange step is taken, and where a stop criterion then holds between rounds the ladder stops; while one has
not reported, nothing happens.

A chain of the Dense engine that waits on its window. WINDOW_WAIT_MET runs it on once the window's count has reached its wait;
before, it changes nothing. WINDOW_WAIT_TIMEOUT ends it with STALLED, as its part of its PASS; a round chain goes on waiting.

PLACEMENT_RETRY: the tests that blocked the first search of a LOAD have ended, and the command searches once more, and then answers as
its search does. -/
def Obligations.HoldsLaddersAndWaitsEnd : Prop :=
  ((∀ (s : State) (p : PastureId) (h : HoldRec) (t : Nat), s.chip.held = false → (s.chip.past p.val).hold = some h → h.endsAt = some t →
    (t ≤ s.chip.now → s.takes (.holdExpiry p) (fun c => ∃ b, b = s.chip.updPast p.val (fun x => { x with hold := none })
      ∧ c = (if h.stopStreams then b.stopStreams p.val false else b).resume p.val))
    ∧ (s.chip.now < t → s.takes (.holdExpiry p) (fun c => c = s.chip)))
  ∧ (∀ (s : State) (p : PastureId), s.chip.held = false → s.chip.runsOn p.val = true →
    ((s.chip.past p.val).progressAt + (s.chip.past p.val).stallMicros ≤ s.chip.now →
      s.takes (.stallFreeze p) (fun c => ∃ st, st = (if (s.chip.past p.val).droveBad then stUNCORRECTED else stSTALLED)
        ∧ c = ((s.chip.raise pgMUSTER 3).stall p.val st s.chip.snapshot).endWaiting p.val st))
    ∧ (s.chip.now < (s.chip.past p.val).progressAt + (s.chip.past p.val).stallMicros → s.takes (.stallFreeze p) (fun c => c = s.chip))))
  ∧ (∀ (s : State) (i : Fin 64) (l : Ladder), s.chip.held = false → l = s.chip.ladder i.val → l.valid = true → l.running = true → l.stopping = none → l.root = true →
    l.freeMode = true → l.local = false →
    ((∀ r ∈ l.replicas, l.exchIndex.toNat < r.report.toNat) →
      (((s.chip.exchange i.val).ladder i.val).stopReason = none → s.takes (.freeLadderStep i) (fun c => c = s.chip.exchange i.val))
      ∧ (∀ r, ((s.chip.exchange i.val).ladder i.val).stopReason = some r → ((s.chip.exchange i.val).past l.pasture.val).between = true →
        s.takes (.freeLadderStep i) (fun c => c = (s.chip.exchange i.val).stopLadder l.pasture.val i.val r)))
    ∧ ((∃ r ∈ l.replicas, r.report.toNat ≤ l.exchIndex.toNat) → s.takes (.freeLadderStep i) (fun c => c = s.chip)))
  ∧ (∀ (s : State) (d : DieId) (t : TileId) (k : Nat) (ch : Chain) (w : Nat × Nat), s.chip.held = false → k = tkey d t →
    (s.chip.tile k).tc.chain = some ch → w = Work.waitWindow { t := s.chip.tile k } ch →
    (w.2 ≤ (s.chip.tile k).pCore.rd (0x118 + 4 * w.1) → ch.round = none →
      s.takes (.windowWaitMet d t) (fun c =>
        c = (s.chip.chainOn k { ch with waiting := false }).serveOrders k {} ((s.chip.tile k).q.command.length + 1)))
    ∧ ((s.chip.tile k).pCore.rd (0x118 + 4 * w.1) < w.2 → s.takes (.windowWaitMet d t) (fun c => c = s.chip))
    ∧ (∀ e, (s.chip.tile k).pCore.rd (0x118 + 4 * w.1) < w.2 → ch.round = none → ch.entry = some e →
      s.takes (.windowWaitTimeout d t) (fun c => c = (s.chip.updTile k (fun u => { u with tc := { chain := none } })).passPart e.val
        (worse ch.status.toNat stSTALLED) 0 false))
    ∧ (ch.round ≠ none → s.takes (.windowWaitTimeout d t) (fun c => c = s.chip)))
  ∧ (∀ (s : State) (e : EntryId), s.chip.held = false → (s.chip.entry e.val).state = .running → (s.chip.entry e.val).parts = 1 →
    ((s.chip.entry e.val).opcode = 0x41 →
      s.takes (.placementRetry e) (fun c => c = (s.chip.testsEnded.updEntry e.val (fun x => { x with parts := 2 })).doLoad e.val))
    ∧ ((s.chip.entry e.val).opcode = 0x43 →
      s.takes (.placementRetry e) (fun c => c = (s.chip.testsEnded.updEntry e.val (fun x => { x with parts := 2 })).doPageIn e.val)))

/-- TAKE freezes the tile's debug page with a snapshot; THAW frees it, unless it shows a stalled pasture whose stall map is unread;
HW_CLEAR sets the high-water marks to the present occupancy. A read of DROVE_DATA answers the entry that DROVE_ADDR names and
advances DROVE_ADDR modulo 2048.

A read of TIME_LO answers the low half of TIME and latches the high half into TIME_HI. A COUNT_CLEAR of a base-die page clears the
counters that its value names, and no counter that it does not.

The common header of a base-die page, written by OPERATOR while no disagreement between the views stands. LOCK locks the page, and for a link page all six;
FAULT_CLEAR clears the recorded fault and REFUSED; CE_CLEAR clears the count of corrected errors; a write of BLK_EVENT clears the
bits written as 1 but those that hardware sets in the same cycle. BLK_EVENT_FORCE by class TEST sets event bits; by another class
it is refused. -/
def Obligations.RegisterActionsTakeEffect : Prop :=
  (∀ (s : State) (o : Origin) (d : DieId) (t : TileId) (k : Nat) (x : Chip), k = tkey d t → s.chip.tileOpens k o = true → x = s.chip.routerAwake k →
    ((x.tile k).pQdbg.code = codeQDBG →
      s.takes (.take o d t) (fun c => c = x.updTile k (fun u => { u with dbg := { u.dbg with frozen := true, snap := x.snapshot k } }))
      ∧ ((∀ p, x.shownPast k = some p → (x.past p).stalled = false) →
        s.takes (.thaw o d t) (fun c => c = x.updTile k (fun u => { u with dbg := { u.dbg with frozen := false, snap := [] } })))
      ∧ s.takes (.hwClear o d t) (fun c => c = x.hwClear k
        ∧ (c.tile k).q.high = [BitVec.ofNat 16 (x.tile k).q.axon.length, BitVec.ofNat 16 (outFlits (x.tile k).q), BitVec.ofNat 16 (x.tile k).q.foldCount,
            BitVec.ofNat 16 ((x.tile k).q.data.map (fun m => m.length)).sum, BitVec.ofNat 16 (x.tile k).q.command.length,
            BitVec.ofNat 16 (x.tile k).q.sync.length]))
    ∧ s.takes (.droveData o d t) (fun c => c = (x.updTile k (fun u =>
        { u with pRouter := u.pRouter.wr 0x150 ((u.pRouter.rd 0x150 + 1) % 2048) })).say (.data [x.tileReg k 0 0x154])))
  ∧ ((∀ (s : State) (o : Origin), s.chip.opens pgRTC o = true →
    s.takes (.timeLoRead o) (fun c => c.rtc.timeHi = BitVec.ofNat 32 (s.chip.rtc.time.toNat / 2 ^ 32)
      ∧ c.answer = .data [s.chip.rtc.time.toNat % 2 ^ 32] ∧ c.rtc.time = s.chip.rtc.time ∧ c.pages = s.chip.pages))
  ∧ (∀ (s : State) (o : Origin) (pg : PageId) (off : BitVec 12) (v : W32) (r : Reg), pg.val < 2048 → 256 ≤ off.toNat → off.toNat % 4 = 0 →
    s.chip.accepts pg.val off.toNat o = true → (regsOf (baseCode pg.val)).find? (fun x => x.off == off.toNat && x.acc != .ro) = some r →
    baseCode pg.val ≠ codeIDENT → isCountClear (baseCode pg.val) off.toNat = true →
    s.takes (.countClear o pg off v) (fun c => c = s.chip.clearCounts pg.val off.toNat (v.toNat &&& r.mask)))
  ∧ (∀ (p : Page) (off v b n : Nat), countClearBase p.code off = some (b, n) →
    ∀ x : Nat, (∀ i, i < n → bit v i = true → x ≠ b + 4 * i) → (p.clearCounts off v).rd x = p.rd x))
  ∧ (∀ (s : State) (pg : PageId) (v hw : W32) (n : Nat) (p : Page), n = pg.val → n < 2048 → baseCode n ≠ 0 → baseCode n ≠ codeIDENT →
    p = s.chip.page n → (∀ d ∈ s.chip.disagree, d = none) →
    (s.chip.opens n .operator = true →
      s.takes (.lock .operator pg v) (fun c => c =
        (lockedWith n).foldl (fun c i => c.updPage i (fun p => { p with lock := true })) (s.chip.putPage n (p.ctrl (v ||| 1).toNat)))
      ∧ s.takes (.faultClear .operator pg (v &&& 0xFFFFFFF8)) (fun c => c = s.chip.putPage n
        { p with fault := 0, further := 0, fclass := 0, faddr := 0, refused := false })
      ∧ s.takes (.ceClear .operator pg (v &&& 0xFFFFFFF8)) (fun c => c = s.chip.putPage n { p with ce := 0 })
      ∧ s.takes (.blkEventClear .operator pg v hw) (fun c => ∃ b, b = s.chip.putPage n { p with ev := p.ev &&& ~~~v }
        ∧ c = b.updPage n (fun q => { q with ev := q.ev ||| (hw &&& BitVec.ofNat 32 (eventMask q.code)) })))
    ∧ (s.chip.opens n .test = true →
      s.takes (.blkEventForce .test pg v) (fun c => c = s.chip.putPage n { p with ev := p.ev ||| (v &&& BitVec.ofNat 32 (eventMask p.code)) }))
    ∧ (s.chip.opens n .host = true →
      s.takes (.blkEventForce .host pg v) (fun c => c = (s.chip.putPage n p).refuse n (n * 4096 + 0x01C) 2)))

/-! ### Power, time and the die stack -/

/-- A domain request. DOM_REQ for a domain that is already in the target state ends OK; for ON with no cause to refuse it the domain
starts to wake; for less with nothing to refuse it an ON domain starts to drain; while another request is in progress it waits behind
it. A refused request ends with its status, counted and raised.

A drain ends in one of two ways. DRAIN_END, with nothing left in flight, takes the domain down and ends the request OK with its
drain time; DRAIN_TIMEOUT once DRAIN_LIMIT has passed leaves it ON, counts, and ends the request with DRAIN_TIMEOUT. Before the
limit, and while something is in flight, neither changes anything. WAKING_END takes a waking domain to ON. -/
def Obligations.DomainRequestsAndDrainsEnd : Prop :=
  (∀ (s : State) (o : Origin) (v : W32) (n : Nat) (t : DomState) (q : DomReq) (d : DomRec), s.chip.accepts pgPOWER 0x108 o = true →
    n = (s.chip.page pgPOWER).rd 0x100 % 1024 → domKind n ≠ .nothing → domOf (v.toNat &&& 3) = some t →
    q = { target := t, asker := .register, origin := (originOf (originNum o)).getD .internal } → d = s.chip.dom n →
    ((d.current.isSome || d.draining || d.waking) = true →
      s.takes (.domReq o v) (fun c => c = s.chip.updDom n (fun d => { d with queued := d.queued ++ [q] })))
    ∧ ((d.current.isSome || d.draining || d.waking) = false →
      (d.state = t → s.takes (.domReq o v) (fun c => c = s.chip.conclude n q t stOK 0))
      ∧ (d.state ≠ t → s.chip.refusals n t q = [] →
        (t = .on → s.takes (.domReq o v) (fun c => c =
          s.chip.updDom n (fun d => { d with waking := true, current := some q, prev := d.state })))
        ∧ (t ≠ .on → d.state = .on → s.takes (.domReq o v) (fun c => c = s.chip.updDom n (fun d =>
          { d with draining := true, current := some q, prev := d.state, drainFrom := s.chip.now }))))
      ∧ (∀ a l, d.state ≠ t → s.chip.refusals n t q = a :: l →
        s.takes (.domReq o v) (fun c => c = ((s.chip.count pgPOWER 0x144 1).raise pgPOWER 1).conclude n q d.state (l.foldl worse a) 0))))
  ∧ (∀ (s : State) (n : DomainId) (d : DomRec) (q : DomReq), s.chip.held = false → d = s.chip.dom n.val → d.current = some q →
    (d.draining = true →
      (s.chip.domBusy n.val = false → s.takes (.drainEnd n) (fun c => c =
        ((s.chip.goDown n.val q.target).conclude n.val q d.prev stOK (s.chip.now - d.drainFrom)).afterDown n.val))
      ∧ (s.chip.domBusy n.val = true → s.takes (.drainEnd n) (fun c => c = s.chip))
      ∧ (s.chip.drainLimit ≤ s.chip.now - d.drainFrom → s.takes (.drainTimeout n) (fun c => ∃ b, b = (s.chip.count pgPOWER 0x140 1).raise pgPOWER 0
        ∧ c = ((b.updDom n.val (fun d => { d with draining := false, wakeAfter := false })).conclude n.val q d.prev stDRAIN_TIMEOUT
            (s.chip.now - d.drainFrom)).afterDown n.val))
      ∧ (s.chip.now - d.drainFrom < s.chip.drainLimit → s.takes (.drainTimeout n) (fun c => c = s.chip)))
    ∧ (d.waking = true → groupOf n.val = none → s.takes (.wakingEnd n) (fun c => ∃ b ok, (b, ok) = s.chip.goUp n.val
        ∧ ∃ e, e = b.conclude n.val q d.prev (if ok then stOK else stINTERNAL) 0
        ∧ c = (e.nextReq n.val ((e.dom n.val).queued.length + 1)).tidyWakes)))

/-- A bank, core or router that idles goes to RETAIN by itself: CORE_IDLE with CORE_EN on a core that is ON, whose queues are empty and whose
pasture is in no phase before its muster; ROUTER_IDLE with ROUTER_EN on a router that is ON and holds nothing. Busy ones stay ON.

PADS.RELEASE releases the hurdle latch of each group it names whose domain is ON, and records BAD_OPERAND for the others.
WAKE_DETECT of an enabled source counts it, shows it in LAST_WAKE, raises its event and runs the source's routes unless they run
already; in a reset it is held until the boot. ROUTE_SLOT_START, once every domain of the running slot is ON, starts the next used slot,
or ends the run. -/
def Obligations.IdleUnitsLatchesAndWakes : Prop :=
  (∀ (s : State) (d : DieId) (t : TileId) (k : Nat) (u : Tile), s.chip.held = false → k = tkey d t → u = s.chip.tile k →
    (s.chip.coreEn = true → tileKind (k % 256) ≠ .port → s.chip.coreDom k = .on → u.q.axon = [] → u.q.data = [] → u.q.command = [] → u.q.sync = [] →
      u.tc.chain = none → u.orders.current = none → s.chip.residents = [] →
      s.takes (.coreIdle d t) (fun c => c = s.chip.setCoreDom k .retain))
    ∧ (u.q.axon ≠ [] → s.takes (.coreIdle d t) (fun c => c = s.chip))
    ∧ (s.chip.routerEn = true → s.chip.routerDom k = .on → (∀ l ∈ u.rt.inputs, l = []) → (∀ o ∈ u.rt.outs, o.slot = none) →
      s.takes (.routerIdle d t) (fun c => c = s.chip.setRouterDom k .retain))
    ∧ ((∃ l ∈ u.rt.inputs, l ≠ []) → s.takes (.routerIdle d t) (fun c => c = s.chip)))
  ∧ ((∀ (s : State) (o : Origin) (v : W32), s.chip.accepts pgPADS 0x100 o = true →
    s.takes (.padsRelease o v) (fun c => c = s.chip.padsRelease (v.toNat &&& 7) (originNum o)))
  ∧ (∀ (s : State) (src : Fin 16), s.chip.held = false →
    (bit ((s.chip.page pgWAKE).rd 0x100) src.val = true → s.chip.wakes.any (fun w => w.src == src.val) = true →
      s.takes (.wakeDetect src) (fun c => ∃ b, b = s.chip.updPage pgWAKE (fun p => p.wr 0x10C (src.val + s.chip.timeMs % 2 ^ 24 * 256))
        ∧ c = (({ b with wakeCounts := mapUpd (fun _ => (0 : W32)) b.wakeCounts src.val (fun v => BitVec.ofNat 32 (satAdd 32 v.toNat 1)) } : Chip).raise pgWAKE 0)))
    ∧ (bit ((s.chip.page pgWAKE).rd 0x100) src.val = false → s.takes (.wakeDetect src) (fun c => c = s.chip)))
  ∧ (∀ (s : State) (src : Fin 16), s.chip.held = true →
    s.takes (.wakeDetect src) (fun c => c = { s.chip with heldWakes := s.chip.heldWakes.filter (· != src.val) ++ [src.val] }))
  ∧ (∀ (s : State) (src : Fin 16) (w : WakeRun), s.chip.held = false → s.chip.wakes.find? (fun w => w.src == src.val) = some w →
    (∀ k, s.chip.slotDone w = true → s.chip.usedSlot src.val (w.slot + 1) = some k →
      s.takes (.routeSlotStart src) (fun c => c = (s.chip.startSlot src.val k).tidyWakes))
    ∧ (s.chip.slotDone w = false → s.takes (.routeSlotStart src) (fun c => c = s.chip))))

/-- The RTC. ALARM k that is enabled, has not fired for its value and whose time has come raises its event and runs its wake source; ALARM0
with REPEAT0 and a period adds the period to its value; before its time nothing happens. SET_CTRL.LOAD loads TIME from SET, raises
TIME_LOADED and lets an alarm that is passed fire at once. The loop's lock and the crystal's failure both make the RTC valid, the second from
the internal oscillator. -/
def Obligations.TheRtcKeepsTimeAndAlarms : Prop :=
  (∀ (s : State) (per : Nat), s.chip.alarmEn 0 = true → s.chip.rtc.fired0 = false → s.chip.rtc.alarm0.toNat ≤ s.chip.rtc.time.toNat →
    per = ((s.chip.raise pgRTC 0).page pgRTC).rd 0x134 → bit (((s.chip.raise pgRTC 0).page pgRTC).rd 0x130) 8 = true → per ≠ 0 →
    s.takes (.alarm 0) (fun c => ∃ b, b = s.chip.raise pgRTC 0
      ∧ c = ({ b with rtc := { b.rtc with alarm0 := s.chip.rtc.alarm0 + BitVec.ofNat 64 per } } : Chip).wakeDetect 0))
  ∧ (∀ (s : State), s.chip.alarmEn 1 = true → s.chip.rtc.fired1 = false → s.chip.rtc.alarm1.toNat ≤ s.chip.rtc.time.toNat →
    s.takes (.alarm 1) (fun c => ∃ b, b = s.chip.raise pgRTC 1
      ∧ c = ({ b with rtc := { b.rtc with fired1 := true } } : Chip).wakeDetect 1))
  ∧ (∀ (s : State), s.chip.rtc.time.toNat < s.chip.rtc.alarm0.toNat → s.takes (.alarm 0) (fun c => c = s.chip))
  ∧ (∀ (s : State) (o : Origin) (b : Chip), s.chip.accepts pgRTC 0x118 o = true →
    s.chip.audit 10 (originNum o) stOK (natLe 8 s.chip.rtc.time.toNat
      ++ natLe 8 ((s.chip.page pgRTC).rd 0x110 + (s.chip.page pgRTC).rd 0x114 * 2 ^ 32)) = (b, true) →
    s.takes (.setCtrlLoad o) (fun c => ∃ e, e = ({ b with rtc := { b.rtc with
        time := BitVec.ofNat 64 ((b.page pgRTC).rd 0x110 + (b.page pgRTC).rd 0x114 * 2 ^ 32) } } : Chip).raise pgRTC 3
      ∧ c = (e.alarmFire 0).alarmFire 1))
  ∧ (∀ (s : State), s.chip.residents = [] →
    s.takes .rtcLock (fun c => c = { s.chip with rtc := { s.chip.rtc with locked := true, internal := false, valid := true } })
    ∧ (s.chip.rtc.valid = false → s.takes .xtalFail (fun c => c.rtc = { s.chip.rtc with internal := true, valid := true }
        ∧ c.pages = (s.chip.raise pgRTC 2).pages)))

/-- The ceiling of a die's voltage as a function of its temperature: it lies between 550 mV and 900 mV for a target in that range, it never
rises with the temperature, it is 900 mV below the start of throttling, and from there it falls by 10 mV for each degree from the
target down to 550 mV. A die whose sample has no valid reading gets 550 mV.

Samples and steps. THROTTLE_SAMPLE takes the 32 readings and applies the thermal law to each die; POWER_CAP_SAMPLE above the cap
lowers by 10 mV, to no less than 550 mV, the cap voltage of the die that draws most. VOLTAGE_STEP in a gap of the die's pastures with no
lane check due takes the pending step; outside a gap it changes nothing. -/
def Obligations.CeilingsSamplesAndSteps : Prop :=
  ((∀ (start target : Nat) (t u : Int), 550 ≤ target → target ≤ 900 →
    550 ≤ ceilingOf start target t ∧ ceilingOf start target t ≤ 900 ∧ (t ≤ u → ceilingOf start target u ≤ ceilingOf start target t)
    ∧ (t < 4 * (start : Int) → ceilingOf start target t = 900)
    ∧ (∀ n : Nat, t = 4 * ((start : Int) + (n : Int)) → ceilingOf start target t = max 550 (target - 10 * n)))
  ∧ (∀ (c : Chip) (d : Nat), d < c.dies.length → (c.die d).state = .on → ((c.sampleDie d []).die d).ceiling = 550))
  ∧ ((∀ (s : State) (l : List SensorReading), s.chip.held = false → l.length = 32 →
    s.takes (.throttleSample l) (fun c => c = s.chip.throttleSample l))
  ∧ (∀ (s : State) (a b d e : W32) (x : Chip) (k : Nat), s.chip.held = false →
    x = ((upto 4).foldl (fun c i => c.updDie i (fun r => { r with power := nth 0 [a.toNat, b.toNat, d.toNat, e.toNat] i })) s.chip).updPage pgPOWER
      (fun pg => pg.wr 0x124 (min (a.toNat + (b.toNat + (d.toNat + e.toNat))) (2 ^ 19 - 1))) → k = bestDie (fun d => (x.die d).power) →
    ((x.page pgPOWER).fld 0x120 8 0 = 0 → s.takes (.powerCapSample a b d e) (fun c => c = x))
    ∧ ((x.page pgPOWER).fld 0x120 8 0 ≠ 0 → 1000 * (x.page pgPOWER).fld 0x120 8 0 < a.toNat + (b.toNat + (d.toNat + e.toNat)) →
      550 < (x.die k).capVolt → s.takes (.powerCapSample a b d e) (fun c => c =
        (((x.updDie k (fun r => { r with capVolt := max 550 ((x.die k).capVolt - 10) })).count pgPOWER 0x150 1).raise pgPOWER 3).dueStep k)))
  ∧ (∀ (s : State) (d : DieId), s.chip.held = false → (s.chip.die d.val).step ≠ none →
    (s.chip.gapOf (s.chip.dieSet d.val) = true → (∀ i, i < 16 → s.chip.checkDue d.val i = false) →
      s.takes (.voltageStep d) (fun c => c = s.chip.takeStep d.val))
    ∧ (s.chip.gapOf (s.chip.dieSet d.val) = false → s.takes (.voltageStep d) (fun c => c = s.chip))))

/-- Trips and faults of a die. DIE_TRIP of a die that is ON takes it to TRIP at once, DIE's own event raised. REG_FAULT of a regulator that
is ON darkens the die and holds its pastures with INTERNAL. HANDSHAKE_FAIL of a die whose regulator is coming ON makes it DEAD, and the
domain stays OFF. TRIP_CLEAR of one tripped die whose temperature is below RESUME_TEMP and whose own sensors read below 110 °C
raises it again as the profile sets, and THERM_TRIP_N shows whether another die is still tripped. -/
def Obligations.DiesTripAndRecover : Prop :=
  (∀ (s : State) (d : DieId), s.chip.held = false →
    ((s.chip.die d.val).state = .on → s.takes (.dieTrip d) (fun c => c = (s.chip.raise (pgDIE + d.val) 1).trip d.val))
    ∧ ((s.chip.die d.val).state ≠ .on → s.takes (.dieTrip d) (fun c => c = s.chip)))
  ∧ (∀ (s : State) (d : DieId), s.chip.held = false → s.chip.domOn (domREG d.val) = true →
    s.takes (.regFault d) (fun c => ∃ b, b = ((s.chip.dieDark d.val).raise pgPOWER 4).updDie d.val (fun r => { r with state := .off, regFault := true, step := none })
      ∧ c = ((s.chip.dieSet d.val).foldl (fun c p => c.faultHard p stINTERNAL) b).finishSteps d.val))
  ∧ (∀ (s : State) (d : DieId), s.chip.held = false → (s.chip.dom (domREG d.val)).waking = true → (s.chip.dom (domREG d.val)).current = none →
    s.takes (.handshakeFail d) (fun c => c = (((s.chip.dieDead d.val).updDom (domREG d.val) (fun x => { x with waking := false })).nextReq (domREG d.val)
      ((s.chip.dom (domREG d.val)).queued.length + 1)).tidyWakes))
  ∧ (∀ (s : State) (o : Origin) (v : W32) (t : Int), s.chip.accepts pgTHERM 0x170 o = true → v.toNat &&& 15 = 1 → (s.chip.die 0).state = .tripped →
    (s.chip.die 0).temp = some t → t < 4 * (s.chip.resumeTemp : Int) →
    (∀ i, i < 4 → bit ((s.chip.page pgDIE).rd (0x120 + 4 * i)) 15 = true → sext 12 ((s.chip.page pgDIE).rd (0x120 + 4 * i)) < 440) →
    s.takes (.tripClear o v) (fun c => ∃ b, b = (s.chip.updDie 0 (fun r => { r with state := .off, thermal := .normal })).dieRaise 0 s.chip.activeProfile
      ∧ c = { b with thermTrip := b.dies.any (fun r => r.state == .tripped) }))

/-- Lane checks. LANE_CHECK_DUE with checks enabled marks the link of a die that is ON. LANE_CHECK of a link whose check is due, in a gap of
the link's pastures: when nothing worse than a spare is needed, the two directions keep what the check made of them, the failed lanes are
counted, and a lane that took a spare raises LANE_SPARED. Outside the gap nothing happens.

A lane of a whole link that fails for the first time takes the lowest free spare that works; a second failure of the same lane is none;
with no spare left the direction goes to half width where the die has that feature and is fenced where it has not; a
failure at half width fences it. -/
def Obligations.LaneChecksAndSpares : Prop :=
  ((∀ (s : State) (d : DieId) (i : Fin 16), s.chip.held = false → bit ((s.chip.page pgSTACK).rd 0x108) 0 = true → (s.chip.die d.val).state = .on →
    s.takes (.laneCheckDue d i) (fun c => c = s.chip.putVlink d.val i.val { s.chip.vlink d.val i.val with due := true }))
  ∧ (∀ (s : State) (d : DieId) (i : Fin 16) (up down : BitVec 76) (rails : BitVec 12) (a b : DirCheck), s.chip.held = false →
    s.chip.checkDue d.val i.val = true →
    (s.chip.gapOf (s.chip.linkSet d.val i.val) = true → (s.chip.vlink d.val i.val).tests = [] →
      (s.chip.unit (vlinkUnit (tileKey d.val (portTile i.val)))).due = false →
      checkDir (bit (s.chip.features d.val) 0) (s.chip.vlink d.val i.val).up up (rails.toNat % 64) = (a, false) →
      checkDir (bit (s.chip.features d.val) 0) (s.chip.vlink d.val i.val).down down (rails.toNat / 64) = (b, false) →
      a.halved = false → b.halved = false → a.fenced = false → b.fenced = false →
      s.takes (.laneCheck d i up down rails) (fun c => ∃ e, e = (((s.chip.countWrap pgSTACK 0x140 1).count pgSTACK 0x144 (a.lanes + b.lanes)))
        ∧ ∃ f, f = e.putVlink d.val i.val { up := a.v, down := b.v, lastCheck := BitVec.ofNat 32 e.timeMs, due := false, ce := [], tests := [] }
        ∧ c = if (a.spared || b.spared) = true then f.raise pgSTACK 0 else f))
    ∧ (s.chip.gapOf (s.chip.linkSet d.val i.val) = false → s.takes (.laneCheck d i up down rails) (fun c => c = s.chip))))
  ∧ (∀ (half : Bool) (v : VDir) (f : Nat), f < 72 →
    (v.failed.getLsbD f = true → DirCheck.fail half { v := v } f = { v := v })
    ∧ (v.failed.getLsbD f = false → ∀ w : VDir, w = { v with failed := v.failed ||| BitVec.ofNat 76 (2 ^ f) } →
      (v.half = true → DirCheck.fail half { v := v } f = { v := w, lanes := 1, fenced := true })
      ∧ (v.half = false → (∀ x ∈ v.spares, x.toNat ≠ f) →
        (∀ k, w.freeSpare = some k → DirCheck.fail half { v := v } f =
          { v := { w with spares := listSet w.spares k (BitVec.ofNat 7 f) }, lanes := 1, spared := true })
        ∧ (w.freeSpare = none → DirCheck.fail half { v := v } f =
          if half then { v := { w with half := true }, lanes := 1, halved := true } else { v := w, lanes := 1, fenced := true }))))

/-- A package reset keeps the fuses, the RTC, the routes and latches of AON, the fenced and watched units and the bytes of the NV store and of the
host's memory; everything that runs is gone: the queue contexts, the scoreboard, the sync objects, the pastures, the messages and the host
gate are as at reset, and the package is held. -/
def Obligations.PackageResetKeepsOnlyWhatLasts : Prop :=
  ∀ (c d : Chip) (cause : Nat), d = c.packageReset cause → mapWf unitDefault c.units = true →
    d.fuses = c.fuses ∧ d.rtc = c.rtc ∧ d.routes = c.routes ∧ d.latches = c.latches ∧ d.wakeCounts = c.wakeCounts ∧ d.next = c.next
    ∧ d.host = c.host ∧ d.nv.data = c.nv.data ∧ d.nv.audit = c.nv.audit
    ∧ d.held = true ∧ d.ctxs = [] ∧ d.sb = [] ∧ d.objs = [] ∧ d.pasts = [] ∧ d.inFlight = [] ∧ d.gate = Gate.init ∧ d.ladders = []
    ∧ (∀ u, (c.unit u).applied = .fenced → (d.unit u).applied = .fenced)

/-- The resets of the pins and the rails. POWER_ON_RESET starts from nothing with POR_N low; POR_N_ASSERT of a package whose POR_N is high
resets it; POR_N_RELEASE boots it with the PROFILE pins sampled, unless a brownout still holds it. BROWNOUT resets a package whose POR_N is
high, and RAIL_RECOVERY boots it again.

RESET_REQ by OPERATOR with one of its three bits, once its audit entry is written: PKG_RESET resets the package and boots it with the pins
sampled before; DIE_RESET and TILE_RESET end as their die or tile does. A tile that a resident pasture touches is not reset: RESET_STATUS
shows BUSY_PASTURE. With two of the bits the request is refused with BAD_OPERAND. -/
def Obligations.ResetsTakeEffect : Prop :=
  ((∀ (s : State), exec .powerOnReset s = .next (s.settledTo (({ s with chip := s.chip.powerOn } : State).pinPor true none)))
  ∧ (∀ (s : State), s.chip.porLow = false →
    exec .porNAssert s = .next (s.settledTo (({ s with chip := ({ s.chip with porLow := true } : Chip).packageReset 1 } : State).pinPor true none)))
  ∧ (∀ (s : State) (pins : BitVec 2), s.chip.porLow = true →
    (s.chip.railsOut = false → exec (.porNRelease pins) s =
      .next (s.settledTo (({ s with chip := ({ s.chip with porLow := false } : Chip).boot pins } : State).pinPor false (some pins))))
    ∧ (s.chip.railsOut = true → exec (.porNRelease pins) s =
      .next (s.settledTo (({ s with chip := { s.chip with porLow := false } } : State).pinPor false (some pins)))))
  ∧ (∀ (s : State), s.chip.porLow = false → s.chip.railsOut = false →
    s.takes .brownout (fun c => c = ({ s.chip.cutProgramming with railsOut := true } : Chip).packageReset 2))
  ∧ (∀ (s : State) (pins : BitVec 2), s.chip.porLow = false → s.chip.railsOut = true →
    s.takes (.railRecovery pins) (fun c => c = ({ s.chip with railsOut := false } : Chip).boot pins)))
  ∧ (∀ (s : State) (v : W32) (b : Chip), s.chip.accepts pgPROFILE 0x130 .operator = true →
    ((v ||| 0x40000).toNat &&& 0x70000 = 0x40000 → s.chip.audit 11 3 stOK (natLe 4 ((v ||| 0x40000).toNat &&& 0x703FF)) = (b, true) →
      s.takes (.pkgReset .operator v) (fun c => c = (b.packageReset 4).boot s.chip.pins))
    ∧ ((v ||| 0x10000).toNat &&& 0x70000 = 0x10000 → s.chip.audit 11 3 stOK (natLe 4 ((v ||| 0x10000).toNat &&& 0x703FF)) = (b, true) →
      s.takes (.dieReset .operator v) (fun c => c = b.dieReset (bits ((v ||| 0x10000).toNat &&& 0x703FF) 1 0)))
    ∧ ((v ||| 0x20000).toNat &&& 0x70000 = 0x20000 → s.chip.audit 11 3 stOK (natLe 4 ((v ||| 0x20000).toNat &&& 0x703FF)) = (b, true) →
      s.takes (.tileReset .operator v) (fun c => ∃ k, k = tileKey (bits ((v ||| 0x20000).toNat &&& 0x703FF) 1 0) (bits ((v ||| 0x20000).toNat &&& 0x703FF) 9 2)
        ∧ c = b.tileReset k ∧ (b.touching k ≠ [] → c = b.updPage pgPROFILE (fun p => p.wr 0x134 stBUSY_PASTURE))))
    ∧ (v.toNat &&& 0x70000 = 0x30000 →
      s.takes (.dieReset .operator v) (fun c => c = s.chip.fault pgPROFILE stBAD_OPERAND 0x3130 3)))

/-! ### The host gate, the sensor ports and the rack links -/

/-- The link of the gate. GATE_LINK_DOWN counts and raises LINK_DOWN; in the home package the egress rings are
switched off and what waited there is discarded. GATE_LINK_UP trains the link
to no more than the limits and raises LINK_UP. GATE_RESET of a gate whose domain is ON, with no pasture resident, disables every host context and returns the gate's
page to its reset values but for HOME_PKG, and raises GATE_RESET. -/
def Obligations.TheGateLinkComesAndGoes : Prop :=
  (∀ (s : State), s.chip.held = false → s.chip.gate.dlUp = true → s.chip.homePkg ≠ s.chip.pkg →
    s.takes .gateLinkDown (fun c => c = ((({ s.chip with gate := { s.chip.gate with dlUp := false, l1 := false, l12 := false, width := 0, speed := 0 } } : Chip).count
      pgGATE 0x140 1).raise pgGATE 0)))
  ∧ (∀ (s : State), s.chip.held = false → s.chip.gate.dlUp = true → s.chip.homePkg = s.chip.pkg → s.chip.hostCopies = [] →
    (∀ q x, (q, x) ∈ s.chip.ctxs → q ≠ 4095 → x.state ≠ .active) →
    s.takes .gateLinkDown (fun c => c.gate.dlUp = false
      ∧ c.gate.rings = s.chip.gate.rings.map (fun r => (r.1, { r.2 with en := false, waiting := [] }))))
  ∧ (∀ (s : State) (w : BitVec 2) (v : BitVec 3), s.chip.held = false → s.chip.domOn domGATE = true → s.chip.gate.dlUp = false → w ≠ 3 → v.toNat ≤ 4 →
    s.takes (.gateLinkUp w v) (fun c => c = (({ s.chip with gate := { s.chip.gate with
      dlUp := true, width := 4 * 2 ^ (min w.toNat (bits s.chip.gate.limits.toNat 1 0)), speed := min v.toNat (bits s.chip.gate.limits.toNat 4 2) } } : Chip).raise pgGATE 1)))
  ∧ (∀ (s : State) (kind : GateResetKind), s.chip.held = false → s.chip.domOn domGATE = true → s.chip.residents = [] →
    s.takes (.gateReset kind) (fun c => c = s.chip.gateReset kind
      ∧ (c.page pgGATE) = ((Page.init codeGATE).wr 0x10C ((s.chip.page pgGATE).rd 0x10C)).raise 6
      ∧ c.gate.rings = [] ∧ c.gate.msix = Gate.init.msix ∧ (∀ q x, (q, x) ∈ c.ctxs → q ≠ 4095 → x.state = .disabled)))

/-- Answers of host memory. A DMA completion for a COPY that waits on host memory brings its next bytes: the words go to their target and
the copy goes on; an error answer or a timeout is recorded in the AER capability and ends the copy with UNCORRECTED, what it has
moved counted. An answer for a command that waits for none, and that reads no host memory, changes nothing.

Rings of the gate. MSIX_UNMASK through the open BARs writes a vector's entry, and a pending message of an entry that is now
unmasked goes out. The oldest record that waits at an enabled egress ring is written once the ring has room. ERING_CI and TRACE_CI take a
value up to the producer index and leave any other. -/
def Obligations.DmaAnswersAndGateRings : Prop :=
  (∀ (s : State) (e : EntryId), s.chip.held = false →
    (s.chip.waitsHost e.val = true →
      (∀ (d : Chip) (len n : Nat), len = bits ((s.chip.entry e.val).bytes 48 4) 24 0 → n = min (4096 - (s.chip.entry e.val).done % 4096) (len - (s.chip.entry e.val).done) →
        s.chip.copyTake e.val (fields 8 (n / 8) (memReadN s.chip.host ((s.chip.entry e.val).bytes 32 8 + (s.chip.entry e.val).done) n)) false = (d, true) →
        s.takes (.dmaCompletion e .ok) (fun c => c = d.copyOn e.val 4097))
      ∧ s.takes (.dmaCompletion e .poisoned) (fun c => c = (s.chip.dmaError 12).copyEnd e.val stUNCORRECTED)
      ∧ s.takes (.dmaCompletion e .unsupported) (fun c => c = (s.chip.dmaError 20).copyEnd e.val stUNCORRECTED)
      ∧ s.takes (.dmaCompletion e .completerAbort) (fun c => c = (s.chip.dmaError 15).copyEnd e.val stUNCORRECTED)
      ∧ s.takes (.dmaCompletionTimeout e) (fun c => c = (s.chip.dmaError 14).copyEnd e.val stUNCORRECTED))
    ∧ (s.chip.waitsHost e.val = false → (s.chip.entry e.val).opcode = 0 →
      s.takes (.dmaCompletion e .ok) (fun c => c = s.chip) ∧ s.takes (.dmaCompletionTimeout e) (fun c => c = s.chip)))
  ∧ ((∀ (s : State) (v : Fin 2048) (addr : W64) (data : W32) (mask : Bool), s.chip.held = false → s.chip.barOpen = true →
    s.takes (.msixUnmask v addr data mask) (fun c => ∃ m, m = mapSet msixDefault s.chip.gate.msix v.val
        { mapGet msixDefault s.chip.gate.msix v.val with addr := addr, data := data, masked := mask }
      ∧ c = ({ s.chip with gate := { s.chip.gate with msix := m } } : Chip).msixFlush v.val))
  ∧ (∀ (s : State) (i : Fin 64) (p : Nat) (l : List Byte) (rest : List (Nat × List Byte)), s.chip.held = false →
    (s.chip.ering i.val).waiting = (p, l) :: rest →
    ((s.chip.ering i.val).en = true → (s.chip.ering i.val).fill < 2 ^ (s.chip.ering i.val).logSize.toNat →
      s.takes (.egressRecordWrite i) (fun c => c = (s.chip.putEring i.val { s.chip.ering i.val with waiting := rest }).ringPut i.val p l))
    ∧ ((s.chip.ering i.val).en = true → 2 ^ (s.chip.ering i.val).logSize.toNat ≤ (s.chip.ering i.val).fill →
      s.takes (.egressRecordWrite i) (fun c => c = s.chip)))
  ∧ (∀ (s : State) (o : Origin) (v : W32) (i : Nat), s.chip.accepts pgGATE 0x134 o = true → i = (s.chip.page pgGATE).rd 0x120 % 64 →
    ((v - (s.chip.ering i).ci).toNat ≤ ((s.chip.ering i).pi - (s.chip.ering i).ci).toNat →
      s.takes (.eringCi o v) (fun c => c = s.chip.putEring i { s.chip.ering i with ci := v }))
    ∧ (((s.chip.ering i).pi - (s.chip.ering i).ci).toNat < (v - (s.chip.ering i).ci).toNat → s.takes (.eringCi o v) (fun c => c = s.chip)))
  ∧ (∀ (s : State) (o : Origin) (v : W32) (p : Page), s.chip.accepts pgHEALTH 0x170 o = true → p = s.chip.page pgHEALTH →
    (subMod (2 ^ 32) v.toNat (p.rd 0x170) ≤ subMod (2 ^ 32) (p.rd 0x16C) (p.rd 0x170) →
      s.takes (.traceCi o v) (fun c => c = s.chip.updPage pgHEALTH (fun p => p.wr 0x170 v.toNat)))
    ∧ (subMod (2 ^ 32) (p.rd 0x16C) (p.rd 0x170) < subMod (2 ^ 32) v.toNat (p.rd 0x170) → s.takes (.traceCi o v) (fun c => c = s.chip))))

/-- Packets of a receiver that is ON with HS sync, on a virtual channel that a stream context is bound to. An EVENT_PACKET with a good
CRC and a length its data type has enters whole, word by word, for a context without encoder; a bad CRC discards it, counted;
an encoder's context does not take it. A corrected header error is counted first, and a header with extended virtual-channel bits discards
the packet. OTHER_PACKET of a data type 0x33–0x37 is counted as reserved, and one of an unserved type as such.

Frames of an encoder. FRAME_START begins a frame at line 0, to be skipped while the context is stopped. RAW_LINE of the frame's width, below
its height, with a good CRC is encoded in raster order and the line advances; a bad CRC makes the frame bad. FRAME_END of a frame whose
lines were all valid makes the references valid. -/
def Obligations.SensorPacketsAndFrames : Prop :=
  (∀ (s : State) (k : DieId) (vc : BitVec 4) (dt : BitVec 6) (l : List Byte) (ce : Bool) (b : Chip) (j : Nat), s.chip.held = false →
    s.chip.csiLive k.val = true → b = (if ce = true then s.chip.count (pgCSI + k.val) 0x110 1 else s.chip) →
    (vc.toNat < 4 → s.chip.ctxOn k.val vc.toNat = some j → 0x30 ≤ dt.toNat → dt.toNat ≤ 0x32 →
      ((s.chip.stream j).info.encoder = false → 4 ≤ l.length → l.length ≤ 8192 → l.length % (if dt.toNat = 0x31 then 8 else 4) = 0 →
        (s.chip.stream j).info.adrMode = (dt.toNat == 0x32) →
        s.takes (.eventPacket k vc dt l true ce) (fun c => c =
          (b.takeWords j dt.toNat l (l.length / (if dt.toNat = 0x31 then 8 else 4))).eventCame j))
      ∧ ((s.chip.stream j).info.encoder = false →
        s.takes (.eventPacket k vc dt l false ce) (fun c => c = (b.count (pgCSI + k.val) 0x118 1).raise (pgCSI + k.val) 1))
      ∧ ((s.chip.stream j).info.encoder = true →
        s.takes (.eventPacket k vc dt l true ce) (fun c => c = b.count (pgCSI + k.val) 0x128 1)))
    ∧ (vc.toNat < 4 → 0x33 ≤ dt.toNat → dt.toNat ≤ 0x37 →
      s.takes (.otherPacket k vc dt ce) (fun c => c = (b.count (pgCSI + k.val) 0x120 1).raise (pgCSI + k.val) 4))
    ∧ (vc.toNat < 4 → 0x38 ≤ dt.toNat → s.takes (.otherPacket k vc dt ce) (fun c => c = b.count (pgCSI + k.val) 0x124 1))
    ∧ (4 ≤ vc.toNat → s.takes (.otherPacket k vc dt ce) (fun c => c = (b.count (pgCSI + k.val) 0x11C 1).raise (pgCSI + k.val) 3)))
  ∧ (∀ (s : State) (k : DieId) (vc : BitVec 4) (j : Nat) (x : StreamCtx), s.chip.held = false → s.chip.csiLive k.val = true → vc.toNat < 4 →
    s.chip.ctxOn k.val vc.toNat = some j → x = s.chip.stream j → x.info.encoder = true →
    (x.inFrame = false → s.takes (.frameStart k vc false) (fun c => c = s.chip.updStream j (fun s => { s with
      inFrame := true, line := 0, frameOk := true, skipFrame := s.stopped, frame := s.frame + 1 })))
    ∧ (∀ (dt : BitVec 6) (l : List Byte), (dt.toNat = 0x2A ∧ l.length = x.info.width ∨ dt.toNat = 0x2B ∧ 4 * l.length = 5 * x.info.width) →
      x.inFrame = true → x.skipFrame = false →
      (x.line < x.info.height → s.takes (.rawLine k vc dt l true false) (fun c => c =
        ((s.chip.encodeLine j (pixelsOf (dt.toNat == 0x2B) l)).updStream j (fun s => { s with line := s.line + 1 })).eventCame j))
      ∧ s.takes (.rawLine k vc dt l false false) (fun c => c =
        ((s.chip.count (pgCSI + k.val) 0x118 1).raise (pgCSI + k.val) 1).updStream j (fun s => { s with frameOk := false, line := s.line + 1 })))
    ∧ s.takes (.frameEnd k vc false) (fun c => c = s.chip.updStream j (fun s => { s with
      inFrame := false, skipFrame := false, refValid := s.refValid || (s.info.encoder && s.inFrame && s.frameOk && !s.skipFrame) })))

/-- The encoder of a pixel. Without a reference the log code becomes the reference and no event leaves. With one, a rise of at least THR_ON gives
an event of polarity 0, else a fall of at least THR_OFF one of polarity 1, each with the signed difference, and the log code becomes the
reference; otherwise the reference stays. The log code of a 10-bit pixel
lies within 8 bits.

Synchronisation and the event ports. SYNC_LOST of a live receiver ends its sync and counts the cause; HS_SYNC at a rate the receiver takes
starts it again. A sender's REQ at an AER port that is ON is latched and acknowledged, and its address enters the context bound to the
port; with REQ lowered ACK falls, and the handshake is counted. -/
def Obligations.PixelsAndSynchronisation : Prop :=
  ((∀ (r : StreamRec) (p : Pixel),
    (p.ref = none → encodePixel r p = (p.l, none))
    ∧ (∀ a, p.ref = some a →
      ((r.thrOn : Int) ≤ (p.l : Int) - a → encodePixel r p = (p.l, some (0, (p.l : Int) - a)))
      ∧ ((p.l : Int) - a < r.thrOn → (r.thrOff : Int) ≤ a - (p.l : Int) → encodePixel r p = (p.l, some (1, (p.l : Int) - a)))
      ∧ ((p.l : Int) - a < r.thrOn → (a : Int) - p.l < r.thrOff → encodePixel r p = (a, none))))
  ∧ (∀ p r : Nat, p < 1024 → logCode p r < 256))
  ∧ ((∀ (s : State) (k : DieId), s.chip.held = false → s.chip.csiLive k.val = true →
    s.takes (.syncLost k .hsSync) (fun c => c = ((s.chip.updPage (pgCSI + k.val) (fun p => p.setFld 0x104 0 0 0)).count (pgCSI + k.val) 0x130 1).raise (pgCSI + k.val) 5)
    ∧ s.takes (.syncLost k .header) (fun c => c = ((s.chip.updPage (pgCSI + k.val) (fun p => p.setFld 0x104 0 0 0)).count (pgCSI + k.val) 0x114 1).raise (pgCSI + k.val) 0))
  ∧ (∀ (s : State) (k : DieId) (rate : Byte) (d : Bool), s.chip.held = false → s.chip.domOn (domCSI k.val) = true → 8 ≤ rate.toNat → rate.toNat ≤ 250 →
    (rate.toNat ≤ 150 ∨ d = true) →
    s.takes (.hsSync k rate d) (fun c => c = s.chip.updPage (pgCSI + k.val) (fun p => p.wr 0x104 (1 + b2n d * 4 + rate.toNat * 2 ^ 8))))
  ∧ (∀ (s : State) (k : Fin 2) (a : BitVec 24) (j : Nat), s.chip.held = false → s.chip.domOn (domAER k.val) = true → s.chip.aers.length = 2 →
    (nth Aer.init s.chip.aers k.val).req = false → (nth Aer.init s.chip.aers k.val).ack = false → s.chip.ctxOn (4 + k.val) 0 = some j →
    s.takes (.aerHandshake k a) (fun c => ∃ l, l = listSet s.chip.aers k.val { nth Aer.init s.chip.aers k.val with req := true, d := a, ack := true }
      ∧ c = ((({ s.chip with aers := l } : Chip).takeEvent j (.addr a.toNat)).eventCame j)))
  ∧ (∀ (s : State) (k : Fin 2), s.chip.held = false → s.chip.domOn (domAER k.val) = true → (nth Aer.init s.chip.aers k.val).req = true →
    (nth Aer.init s.chip.aers k.val).ack = true →
    s.takes (.reqLow k) (fun c => c = ({ s.chip with aers := listSet s.chip.aers k.val { nth Aer.init s.chip.aers k.val with req := false, ack := false } } : Chip).countWrap
      (pgAER + k.val) 0x104 1)))

/-- Frames at the receiver of a link that sends. A DATA frame whose CRC passes and whose SEQ is the next is taken: its header first, then its
slots; one out of sequence is counted and owes a NAK. An IDLE frame brings its header alone. A frame whose CRC fails is counted, raises
CRC_ERR, and owes a NAK.

Frames that wait for an acknowledgement are freed in order: an ACK of a SEQ in the replay buffer frees the frames before it and no
other; one outside the buffer frees none. -/
def Obligations.LinkFramesAreTakenInSequence : Prop :=
  (∀ (s : State) (k : LinkId) (f : List Byte) (corr un : Byte) (a b : Chip) (h : FrameHdr), s.chip.held = false → f.length = 256 →
    (s.chip.link k.val).phase.sends = true → a = s.chip.fec k.val corr.toNat un.toNat → h = FrameHdr.of f → b = a.takeHeader k.val h →
    (frameOk f = true → h.type = 0 → BitVec.ofNat 12 h.seq = (b.link k.val).rxSeq →
      s.takes (.dataFrame k f corr un) (fun c => c = b.acceptFrame k.val h f))
    ∧ (frameOk f = true → h.type = 0 → BitVec.ofNat 12 h.seq ≠ (b.link k.val).rxSeq →
      s.takes (.dataFrame k f corr un) (fun c => c = (b.count (lkPage k.val) 0x12C 1).owesNak k.val))
    ∧ (frameOk f = true → h.type = 1 → s.takes (.idleFrame k f corr un) (fun c => c = b))
    ∧ (frameOk f = false →
      s.takes (.dataFrame k f corr un) (fun c => c = ((a.count (lkPage k.val) 0x128 1).raise (lkPage k.val) 4).owesNak k.val)))
  ∧ (∀ (l : Link) (a : BitVec 12),
    (l.free a).replay.length ≤ l.replay.length ∧ (l.free a).replay = l.replay.drop (l.replay.length - (l.free a).replay.length)
    ∧ (∀ s r f t, l.replay = (s, r, f) :: t →
      ((a - s).toNat ≤ l.replay.length → (l.free a).replay = l.replay.drop (a - s).toNat)
      ∧ (l.replay.length < (a - s).toNat → l.free a = l)))

/-- LINK frames. A HELLO of a link that is being brought up is taken as its identity and position say; LEAVE takes the link to OFF at once,
its traffic lost. In OFF and while whistling a frame changes nothing.

Timers of a link. IDLE_FRAME_SEND puts an IDLE frame on the line of a link that sends. ACK_TIMEOUT sends the unacknowledged frames again,
from the oldest. LINK_DOWN of a link that is UP counts, raises LINK_DOWN, and keeps its traffic for the hold; HOLD_EXPIRED then gives it
up. BRINGUP of an enabled link whose domain is ON takes it to the exchange of LINK frames; BRINGUP_TIMEOUT starts it over and is raised.

WHISTLE_SEND with the LINK domain ON puts the whistle pattern on a line that sends no frames and keeps the register's interval. LINK_STATE
records what a package's links are; a link that has gone loses what depends on its path. -/
def Obligations.LinksComeUpAndGoDown : Prop :=
  (∀ (s : State) (k : LinkId) (f : List Byte) (corr un : Byte) (g : LinkHello), s.chip.held = false → f.length = 256 →
    ((s.chip.link k.val).phase ≠ .off → (s.chip.link k.val).phase ≠ .whistle → frameOk f = true → (FrameHdr.of f).type = 2 → LinkHello.of f = some g →
      (g.subtype = 0 → s.takes (.hello k f corr un) (fun c => c = (s.chip.fec k.val corr.toNat un.toNat).takeHello k.val g))
      ∧ (g.subtype = 1 → s.takes (.leave k f corr un) (fun c => c = (s.chip.fec k.val corr.toNat un.toNat).takeLeave k.val)))
    ∧ ((s.chip.link k.val).phase = .off ∨ (s.chip.link k.val).phase = .whistle →
      s.takes (.hello k f corr un) (fun c => c = s.chip) ∧ s.takes (.leave k f corr un) (fun c => c = s.chip)
      ∧ s.takes (.dataFrame k f corr un) (fun c => c = s.chip)))
  ∧ (∀ (s : State) (k : LinkId) (l : Link), s.chip.held = false → l = s.chip.link k.val →
    (l.phase.sends = true → s.takes (.idleFrameSend k) (fun c => c = s.chip.putLink k.val (l.emit 1 0 0 0 (slotBody [])).1))
    ∧ (∀ q r a f, l.phase.sends = true → l.replay = (q, r, a) :: f → s.takes (.ackTimeout k) (fun c => c = s.chip.replayFrom k.val q))
    ∧ (l.phase = .up → s.takes (.linkDown k) (fun c => c = ((s.chip.updLink k.val (fun l =>
        { l with phase := .holding, resumable := true, peerSeen := false, sentSeen := false })).count (lkPage k.val) 0x140 1).raise (lkPage k.val) 0))
    ∧ (l.phase = .holding → l.resumable = true → s.takes (.holdExpired k) (fun c => c = (s.chip.expire k.val).updLink k.val (fun l =>
        if l.phase = .holding then { l with phase := .whistle } else l)))
    ∧ (l.resumable = false → s.takes (.holdExpired k) (fun c => c = s.chip))
    ∧ (l.phase = .whistle → s.chip.domOn (domLINK k.val) = true → bit ((s.chip.page (lkPage k.val)).rd 0x100) 0 = true →
      s.takes (.bringup k) (fun c => c = (s.chip.updLink k.val (fun l => { l with phase := .hello, peerSeen := false, sentSeen := false })).sendHello k.val))
    ∧ (l.phase = .hello → s.takes (.bringupTimeout k) (fun c => c = (s.chip.updLink k.val (fun l => { l with phase := .whistle })).raise (lkPage k.val) 8))
    ∧ (l.phase = .up → s.takes (.bringupTimeout k) (fun c => c = s.chip)))
  ∧ ((∀ (s : State) (o : Origin) (k : LinkId) (b : Chip) (v : Nat), s.chip.accepts (lkPage k.val) 0x10C o = true → v = (s.chip.page (lkPage k.val)).rd 0x10C →
    10 ≤ bits v 15 8 → v < 2 ^ 16 → v % 256 = 0 → b = s.chip.updPage (lkPage k.val) (fun p => p.wr 0x10C v) →
    s.takes (.whistleSend o k) (fun c => c = b.whistle k.val))
  ∧ (∀ (s : State) (q : Fin 256) (ports : BitVec 6), s.chip.held = false →
    s.takes (.linkState q ports) (fun c => c =
      ((upto 6).filter (fun l => (mapGet lsDefault s.chip.lsmap q.val).getLsbD l && !ports.getLsbD l)).foldl (fun d l => Chip.linkGone s.chip d q.val l) (s.chip.notice q.val ports))))

/-! ### The power shelf -/

/-- The shelf moves between its states as the events say.
MAINS_LOSS takes MAINS to HANDOVER and RAMP back to BATTERY, ends a running qualification, and in a test makes the loss a real one.
HANDOVER_END takes HANDOVER to BATTERY, with PWR_STORM_N except in a test, and qualification runs when mains is adequate.
QUALIFY_COMPLETE takes BATTERY and OFF to RAMP, a return kept with the last three; the third within 60 s sets LOCKOUT.
RAMP_END takes RAMP to MAINS with PWR_STORM_N deasserted. LOCKOUT_CLEAR needs 60 s in MAINS. MAINS_RETURN starts qualification from zero
in BATTERY and OFF and does not shorten HANDOVER. HANDOVER_TEST_END takes a test from BATTERY to RAMP, which is no return. -/
def Obligations.ShelfMovesBetweenItsStates : Prop :=
  (∀ s : State,
    (s.shelf.state = .mains → s.shelfTakes .mainsLoss (fun x => x = { s.shelf with adequate := false, state := .handover }))
    ∧ (s.shelf.state = .handover → s.shelfTakes .mainsLoss (fun x => x = { s.shelf with adequate := false, testing := false }))
    ∧ (s.shelf.state = .battery → s.shelf.testing = false →
      s.shelfTakes .mainsLoss (fun x => x = if s.shelf.qualifying then
        { s.shelf with adequate := false, qualifying := false, events := s.shelf.events ||| 0x80 } else { s.shelf with adequate := false }))
    ∧ (s.shelf.state = .battery → s.shelf.testing = true →
      s.shelfTakes .mainsLoss (fun x => x.state = .battery ∧ x.testing = false ∧ x.adequate = false ∧ x.stormLow = true))
    ∧ (s.shelf.state = .ramp → s.shelf.testing = false →
      s.shelfTakes .mainsLoss (fun x => x = { s.shelf with
        adequate := false, state := .battery, qualifying := false
        stormCount := BitVec.ofNat 16 (min 0xFFFF (s.shelf.stormCount.toNat + 1)) }))
    ∧ (s.shelf.state = .ramp → s.shelf.testing = true →
      s.shelfTakes .mainsLoss (fun x => x.state = .battery ∧ x.testing = false ∧ x.stormLow = true ∧ x.returns = s.shelf.returns))
    ∧ (s.shelf.state = .off → s.shelfTakes .mainsLoss (fun x => x.state = .off ∧ x.adequate = false ∧ x.qualifying = false)))
  ∧ (∀ (s : State) (us : W16),
    (s.shelf.state = .handover → s.shelfTakes (.handoverEnd us) (fun x => x.state = .battery ∧ x.handoverUs = us
      ∧ x.qualifying = (s.shelf.adequate && !s.shelf.testing) ∧ x.stormLow = (s.shelf.stormLow || !s.shelf.testing)
      ∧ x.testing = s.shelf.testing ∧ x.stormCount.toNat = min 0xFFFF (s.shelf.stormCount.toNat + 1) ∧ x.returns = s.shelf.returns))
    ∧ (s.shelf.state ≠ .handover → s.shelfTakes (.handoverEnd us) (fun x => x = s.shelf)))
  ∧ (∀ s : State, s.shelf.adequate = true → s.shelf.qualifying = true → s.shelf.testing = false →
    (s.shelf.state = .battery ∨ s.shelf.state = .off →
      s.shelfTakes .qualifyComplete (fun x => x.state = .ramp ∧ x.qualifying = false ∧ x.stormLow = s.shelf.stormLow
        ∧ x.returns = s.shelf.now :: s.shelf.returns.take 2
        ∧ (∀ a b l, s.shelf.returns = a :: b :: l → x.lockout = (s.shelf.lockout || decide (s.shelf.now ≤ b + 60000000)))
        ∧ (s.shelf.returns.length ≤ 1 → x.lockout = s.shelf.lockout)))
    ∧ (s.shelf.state ≠ .battery → s.shelf.state ≠ .off → s.shelfTakes .qualifyComplete (fun x => x = s.shelf)))
  ∧ (∀ s : State,
    (s.shelf.state = .ramp → s.shelfTakes .rampEnd (fun x => x.state = .mains ∧ x.stormLow = false ∧ x.reserve = false
      ∧ x.testing = false ∧ x.mainsSince = s.shelf.now ∧ x.lockout = s.shelf.lockout
      ∧ x.events = if s.shelf.stormLow then s.shelf.events ||| 2 else s.shelf.events))
    ∧ (s.shelf.state ≠ .ramp → s.shelfTakes .rampEnd (fun x => x = s.shelf)))
  ∧ (∀ s : State, s.shelf.state = .mains → s.shelf.lockout = true →
    (s.shelf.mainsSince + 60000000 ≤ s.shelf.now → s.shelfTakes .lockoutClear (fun x => x = { s.shelf with lockout := false }))
    ∧ (s.shelf.now < s.shelf.mainsSince + 60000000 → s.shelfTakes .lockoutClear (fun x => x = s.shelf)))
  ∧ (∀ s : State,
    (s.shelf.state = .off ∨ (s.shelf.state = .battery ∧ s.shelf.testing = false) →
      s.shelfTakes .mainsReturn (fun x => x = { s.shelf with adequate := true, qualifying := true }))
    ∧ (s.shelf.state = .mains ∨ s.shelf.state = .handover ∨ s.shelf.state = .ramp →
      s.shelfTakes .mainsReturn (fun x => x = { s.shelf with adequate := true })))
  ∧ (∀ s : State, s.shelf.state = .battery → s.shelf.testing = true →
    s.shelfTakes .handoverTestEnd (fun x => x = { s.shelf with state := .ramp }))

/-- What the bus does to the package. RESERVE in BATTERY holds every resident pasture with POWER_STORM and begins the shutdown of a rack's sled;
CUTOFF takes the shelf to OFF, qualifying where mains is adequate, and with the bus at 0 V the package of a rack has lost every supply.
Neither has an effect outside BATTERY. POWER_STORM and POWER_CALM act on a package that answers; one that is held gets the notice when it
answers again. -/
def Obligations.BusEventsReachThePackage : Prop :=
  (∀ s : State,
    (s.shelf.state = .battery → ∃ x : Shelf, x = { s.shelf with reserve := true, soc := s.shelf.reserveLevel, events := s.shelf.events ||| 4 }
      ∧ (s.sled.standalone = false → s.sled.shutdown = 0 → exec .reserve s = .next (s.settledTo { s with
          shelf := x, chip := s.chip.residents.foldl (fun c p => c.stormHoldPast p) s.chip, sled := { s.sled with shutdown := 1 } }))
      ∧ (s.sled.standalone = true ∨ s.sled.shutdown ≠ 0 → exec .reserve s = .next (s.settledTo { s with shelf := x })))
    ∧ (s.shelf.state ≠ .battery → exec .reserve s = .next (s.settledTo s)))
  ∧ (∀ s : State,
    (s.shelf.state = .battery → ∃ x : Shelf,
      x = { s.shelf with
        state := .off, soc := s.shelf.cutoffLevel, testing := false, qualifying := s.shelf.adequate, events := s.shelf.events ||| 0x40 }
      ∧ (s.sled.standalone = false → exec .cutoff s = .next (s.settledTo { s with
          shelf := x, chip := { s.chip.powerOn with railsOut := true }
          sled := { s.sled with
            slots := s.sled.slots.map (fun e => { e with rails := false, porLow := true }), powered := 0, shutdown := 0 } }))
      ∧ (s.sled.standalone = true → exec .cutoff s = .next (s.settledTo { s with shelf := x })))
    ∧ (s.shelf.state ≠ .battery → exec .cutoff s = .next (s.settledTo s)))
  ∧ (∀ s : State,
    (s.chip.held = false → s.chip.recovery = false →
      exec .powerStorm s = .next (s.settledTo { s with
        chip := s.chip.powerStorm s.sled.stormHold, sled := { s.sled with noticed := some true, heldNotice := none } })
      ∧ exec .powerCalm s = .next (s.settledTo { s with
        chip := s.chip.powerCalm, sled := { s.sled with noticed := some false, heldNotice := none } }))
    ∧ (s.chip.held = true →
      exec .powerStorm s = .next (s.settledTo { s with sled := { s.sled with noticed := some true, heldNotice := some true } })
      ∧ exec .powerCalm s = .next (s.settledTo { s with sled := { s.sled with noticed := some false, heldNotice := some false } })))

/-- The PMBus commands that read what the shelf keeps answer it, its least significant byte first: VOUT_MODE 0x17 on page 0, the state with its
flags, the hand-over time, the count of entries into BATTERY, the last three returns in seconds. Written to, each of them answers with
NACK and leaves the rest of the shelf as it was. The bytes of CAPABILITY and PMBUS_REVISION, and the bit of STATUS_CML, are the model's
choice.

The PMBus commands that read what the shelf measures answer a free value of one or two bytes on the pages that have them, and nothing of the
package but the count of free values changes; on another page, or written to, they answer with NACK. The charge is at most 1000, and so is the
health of the battery; STATUS_BYTE and STATUS_WORD show in bit 1 whether STATUS_CML has a bit set. -/
def Obligations.ShelfAnswersItsReads : Prop :=
  ((∀ s : State, s.shelfTakes (.capability none) (fun x => x = { s.shelf with reply := some [0xB0] })
    ∧ s.shelfTakes (.pmbusRevision none) (fun x => x = { s.shelf with reply := some [0x33] })
    ∧ s.shelfTakes (.mfrId none) (fun x => x = { s.shelf with reply := some Config.mfrId })
    ∧ s.shelfTakes (.mfrModel none) (fun x => x = { s.shelf with reply := some Config.mfrModel })
    ∧ s.shelfTakes (.statusCml none) (fun x => x = { s.shelf with reply := some [s.shelf.statusCml] })
    ∧ s.shelfTakes (.mfrHandoverTime none) (fun x => x = { s.shelf with reply := some (natLe 2 s.shelf.handoverUs.toNat) })
    ∧ s.shelfTakes (.mfrStormCount none) (fun x => x = { s.shelf with reply := some (natLe 2 s.shelf.stormCount.toNat) })
    ∧ s.shelfTakes (.mfrReturnLog none) (fun x =>
        x = { s.shelf with reply := some (natLe 4 (s.shelf.since 0) ++ natLe 4 (s.shelf.since 1) ++ natLe 4 (s.shelf.since 2)) })
    ∧ s.shelfTakes (.mfrShelfState none) (fun x => ∃ b : Byte, x = { s.shelf with reply := some [b] }
        ∧ bits b.toNat 2 0 = shelfNum s.shelf.state ∧ b.getLsbD 3 = false ∧ b.getLsbD 4 = s.shelf.qualifying
        ∧ b.getLsbD 5 = s.shelf.lockout ∧ b.getLsbD 6 = s.shelf.reserve ∧ b.getLsbD 7 = s.shelf.stormLow)
    ∧ (s.shelf.page = 0 → s.shelfTakes (.voutMode none) (fun x => x = { s.shelf with reply := some [0x17] }))
    ∧ (s.shelf.page ≠ 0 → s.shelfTakes (.voutMode none) (fun x => x = { s.shelf with reply := none, statusCml := s.shelf.statusCml ||| 0x80 })))
  ∧ (∀ (s : State) (b : List Byte) (i : Instr), i ∈ [Instr.capability (some b), .voutMode (some b), .statusCml (some b), .pmbusRevision (some b),
      .mfrId (some b), .mfrModel (some b), .mfrShelfState (some b), .mfrHandoverTime (some b), .mfrReturnLog (some b), .mfrStormCount (some b)] →
    s.shelfTakes i (fun x => x = { s.shelf with reply := none, statusCml := s.shelf.statusCml ||| 0x80 })))
  ∧ (∀ (s : State) (u : Chip), u = { s.chip with free := s.chip.free + 1 } →
    (∀ i, i ∈ [Instr.statusVout none, .statusIout none, .statusInput none, .statusTemperature none] →
      ∃ v, exec i s = .next { s with chip := u, shelf := { s.shelf with reply := some (natLe 1 v) } })
    ∧ (∃ v, bit v 1 = (s.shelf.statusCml != 0) ∧ exec (.statusByte none) s = .next { s with chip := u, shelf := { s.shelf with reply := some (natLe 1 v) } })
    ∧ (∃ v, bit v 1 = (s.shelf.statusCml != 0) ∧ exec (.statusWord none) s = .next { s with chip := u, shelf := { s.shelf with reply := some (natLe 2 v) } })
    ∧ (∀ i, (i ∈ [Instr.readVin none, .readIin none] ∧ 1 ≤ s.shelf.page.toNat ∧ s.shelf.page.toNat ≤ 8)
        ∨ (i ∈ [Instr.readVout none, .readIout none] ∧ (s.shelf.page = 0 ∨ s.shelf.page = 9))
        ∨ (i = Instr.readTemperature1 none ∧ s.shelf.page ≠ 0)
        ∨ (i ∈ [Instr.readPout none, .readPin none] ∧ s.shelf.page.toNat ≤ 8) ∨ i = .mfrBattHoldup none →
      ∃ v, exec i s = .next { s with chip := u, shelf := { s.shelf with reply := some (natLe 2 v) } })
    ∧ (∃ v, v ≤ 1000 ∧ exec (.mfrBattHealth none) s = .next { s with chip := u, shelf := { s.shelf with reply := some (natLe 2 v) } })
    ∧ (∃ v, v ≤ 1000 ∧ exec (.mfrBattSoc none) s =
        .next { s with chip := u, shelf := { s.shelf with soc := BitVec.ofNat 16 v, reply := some (natLe 2 v) } })
    ∧ (∀ i, (i ∈ [Instr.readVin none, .readIin none] ∧ (s.shelf.page = 0 ∨ s.shelf.page = 9))
        ∨ (i ∈ [Instr.readVout none, .readIout none] ∧ 1 ≤ s.shelf.page.toNat ∧ s.shelf.page.toNat ≤ 8)
        ∨ (i = .readTemperature1 none ∧ s.shelf.page = 0) ∨ (i ∈ [Instr.readPout none, .readPin none] ∧ s.shelf.page = 9) →
      exec i s = .next { s with chip := u, shelf := { s.shelf with reply := none, statusCml := s.shelf.statusCml ||| 0x80 } }))

/-- PAGE takes 0 to 9; OPERATION switches the rectifier of pages 1 to 8 on with 0x80 and off with 0x00 and reads it back; CLEAR_FAULTS clears
STATUS_CML; a bit of MFR_SHELF_EVENTS is cleared by writing 1 to it; RETURN_QUALIFY takes 3,000 to 30,000 ms, RESERVE_LEVEL 150 to 500 and
CUTOFF_LEVEL 20 to 100 below it. Each is read back as it stands, and a value out of range is answered with NACK.

MFR_TEST_HANDOVER measures the charge, a free value v of at most 1000. It is accepted, with HANDOVER entered as a test, only in MAINS with v at
900 or more and RESERVE clear; otherwise it answers with NACK, and nothing but the charge is new. -/
def Obligations.ShelfTakesItsSettings : Prop :=
  ((∀ (s : State) (v : Byte), (v.toNat ≤ 9 → s.shelfTakes (.page (some [v])) (fun x => x = { s.shelf with page := v, reply := some [] }))
    ∧ (9 < v.toNat → s.shelfTakes (.page (some [v])) (fun x => x = { s.shelf with reply := none, statusCml := s.shelf.statusCml ||| 0x40 }))
    ∧ s.shelfTakes (.page none) (fun x => x = { s.shelf with reply := some [s.shelf.page] }))
  ∧ (∀ (s : State) (k : Fin 8), s.shelf.page.toNat = k.val + 1 →
    s.shelfTakes (.operation (some [0x80])) (fun x => x = { s.shelf with rectOn := x.rectOn, reply := some [] } ∧ x.rectOn.getLsbD k.val = true
      ∧ ∀ j : Fin 8, j ≠ k → x.rectOn.getLsbD j.val = s.shelf.rectOn.getLsbD j.val)
    ∧ s.shelfTakes (.operation (some [0x00])) (fun x => x = { s.shelf with rectOn := x.rectOn, reply := some [] } ∧ x.rectOn.getLsbD k.val = false
      ∧ ∀ j : Fin 8, j ≠ k → x.rectOn.getLsbD j.val = s.shelf.rectOn.getLsbD j.val)
    ∧ s.shelfTakes (.operation none) (fun x => x = { s.shelf with reply := some [if s.shelf.rectOn.getLsbD k.val then 0x80 else 0x00] }))
  ∧ (∀ s : State, s.shelfTakes .clearFaults (fun x => x = { s.shelf with statusCml := 0, reply := some [] }))
  ∧ (∀ (s : State) (v : W16), s.shelfTakes (.mfrShelfEvents none) (fun x => x = { s.shelf with reply := some (natLe 2 s.shelf.events.toNat) })
    ∧ s.shelfTakes (.mfrShelfEvents (some (natLe 2 v.toNat))) (fun x => x = { s.shelf with events := s.shelf.events &&& ~~~v, reply := some [] }))
  ∧ (∀ (s : State) (v : W16), s.shelfTakes (.mfrReturnQualify none) (fun x => x = { s.shelf with reply := some (natLe 2 s.shelf.qualifyMs.toNat) })
    ∧ (3000 ≤ v.toNat → v.toNat ≤ 30000 →
      s.shelfTakes (.mfrReturnQualify (some (natLe 2 v.toNat))) (fun x => x = { s.shelf with qualifyMs := v, reply := some [] }))
    ∧ (v.toNat < 3000 ∨ 30000 < v.toNat → s.shelfTakes (.mfrReturnQualify (some (natLe 2 v.toNat))) (fun x =>
        x = { s.shelf with reply := none, statusCml := s.shelf.statusCml ||| 0x40 })))
  ∧ (∀ (s : State) (v : W16), s.shelfTakes (.mfrReserveLevel none) (fun x => x = { s.shelf with reply := some (natLe 2 s.shelf.reserveLevel.toNat) })
    ∧ (150 ≤ v.toNat → v.toNat ≤ 500 →
      s.shelfTakes (.mfrReserveLevel (some (natLe 2 v.toNat))) (fun x => x = { s.shelf with reserveLevel := v, reply := some [] }))
    ∧ (v.toNat < 150 ∨ 500 < v.toNat → s.shelfTakes (.mfrReserveLevel (some (natLe 2 v.toNat))) (fun x =>
        x = { s.shelf with reply := none, statusCml := s.shelf.statusCml ||| 0x40 })))
  ∧ (∀ (s : State) (v : W16), s.shelfTakes (.mfrCutoffLevel none) (fun x => x = { s.shelf with reply := some (natLe 2 s.shelf.cutoffLevel.toNat) })
    ∧ (20 ≤ v.toNat → v.toNat ≤ 100 → v.toNat < s.shelf.reserveLevel.toNat →
      s.shelfTakes (.mfrCutoffLevel (some (natLe 2 v.toNat))) (fun x => x = { s.shelf with cutoffLevel := v, reply := some [] }))
    ∧ (v.toNat < 20 ∨ 100 < v.toNat → s.shelfTakes (.mfrCutoffLevel (some (natLe 2 v.toNat))) (fun x =>
        x = { s.shelf with reply := none, statusCml := s.shelf.statusCml ||| 0x40 }))))
  ∧ (∀ s : State, ∃ v, v ≤ 1000 ∧
    ((s.shelf.state = .mains ∧ 900 ≤ v ∧ s.shelf.reserve = false → exec (.mfrTestHandover (some [0xA5])) s = .next { s with
        chip := { s.chip with free := s.chip.free + 1 }
        shelf := { s.shelf with soc := BitVec.ofNat 16 v, state := .handover, testing := true, reply := some [] } })
    ∧ (s.shelf.state ≠ .mains ∨ v < 900 ∨ s.shelf.reserve = true → exec (.mfrTestHandover (some [0xA5])) s = .next { s with
        chip := { s.chip with free := s.chip.free + 1 }
        shelf := { s.shelf with soc := BitVec.ofNat 16 v, reply := none, statusCml := s.shelf.statusCml ||| 0x40 } })))

/-! ### Banks, the NV store and field reliability -/

/-- NV pages. SHELTER_START with NV ON and no save running begins one; while one runs, or with NV not ON, the write has no effect. NV_PAGE_WRITE programs
the page at the head of the queue: its bytes, its generation and its CRC are written, the page's count of writes goes up by one, and
the page is no longer suspect; when both writes fail the CRC does not match, the page is worn, and WORN is raised. With nothing queued
nothing happens.

A page that a page write has programmed with a verify that passed reads back with its CRC passing, whatever the page held before. -/
def Obligations.NvPagesAreWrittenAndReadBack : Prop :=
  ((∀ (s : State) (o : Origin), s.chip.accepts pgNVS 0x120 o = true →
    (s.chip.nv.shelter = none → s.chip.domOn domNV = true → s.takes (.shelterStart o) (fun c => c = s.chip.shelterStart))
    ∧ (s.chip.nv.shelter ≠ none ∨ s.chip.domOn domNV = false → s.takes (.shelterStart o) (fun c => c = s.chip)))
  ∧ (∀ (s : State) (ok retry : Bool) (w : NvWrite) (q : List NvWrite) (b : List Byte), s.chip.held = false → s.chip.nv.queue = w :: q →
    w.data = some b → w.why = .firmware →
    (ok = true → s.takes (.nvPageWrite ok retry) (fun c => c.nv.queue = q ∧ c.nv.data = memWriteN s.chip.nv.data (4096 * w.page) b
      ∧ (c.nvMeta w.page).gen = w.gen ∧ (c.nvMeta w.page).crc = BitVec.ofNat 32 (crc32c b) ∧ (c.nvMeta w.page).suspect = false
      ∧ (c.nvMeta w.page).writes = (s.chip.nvMeta w.page).writes + 1 ∧ (∀ n, n ≠ w.page → c.nvMeta n = s.chip.nvMeta n)))
    ∧ (ok = false → retry = false → s.takes (.nvPageWrite ok retry) (fun c => c.nv.queue = q
      ∧ c.nv.data = memWriteN s.chip.nv.data (4096 * w.page) b ∧ (c.nvMeta w.page).gen = w.gen ∧ (c.nvMeta w.page).worn = true
      ∧ (c.nvMeta w.page).crc = BitVec.ofNat 32 (crc32c b ^^^ 1) ∧ (c.nvMeta w.page).writes = (s.chip.nvMeta w.page).writes + 2
      ∧ (∀ x, c.crook.session = some x → x.failed = true))))
  ∧ (∀ (s : State) (ok retry : Bool), s.chip.held = false → s.chip.nv.queue = [] → s.takes (.nvPageWrite ok retry) (fun c => c = s.chip)))
  ∧ (∀ (c : Chip) (w : NvWrite) (q : List NvWrite) (b : List Byte) (retry : Bool), c.nv.queue = w :: q → w.data = some b → w.why = .firmware →
    b.length = 4096 → mapWf memDefault c.nv.data = true →
    (c.nvPageWrite true retry).nvData w.page = b ∧ (c.nvPageWrite true retry).nvGood w.page = true
      ∧ (∀ n, n ≠ w.page → (c.nvPageWrite true retry).nvData n = c.nvData n))

/-- A scrub visit of a bank that is ON and not FENCED, with scrubbing on and the position inside the pass: the position moves on to the next word; a
clean word stays as it is; a word with one data bit wrong is written back corrected with fresh check bits and counted; a word that
cannot be corrected is left, and the pasture whose core tile it is holds with UNCORRECTED.

Shearing. With a spare free and no region named by a scrub visit, SHEAR takes the region in turn, and the turn goes on to the next region. A region
that passes its march is left as it was. One that fails is remapped: the first free spare stands in for it with the same contents,
the words of every other region stay where they are, and REMAP is counted. -/
def Obligations.ScrubbingAndShearingKeepWords : Prop :=
  (∀ (s : State) (key : BankKey) (k : BankCtx) (pos w : Nat), s.chip.held = false → s.chip.mustered = true →
    s.chip.bankOfKey key = (k, true) → k.b.fenced = false → k.plain = false → bit (k.pg.rd (0x104 + k.off)) 0 = true →
    pos = k.pg.rd (0x108 + k.off) → pos ≠ 0 → pos + 1 < k.words → w = k.phys pos →
    (eccClass (wordRaw k.b.mem w).1 (wordRaw k.b.mem w).2 = .clean → s.takes (.scrubVisit key) (fun c =>
      c = s.chip.putBankKey key { k with pg := k.pg.wr (0x108 + k.off) (pos + 1) }))
    ∧ (∀ j d, eccClass (wordRaw k.b.mem w).1 (wordRaw k.b.mem w).2 = .data j → d = flipBit (wordRaw k.b.mem w).1 j →
      s.takes (.scrubVisit key) (fun c => ∃ m : BankCtx, m = ({ k with b := { k.b with mem := wordPut k.b.mem w d (eccCheck d) } } : BankCtx).countCe
        ∧ c = s.chip.putBankKey key { m with pg := m.pg.wr (0x108 + k.off) (pos + 1) }))
    ∧ (eccClass (wordRaw k.b.mem w).1 (wordRaw k.b.mem w).2 = .uncorrectable → s.takes (.scrubVisit key) (fun c =>
      ∃ m b : BankCtx, m = k.countUe w ∧ b.b.mem = k.b.mem ∧ b.pg = m.pg.wr (0x108 + k.off) (pos + 1)
        ∧ c = (s.chip.putBankKey key b).scrubUe key true)))
  ∧ (∀ (s : State) (key : BankKey) (passes : Bool) (k n : BankCtx) (r i : Nat), s.chip.held = false → s.chip.mustered = true →
    s.chip.bankOfKey key = (k, true) → k.b.fenced = false → k.plain = false → bit (k.pg.rd (0x10C + k.off)) 0 = true →
    k.b.urgent = none → r = k.pg.rd (0x110 + k.off) → r + 1 < k.words / 128 → freeSpare k.b.spares 0 = some i →
    n = { k with pg := k.pg.wr (0x110 + k.off) (r + 1) } →
    (passes = true → s.takes (.shear key passes) (fun c => c = s.chip.putBankKey key n))
    ∧ (passes = false → spareFor k.b.spares 0 r = none → s.takes (.shear key passes) (fun c => ∃ m : BankCtx, c = s.chip.putBankKey key m
        ∧ m.b.mem = copyRegion k.b.mem (128 * r) (k.words + 128 * i)
        ∧ m.b.spares = listSet k.b.spares i { region := BitVec.ofNat 14 r, used := true, shadow := false, bad := false })))

/-- Tests. TEST_DUE of a unit that exists and is neither FENCED nor OFF, and no vertical link, runs its tests at once when it carries no live state and no
maintenance hold waits for it: the outcome is recorded, the tile cleared, the waiting commands completed; a unit that carries live state is marked due
and deferred, with the time of the first deferral kept. A vertical link's test waits for the next gap. A FENCED unit is not tested. DEFER_LIMIT
forces the capture of a deferred unit once. DEFER_RETRY tries a forced capture again, and a unit in its maintenance hold is tested. -/
def Obligations.DueTestsRunOrAreDeferred : Prop :=
  (∀ (s : State) (u : UnitKey) (fails : BitVec 5), s.chip.held = false → unitExists u.toNat = true →
    (s.chip.unit u.toNat).applied ≠ .fenced → (s.chip.unit u.toNat).applied ≠ .off →
    (unitKind u.toNat = 4 → s.takes (.testDue u fails) (fun c =>
      c = (s.chip.updUnit u.toNat (fun x => { x with due := true })).putVlink (unitDie u.toNat) (portIndex (unitTile u.toNat))
        { s.chip.vlink (unitDie u.toNat) (portIndex (unitTile u.toNat)) with due := true }))
    ∧ (unitKind u.toNat ≠ 4 → s.chip.heldFor u.toNat = none →
      (s.chip.liveUnit u.toNat = false → s.takes (.testDue u fails) (fun c =>
        c = s.chip.testNow u.toNat (unitTests u.toNat) fails.toNat))
      ∧ (s.chip.liveUnit u.toNat = true → (∀ p ∈ s.chip.unitPastures u.toNat, (s.chip.past p).between = false) →
        s.takes (.testDue u fails) (fun c => c = s.chip.updUnit u.toNat (fun x => { x with
          due := true, deferred := true, deferredAt := if x.deferred then x.deferredAt else s.chip.now })))))
  ∧ (∀ (s : State) (u : UnitKey) (fails : BitVec 5), s.chip.held = false → (s.chip.unit u.toNat).applied = .fenced →
    s.takes (.testDue u fails) (fun c => c = s.chip))
  ∧ (∀ (s : State) (u : UnitKey), s.chip.held = false →
    ((s.chip.unit u.toNat).deferred = true → (s.chip.unit u.toNat).forced = false →
      s.takes (.deferLimit u) (fun c => c = (s.chip.updUnit u.toNat (fun y => { y with forced := true })).forceCapture u.toNat))
    ∧ ((s.chip.unit u.toNat).deferred = false ∨ (s.chip.unit u.toNat).forced = true → s.takes (.deferLimit u) (fun c => c = s.chip)))
  ∧ (∀ (s : State) (u : UnitKey) (fails : BitVec 5) (b : Chip), s.chip.held = false → (s.chip.unit u.toNat).deferred = true →
    (s.chip.unit u.toNat).forced = true → b = s.chip.forceCapture u.toNat →
    (b.heldFor u.toNat = none → s.takes (.deferRetry u fails) (fun c => c = b))
    ∧ (∀ p, b.heldFor u.toNat = some p → s.takes (.deferRetry u fails) (fun c =>
        c = b.testHeld p u.toNat (unitTests u.toNat) fails.toNat)))

/-- The two views of a unit. RETURN of the selected unit, which is FENCED, after its tests have passed makes it SPARE with status OK, and a bank serves
scrub and shear from its first positions; with a failure its status is FENCED. RETURN of a unit that is not FENCED is refused with
BAD_OPERAND. RECONCILE gives both views the applied state and frees the entries recorded for the unit; DISAGREE is raised again while another entry remains. VIEW_SWEEP where the views of every unit agree
changes nothing; a unit whose views differ is recorded, with both views and TIME_MS, in the first free of 16 entries and DISAGREE raised; with no
entry free the disagreement is counted.

RESTART of a pasture that does not qualify changes nothing. One that qualifies, with host memory reachable and a good slot, is restored from it and
ends OK where no log lies behind the slot. A restart without a good slot ends with BAD_OPERAND. LOG_WRITE takes the oldest complete round: it is
written to the log and is no longer waiting; without a log, or with no round waiting, nothing happens. -/
def Obligations.UnitsReturnRestartsAndLogs : Prop :=
  ((∀ (s : State) (o : Origin) (v : W32) (fails : BitVec 5) (u : Nat), s.chip.accepts pgHEALTH 0x110 o = true →
    u = (s.chip.page pgHEALTH).rd 0x100 % 8192 →
    ((s.chip.unit u).applied ≠ .fenced → s.takes (.unitReturn o v fails) (fun c =>
      c = s.chip.updPage pgHEALTH (fun p => p.wr 0x114 stBAD_OPERAND)))
    ∧ (unitExists u = true → (s.chip.unit u).applied = .fenced → s.takes (.unitReturn o v fails) (fun c => c = s.chip.unitReturn fails.toNat)))
  ∧ (∀ (c : Chip) (u bad : Nat), u = (c.page pgHEALTH).rd 0x100 % 8192 → unitExists u = true → (c.unit u).applied = .fenced → unitKind u = 4 →
    (bad &&& unitTests u = 0 → c.unitReturn bad = ((c.recordTest u (unitTests u) 0).setUnit u .spare).updPage pgHEALTH (fun p => p.wr 0x114 stOK))
    ∧ (bad &&& unitTests u ≠ 0 → c.unitReturn bad =
        (c.recordTest u (unitTests u) (bad &&& unitTests u)).updPage pgHEALTH (fun p => p.wr 0x114 stFENCED)))
  ∧ (∀ (s : State) (o : Origin) (v : W32) (u : Nat), s.chip.accepts pgHEALTH 0x110 o = true →
    u = (s.chip.page pgHEALTH).rd 0x100 % 8192 → unitExists u = true →
    s.takes (.reconcile o v) (fun c => ∃ b, b = s.chip.setUnit u (s.chip.unit u).applied
      ∧ c = (({ b with disagree := b.disagree.map (fun d => match d with | some e => if e.unit = u then none else some e | none => none) } : Chip).updPage
          pgHEALTH (fun p => p.wr 0x114 stOK)).keepDisagree))
  ∧ (∀ s : State, s.chip.held = false →
    ((∀ u ∈ s.chip.units, (s.chip.unit u.1).crook = (s.chip.unit u.1).shepherd) → s.takes .viewSweep (fun c => c = s.chip))
    ∧ s.takes .viewSweep (fun c => c = (s.chip.units.map (fun u => u.1)).foldl (fun c u => c.disagreeOn u) s.chip))
  ∧ (∀ (c : Chip) (u : Nat), (c.unit u).crook ≠ (c.unit u).shepherd → (∀ d ∈ c.disagree, ∀ e, d = some e → e.unit ≠ u) →
    (∀ i, (upto 16).find? (fun i => (nth (none : Option Disagree) c.disagree i).isNone) = some i →
      c.disagreeOn u = { c.raise pgHEALTH 2 with
        disagree := listSet c.disagree i (some { unit := u, crook := BitVec.ofNat 3 (unitNum (c.unit u).crook)
                                                 shepherd := BitVec.ofNat 3 (unitNum (c.unit u).shepherd), time := BitVec.ofNat 32 c.timeMs }) })
    ∧ ((∀ i, i < 16 → (nth (none : Option Disagree) c.disagree i).isSome = true) →
      c.disagreeOn u = (c.raise pgHEALTH 2).count pgHEALTH 0x19C 1)))
  ∧ ((∀ (s : State) (p : PastureId), s.chip.held = false → s.chip.mayRestart p.val = false → s.takes (.restart p) (fun c => c = s.chip))
  ∧ (∀ (s : State) (p : PastureId) (b : Chip) (g : CkptRing), s.chip.held = false → s.chip.mayRestart p.val = true →
    b = s.chip.updPast p.val (fun x => { x with restarts := s.chip.now :: x.restarts.take 3 }) → (b.past p.val).ring = some g → b.hostStatus = none →
    (b.newestSlot p.val g = none → s.takes (.restart p) (fun c => c = b.restartEnds p.val stBAD_OPERAND))
    ∧ (∀ a i d, b.newestSlot p.val g = some (a, i) → b.restoreFrom p.val i = (d, stOK) → d.logAt a (Img.read i) = none →
        s.takes (.restart p) (fun c => c = d.restartEnds p.val stOK)))
  ∧ (∀ (s : State) (p : PastureId), s.chip.held = false →
    ((s.chip.past p.val).log = none ∨ (s.chip.past p.val).digests = [] → s.takes (.logWrite p) (fun c => c = s.chip))
    ∧ (∀ g n d ds r, (s.chip.past p.val).log = some g → (s.chip.past p.val).digests = (n, d) :: ds → (n - g.first).toNat < 2 ^ 31 →
        r = s.chip.logRound g n d (((s.chip.past p.val).inputs.find? (fun e => e.1 == n)).map (fun e => e.2)) →
        s.takes (.logWrite p) (fun c => c = r.1.putPast p.val { s.chip.past p.val with
          log := some r.2, digests := ds, inputs := (s.chip.past p.val).inputs.filter (fun e => e.1 != n) }))))

/-! ### Management frames and the boards -/

/-- Frames that read. Each frame that is served is answered OK with what R801 gives it: IDENT_GET the boot state, the versions, the lock and SERIAL;
REG_READ the registers, of this package or through the machine window; PROFILE_READ the bytes of a good copy, or NV_COPY_FAIL;
DEBUG_CHALLENGE the SERIAL and the current CHALLENGE; AUDIT_READ the entries in the log, or BAD_OPERAND; MAP_READ a part of 216 bytes after its
TOTAL for a frozen router, and of up to 7 records of 32 bytes for a congestion map. A stall map has been read with its last part. -/
def Obligations.ReadingFramesAreAnswered : Prop :=
  (∀ (s : State) (f : Frame) (d : Chip), d = s.frameAt 0x01 f → s.frameServed 0x01 f = true →
    s.answers (.identGet f) 0x01 f d stOK (natLe 4 (d.identReg 0x120) ++ natLe 4 d.crook.fwVersion.toNat ++ natLe 4 (d.crookReg 0x104)
      ++ natLe 4 (d.authReg 0x100) ++ natLe 8 d.fuses.serial.toNat))
  ∧ (∀ (s : State) (f : Frame) (d : Chip) (a n : Nat), d = s.frameAt 0x02 f → s.frameServed 0x02 f = true → a = leAt f.payload 0 4 → n = leAt f.payload 4 1 →
    (a < 0x2000000 ∨ (d.frameTarget a).1 = d.pkg → s.answers (.regRead f) 0x02 f (d.readRun 3 (d.frameTarget a).2 n).1 stOK
      ((d.readRun 3 (d.frameTarget a).2 n).2.1.flatMap (fun v => natLe 4 v)))
    ∧ ((d.frameTarget a).1 ≠ d.pkg → ∀ b, b = d.count pgGATE 0x158 1 →
      (∀ st, b.windowFails (d.frameTarget a).1 = some st →
        s.answers (.regRead f) 0x02 f (b.showWindow st a) stOK (List.replicate (4 * n) 0))
      ∧ (b.windowFails (d.frameTarget a).1 = none → s.takes (.regRead f) (fun c =>
          c = ((b.jobAsk { via := f.via, tag := f.tag, addr := (d.frameTarget a).2, pkg := (d.frameTarget a).1, left := n, got := [],
                           waiting := true }).frameDone 0x02 f.tag.toNat (viaClass f.via) stOK).crookServe s.sled.stormHold 63))))
  ∧ (∀ (s : State) (f : Frame) (d : Chip), d = s.frameAt 0x05 f → s.frameServed 0x05 f = true →
    (∀ l, d.profRead (leAt f.payload 0 1) = some l →
      s.answers (.profileRead f) 0x05 f d stOK (slice l (leAt f.payload 4 4) (leAt f.payload 8 2)))
    ∧ (d.profRead (leAt f.payload 0 1) = none → s.answers (.profileRead f) 0x05 f d stNV_COPY_FAIL []))
  ∧ (∀ (s : State) (f : Frame) (d : Chip), d = s.frameAt 0x0C f → s.frameServed 0x0C f = true →
    s.answers (.debugChallenge f) 0x0C f d stOK (natLe 8 d.fuses.serial.toNat ++ natLe 8 d.dbgLock.challenge.toNat))
  ∧ (∀ (s : State) (f : Frame) (d : Chip) (first n : Nat), d = s.frameAt 0x0F f → s.frameServed 0x0F f = true → first = leAt f.payload 0 4 →
    n = leAt f.payload 4 1 →
    (first < d.auditOldest ∨ d.crook.auditHead.toNat < first + n → s.answers (.auditRead f) 0x0F f d stBAD_OPERAND [])
    ∧ (d.auditOldest ≤ first → first + n ≤ d.crook.auditHead.toNat → ∃ l, l.length = 64 * n ∧ s.answers (.auditRead f) 0x0F f d stOK l))
  ∧ (∀ (s : State) (f : Frame) (d : Chip) (p part : Nat), d = s.frameAt 0x11 f → s.frameServed 0x11 f = true → p = leAt f.payload 2 2 →
    part = leAt f.payload 4 2 →
    (leAt f.payload 0 1 = 0 → ∀ k, (d.frozenTiles p)[part]? = some k → ∃ b, b.length = 216 ∧
      s.answers (.mapRead f) 0x11 f (if part + 1 = (d.frozenTiles p).length then d.updPast p (fun x => { x with stallMapRead := true }) else d) stOK
        (natLe 2 (d.frozenTiles p).length ++ natLe 2 0 ++ b))
    ∧ (leAt f.payload 0 1 = 1 → part < 147 → ∃ b, b.length = 32 * min 7 (1024 - 7 * part) ∧
      s.answers (.mapRead f) 0x11 f d stOK (natLe 2 147 ++ natLe 2 0 ++ b)))

/-- Frames that write registers, submit a command, or pass a notice on, and those of a profile. REG_WRITE writes the registers, of this package or through
the machine window. SUBMIT places its record in the operator context's ring and rings its doorbell, the response coming with the completion;
a full ring is answered with NO_PLACE. NOTICE starts the shelter save or ends the holds. PROFILE_STAGE writes the staging page;
PROFILE_COMMIT writes it as profile once it keeps its layout and its audit entry has room. -/
def Obligations.WritingFramesTakeEffect : Prop :=
  (∀ (s : State) (f : Frame) (d : Chip) (a : Nat) (vs : List Nat), d = s.frameAt 0x03 f → s.frameServed 0x03 f = true → a = leAt f.payload 0 4 →
    vs = (upto (leAt f.payload 4 1)).map (fun i => leAt f.payload (8 + 4 * i) 4) →
    ((d.frameTarget a).1 = d.pkg → s.answers (.regWrite f) 0x03 f (d.writeRun 3 none (d.frameTarget a).2 vs).1 stOK [])
    ∧ ((d.frameTarget a).1 ≠ d.pkg → (∀ st, d.windowFails (d.frameTarget a).1 = some st → s.answers (.regWrite f) 0x03 f (d.showWindow st a) stOK [])
      ∧ (d.windowFails (d.frameTarget a).1 = none → s.answers (.regWrite f) 0x03 f
          (d.sendAll (regMessages (d.frameTarget a).1 vs.length (d.frameTarget a).2 vs)) stOK [])))
  ∧ (∀ (s : State) (f : Frame) (d b : Chip), d = s.frameAt 0x04 f → s.frameServed 0x04 f = true →
    b = d.crookWrite ((d.ctx 4095).sqAddr (d.ctx 4095).pi) f.payload →
    (((d.ctx 4095).pi - (d.ctx 4095).ci).toNat < 2 ^ (d.ctx 4095).logSq.toNat → s.takes (.submit f) (fun c =>
      c = ((({ b with crook := { b.crook with submits := b.crook.submits ++ [((d.ctx 4095).pi, f.via, f.tag)] } } : Chip).doorbellPi 4095
        ((d.ctx 4095).pi + 1)).frameDone 0x04 f.tag.toNat (viaClass f.via) stOK).crookServe s.sled.stormHold 63))
    ∧ (2 ^ (d.ctx 4095).logSq.toNat ≤ ((d.ctx 4095).pi - (d.ctx 4095).ci).toNat → s.answers (.submit f) 0x04 f d stNO_PLACE []))
  ∧ (∀ (s : State) (f : Frame) (d : Chip), d = s.frameAt 0x12 f → s.frameServed 0x12 f = true →
    (leAt f.payload 0 1 = 1 → s.answers (.notice f) 0x12 f (d.powerStorm s.sled.stormHold) stOK [])
    ∧ (leAt f.payload 0 1 = 2 → s.answers (.notice f) 0x12 f d.powerCalm stOK []))
  ∧ (∀ (s : State) (f : Frame) (d : Chip), d = s.frameAt 0x06 f → s.frameServed 0x06 f = true →
    s.answers (.profileStage f) 0x06 f
      { d with crook := { d.crook with staging := memWriteN d.crook.staging (leAt f.payload 0 4) (f.payload.drop 4) } } stOK [])
  ∧ (∀ (s : State) (f : Frame) (d : Chip) (n : Nat) (b : List Byte), d = s.frameAt 0x07 f → s.frameServed 0x07 f = true → d.nv.shelter = none →
    n = leAt f.payload 0 1 → b = memReadN d.crook.staging 0 4096 →
    (profOk n b = false → s.answers (.profileCommit f) 0x07 f d stBAD_OPERAND [])
    ∧ (profOk n b = true → d.auditRoom = false → s.answers (.profileCommit f) 0x07 f (d.raise pgAUTH 3) stNO_PLACE [])
    ∧ (profOk n b = true → d.auditRoom = true → ∃ t : Chip, s.answers (.profileCommit f) 0x07 f t stOK []
        ∧ t.nv.data = memWriteN d.nv.data (4096 * profPage n (d.profTarget n).1) b
        ∧ (t.nvMeta (profPage n (d.profTarget n).1)).gen = BitVec.ofNat 32 (d.profTarget n).2))

/-- The firmware update. FW_BEGIN opens the one session, names the copy not in use and writes its first page as zeros first; while one is open it is
answered with NO_PLACE. FW_DATA keeps bytes that lie in the image. FW_END queues the pages still to write, the header page last, and waits;
once they are written the copy is verified and the session closes. FW_COMMIT sets rollback bits up to the counter of the running image, and is refused when
there is none to set, the image is a fallback or built in, or in RECOVERY. A copy whose
ROLLBACK is below the counter does not verify. A session is abandoned after 60 s without data.

Setting `n` rollback bits raises the counter by `n` as long as that many are clear, and never clears one. -/
def Obligations.FirmwareFramesTakeEffect : Prop :=
  ((∀ (s : State) (f : Frame) (d : Chip) (b : Bool), d = s.frameAt 0x08 f → s.frameServed 0x08 f = true → d.nv.shelter = none →
    b = (!d.recovery && !d.crook.fwCopyB) →
    (d.crook.session.isSome = true → s.answers (.fwBegin f) 0x08 f d stNO_PLACE [])
    ∧ (d.crook.session = none → d.auditRoom = true → ∃ t : Chip, s.answers (.fwBegin f) 0x08 f t stOK (natLe 1 (b2n b))
        ∧ t.crook.session = some { copyB := b, length := leAt f.payload 0 4, bytes := [], seen := [], pages := [], failed := false, ending := false }
        ∧ t.nv.queue = d.nv.queue ++ [d.fwWrite b 0 (List.replicate 4096 0)]))
  ∧ (∀ (s : State) (f : Frame) (d : Chip) (x : FwSession) (off : Nat), d = s.frameAt 0x09 f → s.frameServed 0x09 f = true → d.nv.shelter = none →
    d.crook.session = some x → x.failed = false → off = leAt f.payload 0 4 →
    (x.length < off + (f.payload.drop 4).length → s.answers (.fwData f) 0x09 f d stBAD_OPERAND [])
    ∧ (off + (f.payload.drop 4).length ≤ x.length → ∃ (t : Chip) (y : FwSession), s.answers (.fwData f) 0x09 f t stOK [] ∧ t.crook.session = some y
        ∧ y.bytes = memWriteN x.bytes off (f.payload.drop 4) ∧ y.length = x.length ∧ y.copyB = x.copyB))
  ∧ (∀ (s : State) (f : Frame) (d : Chip) (x : FwSession), d = s.frameAt 0x0A f → s.frameServed 0x0A f = true → d.nv.shelter = none →
    d.crook.session = some x →
    (x.ending = false → d.auditRoom = true → s.takes (.fwEnd f) (fun c => ∃ t : Chip, t = d.fwEnding x
      ∧ c = ({ t with crook := { t.crook with
          frames := (s.framed 0x0A f).crook.frames, mboxHeld := (s.framed 0x0A f).crook.mboxHeld } } : Chip).crookServe s.sled.stormHold 63))
    ∧ (x.ending = true → d.fwWriting = false → ∃ (t : Chip) (st : Nat) (l : List Byte), s.answers (.fwEnd f) 0x0A f t st l ∧ t.crook.session = none
        ∧ (x.failed = false → ∀ ver rb, d.fwVerify x.copyB = some (ver, rb) → st = stOK ∧ l = natLe 4 ver ++ natLe 2 rb)
        ∧ (x.failed = false → d.fwVerify x.copyB = none → st = stBAD_OPERAND ∧ l = [])))
  ∧ (∀ (s : State) (f : Frame) (d : Chip) (boot : Nat), d = s.frameAt 0x0B f → s.frameServed 0x0B f = true → d.nv.shelter = none →
    boot = (d.page pgIDENT).rd 0x120 →
    (d.crook.fwRollback.toNat ≤ d.rollbacks ∨ bit boot 10 = true ∨ bit boot 11 = true ∨ d.recovery = true → s.answers (.fwCommit f) 0x0B f d stBAD_OPERAND [])
    ∧ (d.rollbacks < d.crook.fwRollback.toNat → bit boot 10 = false → bit boot 11 = false → d.recovery = false → d.auditRoom = true →
      ∃ t : Chip, s.answers (.fwCommit f) 0x0B f t stOK (natLe 1 t.rollbacks)
        ∧ t.fuses.rollback = setRollback (d.crook.fwRollback.toNat - d.rollbacks) d.fuses.rollback
        ∧ (d.crook.fwRollback.toNat ≤ 64 → t.rollbacks = d.crook.fwRollback.toNat)))
  ∧ (∀ (c : Chip) (b : Bool) (h : List Byte), c.fwBytes b 256 = some h → leAt h 12 2 < c.rollbacks → c.fwVerify b = none)
  ∧ (∀ s : State, s.chip.held = false →
    (∀ x, s.chip.crook.session = some x → x.ending = false → s.takes .fwSessionIdle (fun c =>
      c = { s.chip with crook := { s.chip.crook with session := none } }))
    ∧ (s.chip.crook.session = none → s.takes .fwSessionIdle (fun c => c = s.chip))))
  ∧ (∀ (n : Nat) (w : W64), (∀ i, w.getLsbD i = true → (setRollback n w).getLsbD i = true)
    ∧ (popcount 64 w.toNat + n ≤ 64 → popcount 64 (setRollback n w).toNat = popcount 64 w.toNat + n))

/-- The debug lock and the audit log. DEBUG_UNLOCK draws a new CHALLENGE whatever its outcome: a token that is not for this package, this CHALLENGE
or this key leaves the lock as it is with NO_AUTHORITY; a good one, with no pasture resident or being placed unless it is LIVE, opens the lock for its scope
and its seconds. The lock closes at DEBUG_CLOSE, at a write of DBG_CTRL.CLOSE and at its expiry. AUDIT_ACK up to the ACK reached changes
nothing; one within the log moves ACK and appends its entry; one beyond it is refused. -/
def Obligations.DebugAndAuditFramesTakeEffect : Prop :=
  (∀ (s : State) (f : Frame) (d : Chip), d = s.frameAt 0x0D f → s.frameServed 0x0D f = true → d.nv.shelter = none →
    (d.tokenOk f.payload = false → ∃ t : Chip, s.answers (.debugUnlock f) 0x0D f t stNO_AUTHORITY [] ∧ t.dbgLock.isOpen = d.dbgLock.isOpen
      ∧ t.dbgLock.challenge = Config.freeChallenge d.free)
    ∧ (d.tokenOk f.payload = true → d.auditRoom = true → bit (leAt f.payload 6 2) 2 = true ∨ (d.residents = [] ∧ d.placing = false) →
      ∃ t : Chip, s.answers (.debugUnlock f) 0x0D f t stOK (natLe 4 (leAt f.payload 24 4)) ∧ t.dbgLock.isOpen = true ∧ t.dbgLock.ever = true
        ∧ t.dbgLock.scope = BitVec.ofNat 3 (leAt f.payload 6 2) ∧ t.dbgLock.endsAt = d.now + 1000000 * leAt f.payload 24 4
        ∧ t.dbgLock.challenge = Config.freeChallenge d.free))
  ∧ (∀ (s : State) (f : Frame) (d : Chip), d = s.frameAt 0x0E f → s.frameServed 0x0E f = true → d.nv.shelter = none →
    d.dbgLock.isOpen = false ∨ d.auditRoom = true → s.answers (.debugClose f) 0x0E f (d.debugClose 2 3) stOK [])
  ∧ (∀ (s : State) (o : Origin), s.chip.accepts pgAUTH 0x124 o = true → s.takes (.dbgCtrlClose o) (fun c => c = s.chip.debugClose 3 (originNum o)))
  ∧ (∀ s : State, s.chip.held = false →
    (s.chip.dbgLock.isOpen = true → s.chip.dbgLock.endsAt ≤ s.chip.now → s.takes .debugExpiry (fun c => c = s.chip.debugClose 1 0))
    ∧ (s.chip.now < s.chip.dbgLock.endsAt → s.takes .debugExpiry (fun c => c = s.chip)))
  ∧ (∀ (c : Chip) (cause cls : Nat), (c.debugClose cause cls).dbgLock = { c.dbgLock with isOpen := false })
  ∧ (∀ (s : State) (f : Frame) (d : Chip) (seq : Nat), d = s.frameAt 0x10 f → s.frameServed 0x10 f = true → d.nv.shelter = none → seq = leAt f.payload 0 4 →
    (seq ≤ d.crook.auditAck.toNat → s.answers (.auditAck f) 0x10 f d stOK [])
    ∧ (d.crook.auditAck.toNat < seq → seq < d.auditOldest ∨ d.crook.auditHead.toNat ≤ seq → s.answers (.auditAck f) 0x10 f d stBAD_OPERAND [])
    ∧ (d.crook.auditAck.toNat < seq → d.auditOldest ≤ seq → seq < d.crook.auditHead.toNat →
      s.answers (.auditAck f) 0x10 f
        (({ d with crook := { d.crook with auditAck := BitVec.ofNat 32 seq } } : Chip).audit 13 3 stOK (natLe 4 seq)).1 stOK []))

/-- A frame that the table refuses has no effect but its answer: a payload that breaks its layout or range is answered with BAD_OPERAND, a well-formed one of
a type that its class may not send now with NO_AUTHORITY.

Responses are read in their order. RESPONSE_READ gives the oldest unread response of the SMBus target and takes it away, and a NONE frame when
there is none; a package in reset does not answer. TAKE discards the oldest response of the mailbox. -/
def Obligations.FramesAreRefusedAndResponsesRead : Prop :=
  (∀ (s : State) (f : Frame) (type : Nat) (i : Instr),
    (type, i) ∈ [(0x01, Instr.identGet f), (0x02, .regRead f), (0x03, .regWrite f), (0x04, .submit f), (0x05, .profileRead f), (0x06, .profileStage f),
      (0x07, .profileCommit f), (0x08, .fwBegin f), (0x09, .fwData f), (0x0A, .fwEnd f), (0x0B, .fwCommit f), (0x0C, .debugChallenge f),
      (0x0D, .debugUnlock f), (0x0E, .debugClose f), (0x0F, .auditRead f), (0x10, .auditAck f), (0x11, .mapRead f), (0x12, .notice f)] →
    s.firstFrame type f = true →
    (framePayloadOk type f.payload = false → s.answers i type f (s.frameAt type f) stBAD_OPERAND [])
    ∧ (framePayloadOk type f.payload = true → (s.framed type f).frameAllowed type (viaClass f.via) f.payload = false →
      s.answers i type f (s.frameAt type f) stNO_AUTHORITY []))
  ∧ ((∀ s : State, s.chip.held = false →
    (∀ f l, s.chip.crook.smbus = f :: l → s.takes .responseRead (fun c =>
      c = ({ s.chip with crook := { s.chip.crook with smbus := l } } : Chip).say (.frame f)))
    ∧ (s.chip.crook.smbus = [] → s.takes .responseRead (fun c => c = s.chip.say (.frame [0, 1, 0, 0, 0, 0, 0, 0]))))
  ∧ (∀ s : State, s.chip.held = true → s.takes .responseRead (fun c => c = s.chip.say .refused))
  ∧ (∀ (s : State) (o : Origin), s.chip.accepts pgCROOK 0x120 o = true → s.takes (.mboxTake o) (fun c =>
      c = { s.chip with crook := { s.chip.crook with mbox := s.chip.crook.mbox.drop 1 } })))

/-- A datagram with a sequence number not answered before is carried out, and its answer kept. TO_PACKAGE gives its frame to the package of its slot and
answers with the response that comes at once; for another slot, which the model does not hold, the answer is empty. SET_PROFILE_PINS, POWER_ON and
POWER_OFF act on their slot and answer OK; SLED_NOTICE passes on a notice that was not passed on already; STATE_GET answers with one byte a
slot.

A datagram that comes again is not carried out again: the answer kept for its sequence number is given, and nothing else is asked of
the package. A retry of a number that is not kept has no effect. -/
def Obligations.DatagramsAreCarriedOutOnce : Prop :=
  ((∀ (s : State) (q : W32) (k : DieId) (f : List Byte), s.fresh q = true →
    (k = s.sled.slot → ∃ r, r = s.chip.sledFrame s.sled.stormHold f
      ∧ exec (.toPackage q k f) s = .next (s.settledTo { s with
          chip := r.1, sled := s.sled.answered q (match r.2 with | some g => s.sled.datagram 1 k q g | none => []) }))
    ∧ (k ≠ s.sled.slot → exec (.toPackage q k f) s = .next (s.settledTo { s with sled := s.sled.answered q [] })))
  ∧ (∀ (s : State) (q : W32) (k : DieId) (pins : BitVec 2), s.fresh q = true → ∃ x : Sled, x = s.sled.setSlot k (fun e => { e with pins := pins })
    ∧ exec (.setProfilePins q k pins) s = .next (s.settledTo { s with
        sled := x.answered q (x.datagram 3 k q [5, 1, 0]) }))
  ∧ (∀ (s : State) (q : W32) (k : DieId), s.fresh q = true →
    (∃ t : State, t = s.slotOn k ∧ exec (.powerOn q k) s = .next (s.settledTo { t with sled := t.sled.answered q (t.sled.datagram 3 k q [5, 2, 0]) }))
    ∧ (∃ t : State, t = s.slotOff k ∧ exec (.powerOff q k) s = .next (s.settledTo { t with sled := t.sled.answered q (t.sled.datagram 3 k q [5, 3, 0]) })))
  ∧ (∀ (s : State) (q : W32) (storm : Bool), s.fresh q = true →
    (s.sled.noticed = some storm → exec (.sledNotice q storm) s = .next (s.settledTo { s with
      sled := s.sled.answered q (s.sled.datagram 3 s.sled.slot q [5, 4, 0]) }))
    ∧ (s.sled.noticed ≠ some storm → s.chip.held = true → ∃ x : Sled, x = { s.sled with noticed := some storm, heldNotice := some storm }
      ∧ exec (.sledNotice q storm) s = .next (s.settledTo { s with sled := x.answered q (x.datagram 3 s.sled.slot q [5, 4, 0]) }))
    ∧ (s.sled.noticed ≠ some storm → s.chip.held = false → s.chip.crook.smbus.length < 8 → ∃ x : Sled,
      x = { s.sled with noticed := some storm, heldNotice := none }
      ∧ exec (.sledNotice q storm) s = .next (s.settledTo { s with
          chip := (s.chip.sledFrame s.sled.stormHold (requestFrame 0x12 0 [if storm then 1 else 2])).1
          sled := x.answered q (x.datagram 3 s.sled.slot q [5, 4, 0]) })))
  ∧ (∀ (s : State) (q : W32), s.fresh q = true →
    exec (.stateGet q) s = .next (s.settledTo { s with sled := s.sled.answered q (s.sled.datagram 3 s.sled.slot q s.sled.stateBytes) })))
  ∧ ((∀ (s : State) (q : W32) (k : DieId) (f : List Byte) (pins : BitVec 2) (storm : Bool) (e : W32 × List Byte) (i : Instr),
    s.sled.answers.find? (fun e => e.1 == q) = some e →
    i ∈ [Instr.toPackage q k f, .bridgeRetry q, .setProfilePins q k pins, .powerOn q k, .powerOff q k, .sledNotice q storm, .stateGet q] →
    exec i s = .next (s.settledTo { s with sled := { s.sled with answer := e.2 } }))
  ∧ (∀ (s : State) (q : W32), s.fresh q = true → exec (.bridgeRetry q) s = .next (s.settledTo s)))

/-- Slots come up and go down. A slot powered on has its rails and POR_N high, and the package of this model, in reset with POR_N low, boots with the pins
that the sled drives; another slot leaves the package alone. A slot powered off has neither, and the package is reset before its rails go.
SLED_POWER_UP takes the next sled while the shelf is in MAINS, and powers this sled's slots in its turn. ENUMERATION writes the size of the torus, the
position and the home package, and locks them, once the firmware runs.

Enumeration gives every package of a machine of one to four racks a place of its own. The package in slot k of sled s of rack r has x = i mod DX, y = ⌊i / DX⌋
and z = k for i = 16·r + s, in a torus of the size that the count of racks sets, and its package number is x + DX·y + DX·DY·z; a package that stands alone has x = y = 0.
The position lies inside the torus, and two packages that differ in rack, sled or slot get different positions. -/
def Obligations.SledsPowerUpAndEnumerate : Prop :=
  ((∀ (s : State) (k : DieId), s.sled.slots.length = 4 →
    ((s.slotOn k).sled.slotAt k).rails = true ∧ ((s.slotOn k).sled.slotAt k).porLow = false ∧ ((s.slotOn k).sled.slotAt k).pins = (s.sled.slotAt k).pins
    ∧ ((s.slotOff k).sled.slotAt k).rails = false ∧ ((s.slotOff k).sled.slotAt k).porLow = true
    ∧ (k ≠ s.sled.slot → (s.slotOn k).chip = s.chip ∧ (s.slotOff k).chip = s.chip)
    ∧ (k = s.sled.slot → s.chip.porLow = true →
        (s.slotOn k).chip = ({ s.chip with railsOut := false, porLow := false } : Chip).boot (s.sled.slotAt k).pins)
    ∧ (k = s.sled.slot → s.chip.porLow = false →
        (s.slotOff k).chip = { ({ s.chip with porLow := true } : Chip).packageReset 1 with railsOut := true }))
  ∧ (∀ s : State,
    (s.shelf.state ≠ .mains ∨ 16 ≤ s.sled.powered → exec .sledPowerUp s = .next (s.settledTo s))
    ∧ (s.shelf.state = .mains → s.sled.powered < 16 → ∃ t : State, t = { s with sled := { s.sled with powered := s.sled.powered + 1 } }
      ∧ (s.sled.powered ≠ s.sled.place.toNat → exec .sledPowerUp s = .next (s.settledTo t))
      ∧ (s.sled.powered = s.sled.place.toNat → exec .sledPowerUp s = .next (s.settledTo ((((t.slotOn 0).slotOn 1).slotOn 2).slotOn 3)))))
  ∧ (∀ s : State,
    (s.chip.held = true ∨ s.chip.recovery = true → exec .enumeration s = .next (s.settledTo s))
    ∧ (s.chip.held = false → s.chip.recovery = false → s.takes .enumeration (fun c => ∃ x y z : Chip,
        x = (s.chip.writeAt (pgLINK * 4096 + 0x180) s.sled.torus.1 3 none).1 ∧ y = (x.writeAt (pgLINK * 4096 + 0x184) s.sled.torus.2.1 3 none).1
        ∧ z = (y.writeAt (pgGATE * 4096 + 0x10C) s.sled.torus.2.2 3 none).1 ∧ c = (z.writeAt (pgLINK * 4096 + 0x00C) 1 3 none).1))))
  ∧ ((∀ (x : Sled) (i : Nat) (d : Nat × Nat), x.standalone = false → 1 ≤ x.racks.toNat → x.racks.toNat ≤ 4 → x.rack.toNat < x.racks.toNat →
    i = 16 * x.rack.toNat + x.place.toNat →
    d = (if x.racks.toNat = 1 then (4, 4) else if x.racks.toNat = 2 then (8, 4) else if x.racks.toNat = 3 then (8, 6) else (8, 8)) →
    bits x.torus.1 3 0 = d.1 ∧ bits x.torus.1 7 4 = d.2 ∧ bits x.torus.1 11 8 = 4
    ∧ bits x.torus.2.1 3 0 = i % d.1 ∧ bits x.torus.2.1 7 4 = i / d.1 ∧ bits x.torus.2.1 11 8 = x.slot.val ∧ i / d.1 < d.2
    ∧ (∀ c : Chip, (c.page pgLINK).rd 0x180 = x.torus.1 → (c.page pgLINK).rd 0x184 = x.torus.2.1 →
        c.pkg = i % d.1 + d.1 * (i / d.1) + d.1 * d.2 * x.slot.val))
  ∧ (∀ x : Sled, x.standalone = true → bits x.torus.1 3 0 = 1 ∧ bits x.torus.1 7 4 = 1 ∧ bits x.torus.2.1 7 0 = 0 ∧ bits x.torus.2.1 11 8 = x.slot.val)
  ∧ (∀ x y : Sled, x.standalone = false → y.standalone = false → x.racks = y.racks → 1 ≤ x.racks.toNat → x.racks.toNat ≤ 4 →
    x.rack.toNat < x.racks.toNat → y.rack.toNat < y.racks.toNat → x.torus.2.1 = y.torus.2.1 → x.rack = y.rack ∧ x.place = y.place ∧ x.slot = y.slot))

/-- The instructions of the port. EXTEST with POR_N low captures the pads, takes the new value and drives the pads whose enable it sets; with POR_N high it
acts as BYPASS. IDCODE selects a register with bit 0 set that holds the maker, the part and the generation. SAMPLE_PRELOAD captures the pads and takes the
value without driving one. CLAMP with POR_N low drives the value it holds and selects BYPASS, and with POR_N high acts as BYPASS. BYPASS captures 0 and
drives nothing; its one bit delays what is shifted through it.

The pads that a boundary value drives: each output cell whose enable is set, with its enable, and no other cell. -/
def Obligations.TapInstructionsTakeEffect : Prop :=
  ((∀ (s : State) (tdi pads : BitVec 73),
    (s.chip.porLow = true → exec (.extest tdi pads) s = .next { s with
      tap := { s.tap with ir := 0x00, bypass := false, boundary := tdi, driven := drivenOf tdi, shiftedOut := pads } })
    ∧ (s.chip.porLow = false → exec (.extest tdi pads) s = .next { s with
      tap := { s.tap with ir := 0x00, bypass := true, driven := 0, shiftedOut := 0 } })
    ∧ exec (.samplePreload tdi pads) s = .next { s with
      tap := { s.tap with ir := 0x02, bypass := false, boundary := tdi, driven := 0, shiftedOut := pads } })
  ∧ (∀ s : State, ∃ v : BitVec 73, v.getLsbD 0 = true ∧ bits v.toNat 11 1 = Config.jep106.toNat ∧ bits v.toNat 27 12 = Config.partNumber.toNat
    ∧ bits v.toNat 31 28 = s.chip.fuses.baseGen.toNat ∧ (s.chip.fuses.baseGen = 1 → bits v.toNat 31 28 = 1) ∧ v.toNat < 2 ^ 32
    ∧ exec .idcode s = .next { s with tap := { s.tap with ir := 0x01, bypass := false, driven := 0, shiftedOut := v } })
  ∧ (∀ s : State,
    (s.chip.porLow = true → exec .clamp s = .next { s with
      tap := { s.tap with ir := 0x04, bypass := true, driven := drivenOf s.tap.boundary, shiftedOut := 0 } })
    ∧ (s.chip.porLow = false → exec .clamp s = .next { s with
      tap := { s.tap with ir := 0x04, bypass := true, driven := 0, shiftedOut := 0 } }))
  ∧ (∀ (s : State) (b : Bool), ∃ v : BitVec 73, v.getLsbD 1 = b
    ∧ (s.tap.ir ≠ 0xFF ∨ s.tap.bypass = false → v.getLsbD 0 = false) ∧ (s.tap.ir = 0xFF → s.tap.bypass = true → v.getLsbD 0 = s.tap.shiftedOut.getLsbD 1)
    ∧ exec (.bypass b) s = .next { s with tap := { s.tap with ir := 0xFF, bypass := true, driven := 0, shiftedOut := v } }))
  ∧ (∀ (b : BitVec 73) (i : Nat),
    (i ∈ outCells → b.getLsbD (i + 1) = true → (drivenOf b).getLsbD (i + 1) = true ∧ (drivenOf b).getLsbD i = b.getLsbD i)
    ∧ (i ∈ outCells → b.getLsbD (i + 1) = false → (drivenOf b).getLsbD (i + 1) = false ∧ (drivenOf b).getLsbD i = false)
    ∧ (i ∉ outCells → i ∉ outCells.map (· + 1) → (drivenOf b).getLsbD i = false))
end

