-- ==== Sys2Proof/Laws/Maps.lean ====
section
/-! SUPPORT. Laws of the sparse maps and of byte memory: a read after a write to the same key gives the value written, a
write leaves every other key alone, and every operation keeps the canonical form. -/

namespace Sys2Proof.Machine

variable {α : Type}

@[simp] theorem mapGet_mapErase_same (d : Nat → α) (m : Map α) (k : Nat) : mapGet d (mapErase m k) k = d k := by
  induction m with
  | nil => rfl
  | cons e m ih =>
    obtain ⟨j, v⟩ := e
    by_cases h : j = k
    · simp [mapErase, h, ih]
    · simp [mapErase, mapGet, h, ih]

theorem mapGet_mapErase_other (d : Nat → α) (m : Map α) {k j : Nat} (h : j ≠ k) :
    mapGet d (mapErase m k) j = mapGet d m j := by
  induction m with
  | nil => rfl
  | cons e m ih =>
    obtain ⟨i, v⟩ := e
    by_cases h1 : i = k
    · have h2 : ¬ k = j := fun hh => h hh.symm
      simp [mapErase, mapGet, h1, h2, ih]
    · simp only [mapErase, h1, if_false, mapGet, ih]

@[simp] theorem mapGet_mapInsert_same (d : Nat → α) (m : Map α) (k : Nat) (v : α) : mapGet d (mapInsert m k v) k = v := by
  induction m with
  | nil => simp [mapInsert, mapGet]
  | cons e m ih =>
    obtain ⟨j, w⟩ := e
    unfold mapInsert
    split
    · simp [mapGet]
    · split
      · simp [mapGet]
      · next h => simp [mapGet, h, ih]

theorem mapGet_mapInsert_other (d : Nat → α) (m : Map α) {k j : Nat} (v : α) (h : j ≠ k) :
    mapGet d (mapInsert m k v) j = mapGet d m j := by
  have hk : ¬ k = j := fun hh => h hh.symm
  induction m with
  | nil => simp [mapInsert, mapGet, hk]
  | cons e m ih =>
    obtain ⟨i, w⟩ := e
    unfold mapInsert
    split
    · simp [mapGet, hk]
    · split
      · next h1 => subst h1; simp [mapGet, hk]
      · simp only [mapGet, ih]

@[simp] theorem mapGet_mapSet_same [DecidableEq α] (d : Nat → α) (m : Map α) (k : Nat) (v : α) :
    mapGet d (mapSet d m k v) k = v := by
  unfold mapSet
  split
  · next h => simp [h]
  · simp

theorem mapGet_mapSet_other [DecidableEq α] (d : Nat → α) (m : Map α) {k j : Nat} (v : α) (h : j ≠ k) :
    mapGet d (mapSet d m k v) j = mapGet d m j := by
  unfold mapSet
  split
  · exact mapGet_mapErase_other d m h
  · exact mapGet_mapInsert_other d m v h

theorem mapGet_mapSet [DecidableEq α] (d : Nat → α) (m : Map α) (k j : Nat) (v : α) :
    mapGet d (mapSet d m k v) j = if j = k then v else mapGet d m j := by
  split
  · next h => subst h; simp
  · next h => exact mapGet_mapSet_other d m v h

/-! ### Canonical form -/

/-- Every key of the map lies above `lo`, when `lo` is given. -/
def keysAbove : Option Nat → Map α → Prop
  | none, _ => True
  | some lo, m => ∀ e ∈ m, lo < e.1

theorem mapSorted_above {lo : Option Nat} {m : Map α} (h : mapSorted lo m = true) : keysAbove lo m := by
  induction m generalizing lo with
  | nil => cases lo <;> simp [keysAbove]
  | cons e m ih =>
    obtain ⟨k, v⟩ := e
    cases lo with
    | none => simp [keysAbove]
    | some lo =>
      simp only [mapSorted, Bool.and_eq_true, decide_eq_true_eq] at h
      intro x hx
      rcases List.mem_cons.1 hx with rfl | hx
      · exact h.1
      · exact Nat.lt_trans h.1 (ih h.2 x hx)

theorem mapSorted_weaken {lo : Option Nat} {k : Nat} {m : Map α} (h : mapSorted (some k) m = true)
    (hk : ∀ l, lo = some l → l ≤ k) : mapSorted lo m = true := by
  cases m with
  | nil => cases lo <;> rfl
  | cons e m =>
    obtain ⟨j, v⟩ := e
    simp only [mapSorted, Bool.and_eq_true, decide_eq_true_eq] at h
    cases lo with
    | none => exact h.2
    | some l =>
      simp only [mapSorted, Bool.and_eq_true, decide_eq_true_eq]
      exact ⟨Nat.lt_of_le_of_lt (hk l rfl) h.1, h.2⟩

theorem mapSorted_cons {lo : Option Nat} {k : Nat} {v : α} {m : Map α} :
    mapSorted lo ((k, v) :: m) = true ↔ (∀ l, lo = some l → l < k) ∧ mapSorted (some k) m = true := by
  cases lo <;> simp [mapSorted]

theorem mapSorted_erase {lo : Option Nat} {m : Map α} (k : Nat) (h : mapSorted lo m = true) :
    mapSorted lo (mapErase m k) = true := by
  induction m generalizing lo with
  | nil => exact h
  | cons e m ih =>
    obtain ⟨j, v⟩ := e
    rw [mapSorted_cons] at h
    unfold mapErase
    split
    · exact mapSorted_weaken (ih h.2) (fun l hl => Nat.le_of_lt (h.1 l hl))
    · rw [mapSorted_cons]
      exact ⟨h.1, ih h.2⟩

theorem mapSorted_insert {lo : Option Nat} {m : Map α} (k : Nat) (v : α) (h : mapSorted lo m = true)
    (hk : ∀ l, lo = some l → l < k) : mapSorted lo (mapInsert m k v) = true := by
  induction m generalizing lo with
  | nil => cases lo <;> simp_all [mapInsert, mapSorted]
  | cons e m ih =>
    obtain ⟨j, w⟩ := e
    rw [mapSorted_cons] at h
    unfold mapInsert
    split
    · next h1 =>
      rw [mapSorted_cons]
      refine ⟨hk, ?_⟩
      rw [mapSorted_cons]
      exact ⟨fun l hl => by cases hl; exact h1, h.2⟩
    · split
      · next h1 =>
        subst h1
        rw [mapSorted_cons]
        exact ⟨hk, h.2⟩
      · next h1 h2 =>
        rw [mapSorted_cons]
        refine ⟨h.1, ih h.2 ?_⟩
        intro l hl
        cases hl
        omega

theorem mem_mapErase {m : Map α} {k : Nat} {e : Nat × α} (h : e ∈ mapErase m k) : e ∈ m := by
  induction m with
  | nil => exact h
  | cons x m ih =>
    obtain ⟨j, v⟩ := x
    unfold mapErase at h
    split at h
    · exact List.mem_cons_of_mem _ (ih h)
    · rcases List.mem_cons.1 h with rfl | h
      · exact List.mem_cons_self
      · exact List.mem_cons_of_mem _ (ih h)

theorem mem_mapInsert {m : Map α} {k : Nat} {v : α} {e : Nat × α} (h : e ∈ mapInsert m k v) : e = (k, v) ∨ e ∈ m := by
  induction m with
  | nil => simpa [mapInsert] using h
  | cons x m ih =>
    obtain ⟨j, w⟩ := x
    unfold mapInsert at h
    split at h
    · simpa using h
    · split at h
      · rcases List.mem_cons.1 h with rfl | h
        · exact .inl rfl
        · exact .inr (List.mem_cons_of_mem _ h)
      · rcases List.mem_cons.1 h with rfl | h
        · exact .inr List.mem_cons_self
        · rcases ih h with h | h
          · exact .inl h
          · exact .inr (List.mem_cons_of_mem _ h)

theorem mapWf_nil [DecidableEq α] (d : Nat → α) : mapWf d [] = true := rfl

/-- A write keeps the canonical form. -/
theorem mapWf_mapSet [DecidableEq α] (d : Nat → α) {m : Map α} (k : Nat) (v : α) (h : mapWf d m = true) :
    mapWf d (mapSet d m k v) = true := by
  unfold mapWf at h ⊢
  simp only [Bool.and_eq_true, List.all_eq_true, decide_eq_true_eq] at h ⊢
  unfold mapSet
  split
  · exact ⟨mapSorted_erase k h.1, fun e he => h.2 e (mem_mapErase he)⟩
  · next hv =>
    refine ⟨mapSorted_insert k v h.1 (by simp), fun e he => ?_⟩
    rcases mem_mapInsert he with rfl | he
    · exact hv
    · exact h.2 e he

/-! ### Byte memory -/

@[simp] theorem memRead_memWrite_same (m : Memory) (a : Nat) (b : Byte) : memRead (memWrite m a b) a = b := by
  simp [memRead, memWrite]

theorem memRead_memWrite_other (m : Memory) {a x : Nat} (b : Byte) (h : x ≠ a) : memRead (memWrite m a b) x = memRead m x :=
  mapGet_mapSet_other _ _ _ h

theorem memWrite_wf {m : Memory} (a : Nat) (b : Byte) (h : Memory.wf m = true) : Memory.wf (memWrite m a b) = true :=
  mapWf_mapSet _ _ _ h

/-- Every write of a run of bytes keeps the canonical form. -/
theorem memWriteN_wf {m : Memory} (a : Nat) (l : List Byte) (h : Memory.wf m = true) : Memory.wf (memWriteN m a l) = true := by
  induction l generalizing m a with
  | nil => exact h
  | cons b l ih => exact ih (a + 1) (memWrite_wf a b h)

/-- Every write of a little-endian number keeps the canonical form. -/
theorem memPutLe_wf {m : Memory} (a n v : Nat) (h : Memory.wf m = true) : Memory.wf (memPutLe m a n v) = true :=
  memWriteN_wf _ _ h

/-- A run of bytes written at `a` leaves every byte outside it as it was. -/
theorem memRead_memWriteN_outside (m : Memory) (a : Nat) (l : List Byte) {x : Nat} (h : x < a ∨ a + l.length ≤ x) :
    memRead (memWriteN m a l) x = memRead m x := by
  induction l generalizing m a with
  | nil => rfl
  | cons b l ih =>
    simp only [List.length_cons] at h
    have h1 : memRead (memWriteN (memWrite m a b) (a + 1) l) x = memRead (memWrite m a b) x := ih _ _ (by omega)
    exact h1.trans (memRead_memWrite_other m b (by omega))

/-- A run of bytes written at `a` reads back byte by byte. -/
theorem memRead_memWriteN_inside (m : Memory) (a : Nat) (l : List Byte) (i : Nat) (h : i < l.length) :
    memRead (memWriteN m a l) (a + i) = l[i] := by
  induction l generalizing m a i with
  | nil => simp at h
  | cons b l ih =>
    cases i with
    | zero =>
      have h1 := memRead_memWriteN_outside (memWrite m a b) (a + 1) l (x := a) (by omega)
      exact h1.trans (memRead_memWrite_same m a b)
    | succ i =>
      have h1 := ih (memWrite m a b) (a + 1) i (by simpa using h)
      have h2 : a + (i + 1) = a + 1 + i := by omega
      rw [h2]
      exact h1

end Sys2Proof.Machine
end

