-- ==== Sys2Proof/Laws/State.lean ====
section
/-! SUPPORT. One lemma per field per update of the state: what each named update leaves alone, true by unfolding, and what it
reads back. The changing forms (updPage and the like) rewrite to the putting forms, which are the normal form. -/

namespace Sys2Proof.Machine

variable (c : Chip)

/-! ### The whole state -/

@[simp] theorem State.chip_update (s : State) (x : Chip) : ({ s with chip := x } : State).chip = x := rfl
@[simp] theorem State.tap_update (s : State) (x : Tap) : ({ s with tap := x } : State).tap = x := rfl
@[simp] theorem State.sled_update (s : State) (x : Sled) : ({ s with sled := x } : State).sled = x := rfl
@[simp] theorem State.shelf_update (s : State) (x : Shelf) : ({ s with shelf := x } : State).shelf = x := rfl

/-! ### Changing forms rewrite to putting forms -/

@[simp] theorem Chip.updPage_eq (n : Nat) (f : Page → Page) : c.updPage n f = c.putPage n (f (c.page n)) := rfl
@[simp] theorem Chip.raise_eq (n i : Nat) : c.raise n i = c.putPage n ((c.page n).raise i) := rfl
@[simp] theorem Chip.count_eq (n off k : Nat) : c.count n off k = c.putPage n ((c.page n).cntSat off k) := rfl
@[simp] theorem Chip.countWrap_eq (n off k : Nat) : c.countWrap n off k = c.putPage n ((c.page n).cntWrap off k) := rfl
@[simp] theorem Chip.updTile_eq (k : Nat) (f : Tile → Tile) : c.updTile k f = c.putTile k (f (c.tile k)) := rfl
@[simp] theorem Chip.updDom_eq (n : Nat) (f : DomRec → DomRec) : c.updDom n f = c.putDom n (f (c.dom n)) := rfl
@[simp] theorem Chip.updDie_eq (d : Nat) (f : DieRec → DieRec) : c.updDie d f = c.putDie d (f (c.die d)) := rfl
@[simp] theorem Chip.updPast_eq (p : Nat) (f : Past → Past) : c.updPast p f = c.putPast p (f (c.past p)) := rfl
@[simp] theorem Chip.updUnit_eq (u : Nat) (f : UnitRec → UnitRec) : c.updUnit u f = c.putUnit u (f (c.unit u)) := rfl
@[simp] theorem Chip.updEntry_eq (e : Nat) (f : SbEntry → SbEntry) : c.updEntry e f = c.putEntry e (f (c.entry e)) := rfl
@[simp] theorem Chip.updCtx_eq (q : Nat) (f : Ctx → Ctx) : c.updCtx q f = c.putCtx q (f (c.ctx q)) := rfl
@[simp] theorem Chip.updLink_eq (k : Nat) (f : Link → Link) : c.updLink k f = c.putLink k (f (c.link k)) := rfl

/-! ### What a put reads back -/

theorem Chip.page_putPage (n j : Nat) (p : Page) : (c.putPage n p).page j = if j = n then p else c.page j := mapGet_mapSet _ _ _ _ _
@[simp] theorem Chip.page_putPage_same (n : Nat) (p : Page) : (c.putPage n p).page n = p := mapGet_mapSet_same _ _ _ _
theorem Chip.tile_putTile (k j : Nat) (t : Tile) : (c.putTile k t).tile j = if j = k then t else c.tile j := mapGet_mapSet _ _ _ _ _
@[simp] theorem Chip.tile_putTile_same (k : Nat) (t : Tile) : (c.putTile k t).tile k = t := mapGet_mapSet_same _ _ _ _
theorem Chip.dom_putDom (n j : Nat) (d : DomRec) : (c.putDom n d).dom j = if j = n then d else c.dom j := mapGet_mapSet _ _ _ _ _
@[simp] theorem Chip.dom_putDom_same (n : Nat) (d : DomRec) : (c.putDom n d).dom n = d := mapGet_mapSet_same _ _ _ _
theorem Chip.past_putPast (p j : Nat) (x : Past) : (c.putPast p x).past j = if j = p then x else c.past j := mapGet_mapSet _ _ _ _ _
@[simp] theorem Chip.past_putPast_same (p : Nat) (x : Past) : (c.putPast p x).past p = x := mapGet_mapSet_same _ _ _ _
theorem Chip.unit_putUnit (u j : Nat) (x : UnitRec) : (c.putUnit u x).unit j = if j = u then x else c.unit j := mapGet_mapSet _ _ _ _ _
@[simp] theorem Chip.unit_putUnit_same (u : Nat) (x : UnitRec) : (c.putUnit u x).unit u = x := mapGet_mapSet_same _ _ _ _
theorem Chip.entry_putEntry (e j : Nat) (x : SbEntry) : (c.putEntry e x).entry j = if j = e then x else c.entry j := mapGet_mapSet _ _ _ _ _
@[simp] theorem Chip.entry_putEntry_same (e : Nat) (x : SbEntry) : (c.putEntry e x).entry e = x := mapGet_mapSet_same _ _ _ _
theorem Chip.ctx_putCtx (q j : Nat) (x : Ctx) : (c.putCtx q x).ctx j = if j = q then x else c.ctx j := mapGet_mapSet _ _ _ _ _
@[simp] theorem Chip.ctx_putCtx_same (q : Nat) (x : Ctx) : (c.putCtx q x).ctx q = x := mapGet_mapSet_same _ _ _ _
theorem Chip.obj_putObj (o j : Nat) (x : SyncObj) : (c.putObj o x).obj j = if j = o then x else c.obj j := mapGet_mapSet _ _ _ _ _
@[simp] theorem Chip.obj_putObj_same (o : Nat) (x : SyncObj) : (c.putObj o x).obj o = x := mapGet_mapSet_same _ _ _ _
theorem Chip.coreDom_setCoreDom (k j : Nat) (d : DomState) : (c.setCoreDom k d).coreDom j = if j = k then d else c.coreDom j := mapGet_mapSet _ _ _ _ _
@[simp] theorem Chip.coreDom_setCoreDom_same (k : Nat) (d : DomState) : (c.setCoreDom k d).coreDom k = d := mapGet_mapSet_same _ _ _ _
theorem Chip.routerDom_setRouterDom (k j : Nat) (d : DomState) : (c.setRouterDom k d).routerDom j = if j = k then d else c.routerDom j := mapGet_mapSet _ _ _ _ _
@[simp] theorem Chip.routerDom_setRouterDom_same (k : Nat) (d : DomState) : (c.setRouterDom k d).routerDom k = d := mapGet_mapSet_same _ _ _ _

/-! ### Fields left alone -/

@[simp] theorem Chip.putPage_fuses (n : Nat) (p : Page) : (c.putPage n p).fuses = c.fuses := rfl
@[simp] theorem Chip.putPage_rtc (n : Nat) (p : Page) : (c.putPage n p).rtc = c.rtc := rfl
@[simp] theorem Chip.putPage_now (n : Nat) (p : Page) : (c.putPage n p).now = c.now := rfl
@[simp] theorem Chip.putPage_latches (n : Nat) (p : Page) : (c.putPage n p).latches = c.latches := rfl
@[simp] theorem Chip.putPage_routes (n : Nat) (p : Page) : (c.putPage n p).routes = c.routes := rfl
@[simp] theorem Chip.putPage_wakeCounts (n : Nat) (p : Page) : (c.putPage n p).wakeCounts = c.wakeCounts := rfl
@[simp] theorem Chip.putPage_next (n : Nat) (p : Page) : (c.putPage n p).next = c.next := rfl
@[simp] theorem Chip.putPage_nv (n : Nat) (p : Page) : (c.putPage n p).nv = c.nv := rfl
@[simp] theorem Chip.putPage_held (n : Nat) (p : Page) : (c.putPage n p).held = c.held := rfl
@[simp] theorem Chip.putPage_porLow (n : Nat) (p : Page) : (c.putPage n p).porLow = c.porLow := rfl
@[simp] theorem Chip.putPage_railsOut (n : Nat) (p : Page) : (c.putPage n p).railsOut = c.railsOut := rfl
@[simp] theorem Chip.putPage_pins (n : Nat) (p : Page) : (c.putPage n p).pins = c.pins := rfl
@[simp] theorem Chip.putPage_thermTrip (n : Nat) (p : Page) : (c.putPage n p).thermTrip = c.thermTrip := rfl
@[simp] theorem Chip.putPage_tiles (n : Nat) (p : Page) : (c.putPage n p).tiles = c.tiles := rfl
@[simp] theorem Chip.putPage_commons (n : Nat) (p : Page) : (c.putPage n p).commons = c.commons := rfl
@[simp] theorem Chip.putPage_crookBank (n : Nat) (p : Page) : (c.putPage n p).crookBank = c.crookBank := rfl
@[simp] theorem Chip.putPage_streamBanks (n : Nat) (p : Page) : (c.putPage n p).streamBanks = c.streamBanks := rfl
@[simp] theorem Chip.putPage_coreDoms (n : Nat) (p : Page) : (c.putPage n p).coreDoms = c.coreDoms := rfl
@[simp] theorem Chip.putPage_routerDoms (n : Nat) (p : Page) : (c.putPage n p).routerDoms = c.routerDoms := rfl
@[simp] theorem Chip.putPage_doms (n : Nat) (p : Page) : (c.putPage n p).doms = c.doms := rfl
@[simp] theorem Chip.putPage_wakes (n : Nat) (p : Page) : (c.putPage n p).wakes = c.wakes := rfl
@[simp] theorem Chip.putPage_heldWakes (n : Nat) (p : Page) : (c.putPage n p).heldWakes = c.heldWakes := rfl
@[simp] theorem Chip.putPage_dies (n : Nat) (p : Page) : (c.putPage n p).dies = c.dies := rfl
@[simp] theorem Chip.putPage_vlinks (n : Nat) (p : Page) : (c.putPage n p).vlinks = c.vlinks := rfl
@[simp] theorem Chip.putPage_gate (n : Nat) (p : Page) : (c.putPage n p).gate = c.gate := rfl
@[simp] theorem Chip.putPage_host (n : Nat) (p : Page) : (c.putPage n p).host = c.host := rfl
@[simp] theorem Chip.putPage_reads (n : Nat) (p : Page) : (c.putPage n p).reads = c.reads := rfl
@[simp] theorem Chip.putPage_streams (n : Nat) (p : Page) : (c.putPage n p).streams = c.streams := rfl
@[simp] theorem Chip.putPage_aers (n : Nat) (p : Page) : (c.putPage n p).aers = c.aers := rfl
@[simp] theorem Chip.putPage_links (n : Nat) (p : Page) : (c.putPage n p).links = c.links := rfl
@[simp] theorem Chip.putPage_lsmap (n : Nat) (p : Page) : (c.putPage n p).lsmap = c.lsmap := rfl
@[simp] theorem Chip.putPage_crook (n : Nat) (p : Page) : (c.putPage n p).crook = c.crook := rfl
@[simp] theorem Chip.putPage_dbgLock (n : Nat) (p : Page) : (c.putPage n p).dbgLock = c.dbgLock := rfl
@[simp] theorem Chip.putPage_ctxs (n : Nat) (p : Page) : (c.putPage n p).ctxs = c.ctxs := rfl
@[simp] theorem Chip.putPage_sb (n : Nat) (p : Page) : (c.putPage n p).sb = c.sb := rfl
@[simp] theorem Chip.putPage_fetched (n : Nat) (p : Page) : (c.putPage n p).fetched = c.fetched := rfl
@[simp] theorem Chip.putPage_readied (n : Nat) (p : Page) : (c.putPage n p).readied = c.readied := rfl
@[simp] theorem Chip.putPage_objs (n : Nat) (p : Page) : (c.putPage n p).objs = c.objs := rfl
@[simp] theorem Chip.putPage_channels (n : Nat) (p : Page) : (c.putPage n p).channels = c.channels := rfl
@[simp] theorem Chip.putPage_pools (n : Nat) (p : Page) : (c.putPage n p).pools = c.pools := rfl
@[simp] theorem Chip.putPage_pasts (n : Nat) (p : Page) : (c.putPage n p).pasts = c.pasts := rfl
@[simp] theorem Chip.putPage_sliceQ (n : Nat) (p : Page) : (c.putPage n p).sliceQ = c.sliceQ := rfl
@[simp] theorem Chip.putPage_ladders (n : Nat) (p : Page) : (c.putPage n p).ladders = c.ladders := rfl
@[simp] theorem Chip.putPage_merge (n : Nat) (p : Page) : (c.putPage n p).merge = c.merge := rfl
@[simp] theorem Chip.putPage_units (n : Nat) (p : Page) : (c.putPage n p).units = c.units := rfl
@[simp] theorem Chip.putPage_disagree (n : Nat) (p : Page) : (c.putPage n p).disagree = c.disagree := rfl
@[simp] theorem Chip.putPage_clearings (n : Nat) (p : Page) : (c.putPage n p).clearings = c.clearings := rfl
@[simp] theorem Chip.putPage_inFlight (n : Nat) (p : Page) : (c.putPage n p).inFlight = c.inFlight := rfl
@[simp] theorem Chip.putPage_leaving (n : Nat) (p : Page) : (c.putPage n p).leaving = c.leaving := rfl
@[simp] theorem Chip.putPage_answer (n : Nat) (p : Page) : (c.putPage n p).answer = c.answer := rfl
@[simp] theorem Chip.putPage_free (n : Nat) (p : Page) : (c.putPage n p).free = c.free := rfl
@[simp] theorem Chip.putTile_fuses (k : Nat) (t : Tile) : (c.putTile k t).fuses = c.fuses := rfl
@[simp] theorem Chip.putTile_rtc (k : Nat) (t : Tile) : (c.putTile k t).rtc = c.rtc := rfl
@[simp] theorem Chip.putTile_now (k : Nat) (t : Tile) : (c.putTile k t).now = c.now := rfl
@[simp] theorem Chip.putTile_latches (k : Nat) (t : Tile) : (c.putTile k t).latches = c.latches := rfl
@[simp] theorem Chip.putTile_routes (k : Nat) (t : Tile) : (c.putTile k t).routes = c.routes := rfl
@[simp] theorem Chip.putTile_wakeCounts (k : Nat) (t : Tile) : (c.putTile k t).wakeCounts = c.wakeCounts := rfl
@[simp] theorem Chip.putTile_next (k : Nat) (t : Tile) : (c.putTile k t).next = c.next := rfl
@[simp] theorem Chip.putTile_nv (k : Nat) (t : Tile) : (c.putTile k t).nv = c.nv := rfl
@[simp] theorem Chip.putTile_held (k : Nat) (t : Tile) : (c.putTile k t).held = c.held := rfl
@[simp] theorem Chip.putTile_porLow (k : Nat) (t : Tile) : (c.putTile k t).porLow = c.porLow := rfl
@[simp] theorem Chip.putTile_railsOut (k : Nat) (t : Tile) : (c.putTile k t).railsOut = c.railsOut := rfl
@[simp] theorem Chip.putTile_pins (k : Nat) (t : Tile) : (c.putTile k t).pins = c.pins := rfl
@[simp] theorem Chip.putTile_thermTrip (k : Nat) (t : Tile) : (c.putTile k t).thermTrip = c.thermTrip := rfl
@[simp] theorem Chip.putTile_pages (k : Nat) (t : Tile) : (c.putTile k t).pages = c.pages := rfl
@[simp] theorem Chip.putTile_commons (k : Nat) (t : Tile) : (c.putTile k t).commons = c.commons := rfl
@[simp] theorem Chip.putTile_crookBank (k : Nat) (t : Tile) : (c.putTile k t).crookBank = c.crookBank := rfl
@[simp] theorem Chip.putTile_streamBanks (k : Nat) (t : Tile) : (c.putTile k t).streamBanks = c.streamBanks := rfl
@[simp] theorem Chip.putTile_coreDoms (k : Nat) (t : Tile) : (c.putTile k t).coreDoms = c.coreDoms := rfl
@[simp] theorem Chip.putTile_routerDoms (k : Nat) (t : Tile) : (c.putTile k t).routerDoms = c.routerDoms := rfl
@[simp] theorem Chip.putTile_doms (k : Nat) (t : Tile) : (c.putTile k t).doms = c.doms := rfl
@[simp] theorem Chip.putTile_wakes (k : Nat) (t : Tile) : (c.putTile k t).wakes = c.wakes := rfl
@[simp] theorem Chip.putTile_heldWakes (k : Nat) (t : Tile) : (c.putTile k t).heldWakes = c.heldWakes := rfl
@[simp] theorem Chip.putTile_dies (k : Nat) (t : Tile) : (c.putTile k t).dies = c.dies := rfl
@[simp] theorem Chip.putTile_vlinks (k : Nat) (t : Tile) : (c.putTile k t).vlinks = c.vlinks := rfl
@[simp] theorem Chip.putTile_gate (k : Nat) (t : Tile) : (c.putTile k t).gate = c.gate := rfl
@[simp] theorem Chip.putTile_host (k : Nat) (t : Tile) : (c.putTile k t).host = c.host := rfl
@[simp] theorem Chip.putTile_reads (k : Nat) (t : Tile) : (c.putTile k t).reads = c.reads := rfl
@[simp] theorem Chip.putTile_streams (k : Nat) (t : Tile) : (c.putTile k t).streams = c.streams := rfl
@[simp] theorem Chip.putTile_aers (k : Nat) (t : Tile) : (c.putTile k t).aers = c.aers := rfl
@[simp] theorem Chip.putTile_links (k : Nat) (t : Tile) : (c.putTile k t).links = c.links := rfl
@[simp] theorem Chip.putTile_lsmap (k : Nat) (t : Tile) : (c.putTile k t).lsmap = c.lsmap := rfl
@[simp] theorem Chip.putTile_crook (k : Nat) (t : Tile) : (c.putTile k t).crook = c.crook := rfl
@[simp] theorem Chip.putTile_dbgLock (k : Nat) (t : Tile) : (c.putTile k t).dbgLock = c.dbgLock := rfl
@[simp] theorem Chip.putTile_ctxs (k : Nat) (t : Tile) : (c.putTile k t).ctxs = c.ctxs := rfl
@[simp] theorem Chip.putTile_sb (k : Nat) (t : Tile) : (c.putTile k t).sb = c.sb := rfl
@[simp] theorem Chip.putTile_fetched (k : Nat) (t : Tile) : (c.putTile k t).fetched = c.fetched := rfl
@[simp] theorem Chip.putTile_readied (k : Nat) (t : Tile) : (c.putTile k t).readied = c.readied := rfl
@[simp] theorem Chip.putTile_objs (k : Nat) (t : Tile) : (c.putTile k t).objs = c.objs := rfl
@[simp] theorem Chip.putTile_channels (k : Nat) (t : Tile) : (c.putTile k t).channels = c.channels := rfl
@[simp] theorem Chip.putTile_pools (k : Nat) (t : Tile) : (c.putTile k t).pools = c.pools := rfl
@[simp] theorem Chip.putTile_pasts (k : Nat) (t : Tile) : (c.putTile k t).pasts = c.pasts := rfl
@[simp] theorem Chip.putTile_sliceQ (k : Nat) (t : Tile) : (c.putTile k t).sliceQ = c.sliceQ := rfl
@[simp] theorem Chip.putTile_ladders (k : Nat) (t : Tile) : (c.putTile k t).ladders = c.ladders := rfl
@[simp] theorem Chip.putTile_merge (k : Nat) (t : Tile) : (c.putTile k t).merge = c.merge := rfl
@[simp] theorem Chip.putTile_units (k : Nat) (t : Tile) : (c.putTile k t).units = c.units := rfl
@[simp] theorem Chip.putTile_disagree (k : Nat) (t : Tile) : (c.putTile k t).disagree = c.disagree := rfl
@[simp] theorem Chip.putTile_clearings (k : Nat) (t : Tile) : (c.putTile k t).clearings = c.clearings := rfl
@[simp] theorem Chip.putTile_inFlight (k : Nat) (t : Tile) : (c.putTile k t).inFlight = c.inFlight := rfl
@[simp] theorem Chip.putTile_leaving (k : Nat) (t : Tile) : (c.putTile k t).leaving = c.leaving := rfl
@[simp] theorem Chip.putTile_answer (k : Nat) (t : Tile) : (c.putTile k t).answer = c.answer := rfl
@[simp] theorem Chip.putTile_free (k : Nat) (t : Tile) : (c.putTile k t).free = c.free := rfl
@[simp] theorem Chip.putDom_fuses (n : Nat) (d : DomRec) : (c.putDom n d).fuses = c.fuses := rfl
@[simp] theorem Chip.putDom_rtc (n : Nat) (d : DomRec) : (c.putDom n d).rtc = c.rtc := rfl
@[simp] theorem Chip.putDom_now (n : Nat) (d : DomRec) : (c.putDom n d).now = c.now := rfl
@[simp] theorem Chip.putDom_latches (n : Nat) (d : DomRec) : (c.putDom n d).latches = c.latches := rfl
@[simp] theorem Chip.putDom_routes (n : Nat) (d : DomRec) : (c.putDom n d).routes = c.routes := rfl
@[simp] theorem Chip.putDom_wakeCounts (n : Nat) (d : DomRec) : (c.putDom n d).wakeCounts = c.wakeCounts := rfl
@[simp] theorem Chip.putDom_next (n : Nat) (d : DomRec) : (c.putDom n d).next = c.next := rfl
@[simp] theorem Chip.putDom_nv (n : Nat) (d : DomRec) : (c.putDom n d).nv = c.nv := rfl
@[simp] theorem Chip.putDom_held (n : Nat) (d : DomRec) : (c.putDom n d).held = c.held := rfl
@[simp] theorem Chip.putDom_porLow (n : Nat) (d : DomRec) : (c.putDom n d).porLow = c.porLow := rfl
@[simp] theorem Chip.putDom_railsOut (n : Nat) (d : DomRec) : (c.putDom n d).railsOut = c.railsOut := rfl
@[simp] theorem Chip.putDom_pins (n : Nat) (d : DomRec) : (c.putDom n d).pins = c.pins := rfl
@[simp] theorem Chip.putDom_thermTrip (n : Nat) (d : DomRec) : (c.putDom n d).thermTrip = c.thermTrip := rfl
@[simp] theorem Chip.putDom_pages (n : Nat) (d : DomRec) : (c.putDom n d).pages = c.pages := rfl
@[simp] theorem Chip.putDom_tiles (n : Nat) (d : DomRec) : (c.putDom n d).tiles = c.tiles := rfl
@[simp] theorem Chip.putDom_commons (n : Nat) (d : DomRec) : (c.putDom n d).commons = c.commons := rfl
@[simp] theorem Chip.putDom_crookBank (n : Nat) (d : DomRec) : (c.putDom n d).crookBank = c.crookBank := rfl
@[simp] theorem Chip.putDom_streamBanks (n : Nat) (d : DomRec) : (c.putDom n d).streamBanks = c.streamBanks := rfl
@[simp] theorem Chip.putDom_coreDoms (n : Nat) (d : DomRec) : (c.putDom n d).coreDoms = c.coreDoms := rfl
@[simp] theorem Chip.putDom_routerDoms (n : Nat) (d : DomRec) : (c.putDom n d).routerDoms = c.routerDoms := rfl
@[simp] theorem Chip.putDom_wakes (n : Nat) (d : DomRec) : (c.putDom n d).wakes = c.wakes := rfl
@[simp] theorem Chip.putDom_heldWakes (n : Nat) (d : DomRec) : (c.putDom n d).heldWakes = c.heldWakes := rfl
@[simp] theorem Chip.putDom_dies (n : Nat) (d : DomRec) : (c.putDom n d).dies = c.dies := rfl
@[simp] theorem Chip.putDom_vlinks (n : Nat) (d : DomRec) : (c.putDom n d).vlinks = c.vlinks := rfl
@[simp] theorem Chip.putDom_gate (n : Nat) (d : DomRec) : (c.putDom n d).gate = c.gate := rfl
@[simp] theorem Chip.putDom_host (n : Nat) (d : DomRec) : (c.putDom n d).host = c.host := rfl
@[simp] theorem Chip.putDom_reads (n : Nat) (d : DomRec) : (c.putDom n d).reads = c.reads := rfl
@[simp] theorem Chip.putDom_streams (n : Nat) (d : DomRec) : (c.putDom n d).streams = c.streams := rfl
@[simp] theorem Chip.putDom_aers (n : Nat) (d : DomRec) : (c.putDom n d).aers = c.aers := rfl
@[simp] theorem Chip.putDom_links (n : Nat) (d : DomRec) : (c.putDom n d).links = c.links := rfl
@[simp] theorem Chip.putDom_lsmap (n : Nat) (d : DomRec) : (c.putDom n d).lsmap = c.lsmap := rfl
@[simp] theorem Chip.putDom_crook (n : Nat) (d : DomRec) : (c.putDom n d).crook = c.crook := rfl
@[simp] theorem Chip.putDom_dbgLock (n : Nat) (d : DomRec) : (c.putDom n d).dbgLock = c.dbgLock := rfl
@[simp] theorem Chip.putDom_ctxs (n : Nat) (d : DomRec) : (c.putDom n d).ctxs = c.ctxs := rfl
@[simp] theorem Chip.putDom_sb (n : Nat) (d : DomRec) : (c.putDom n d).sb = c.sb := rfl
@[simp] theorem Chip.putDom_fetched (n : Nat) (d : DomRec) : (c.putDom n d).fetched = c.fetched := rfl
@[simp] theorem Chip.putDom_readied (n : Nat) (d : DomRec) : (c.putDom n d).readied = c.readied := rfl
@[simp] theorem Chip.putDom_objs (n : Nat) (d : DomRec) : (c.putDom n d).objs = c.objs := rfl
@[simp] theorem Chip.putDom_channels (n : Nat) (d : DomRec) : (c.putDom n d).channels = c.channels := rfl
@[simp] theorem Chip.putDom_pools (n : Nat) (d : DomRec) : (c.putDom n d).pools = c.pools := rfl
@[simp] theorem Chip.putDom_pasts (n : Nat) (d : DomRec) : (c.putDom n d).pasts = c.pasts := rfl
@[simp] theorem Chip.putDom_sliceQ (n : Nat) (d : DomRec) : (c.putDom n d).sliceQ = c.sliceQ := rfl
@[simp] theorem Chip.putDom_ladders (n : Nat) (d : DomRec) : (c.putDom n d).ladders = c.ladders := rfl
@[simp] theorem Chip.putDom_merge (n : Nat) (d : DomRec) : (c.putDom n d).merge = c.merge := rfl
@[simp] theorem Chip.putDom_units (n : Nat) (d : DomRec) : (c.putDom n d).units = c.units := rfl
@[simp] theorem Chip.putDom_disagree (n : Nat) (d : DomRec) : (c.putDom n d).disagree = c.disagree := rfl
@[simp] theorem Chip.putDom_clearings (n : Nat) (d : DomRec) : (c.putDom n d).clearings = c.clearings := rfl
@[simp] theorem Chip.putDom_inFlight (n : Nat) (d : DomRec) : (c.putDom n d).inFlight = c.inFlight := rfl
@[simp] theorem Chip.putDom_leaving (n : Nat) (d : DomRec) : (c.putDom n d).leaving = c.leaving := rfl
@[simp] theorem Chip.putDom_answer (n : Nat) (d : DomRec) : (c.putDom n d).answer = c.answer := rfl
@[simp] theorem Chip.putDom_free (n : Nat) (d : DomRec) : (c.putDom n d).free = c.free := rfl
@[simp] theorem Chip.setCoreDom_fuses (k : Nat) (d : DomState) : (c.setCoreDom k d).fuses = c.fuses := rfl
@[simp] theorem Chip.setCoreDom_rtc (k : Nat) (d : DomState) : (c.setCoreDom k d).rtc = c.rtc := rfl
@[simp] theorem Chip.setCoreDom_now (k : Nat) (d : DomState) : (c.setCoreDom k d).now = c.now := rfl
@[simp] theorem Chip.setCoreDom_latches (k : Nat) (d : DomState) : (c.setCoreDom k d).latches = c.latches := rfl
@[simp] theorem Chip.setCoreDom_routes (k : Nat) (d : DomState) : (c.setCoreDom k d).routes = c.routes := rfl
@[simp] theorem Chip.setCoreDom_wakeCounts (k : Nat) (d : DomState) : (c.setCoreDom k d).wakeCounts = c.wakeCounts := rfl
@[simp] theorem Chip.setCoreDom_next (k : Nat) (d : DomState) : (c.setCoreDom k d).next = c.next := rfl
@[simp] theorem Chip.setCoreDom_nv (k : Nat) (d : DomState) : (c.setCoreDom k d).nv = c.nv := rfl
@[simp] theorem Chip.setCoreDom_held (k : Nat) (d : DomState) : (c.setCoreDom k d).held = c.held := rfl
@[simp] theorem Chip.setCoreDom_porLow (k : Nat) (d : DomState) : (c.setCoreDom k d).porLow = c.porLow := rfl
@[simp] theorem Chip.setCoreDom_railsOut (k : Nat) (d : DomState) : (c.setCoreDom k d).railsOut = c.railsOut := rfl
@[simp] theorem Chip.setCoreDom_pins (k : Nat) (d : DomState) : (c.setCoreDom k d).pins = c.pins := rfl
@[simp] theorem Chip.setCoreDom_thermTrip (k : Nat) (d : DomState) : (c.setCoreDom k d).thermTrip = c.thermTrip := rfl
@[simp] theorem Chip.setCoreDom_pages (k : Nat) (d : DomState) : (c.setCoreDom k d).pages = c.pages := rfl
@[simp] theorem Chip.setCoreDom_tiles (k : Nat) (d : DomState) : (c.setCoreDom k d).tiles = c.tiles := rfl
@[simp] theorem Chip.setCoreDom_commons (k : Nat) (d : DomState) : (c.setCoreDom k d).commons = c.commons := rfl
@[simp] theorem Chip.setCoreDom_crookBank (k : Nat) (d : DomState) : (c.setCoreDom k d).crookBank = c.crookBank := rfl
@[simp] theorem Chip.setCoreDom_streamBanks (k : Nat) (d : DomState) : (c.setCoreDom k d).streamBanks = c.streamBanks := rfl
@[simp] theorem Chip.setCoreDom_routerDoms (k : Nat) (d : DomState) : (c.setCoreDom k d).routerDoms = c.routerDoms := rfl
@[simp] theorem Chip.setCoreDom_doms (k : Nat) (d : DomState) : (c.setCoreDom k d).doms = c.doms := rfl
@[simp] theorem Chip.setCoreDom_wakes (k : Nat) (d : DomState) : (c.setCoreDom k d).wakes = c.wakes := rfl
@[simp] theorem Chip.setCoreDom_heldWakes (k : Nat) (d : DomState) : (c.setCoreDom k d).heldWakes = c.heldWakes := rfl
@[simp] theorem Chip.setCoreDom_dies (k : Nat) (d : DomState) : (c.setCoreDom k d).dies = c.dies := rfl
@[simp] theorem Chip.setCoreDom_vlinks (k : Nat) (d : DomState) : (c.setCoreDom k d).vlinks = c.vlinks := rfl
@[simp] theorem Chip.setCoreDom_gate (k : Nat) (d : DomState) : (c.setCoreDom k d).gate = c.gate := rfl
@[simp] theorem Chip.setCoreDom_host (k : Nat) (d : DomState) : (c.setCoreDom k d).host = c.host := rfl
@[simp] theorem Chip.setCoreDom_reads (k : Nat) (d : DomState) : (c.setCoreDom k d).reads = c.reads := rfl
@[simp] theorem Chip.setCoreDom_streams (k : Nat) (d : DomState) : (c.setCoreDom k d).streams = c.streams := rfl
@[simp] theorem Chip.setCoreDom_aers (k : Nat) (d : DomState) : (c.setCoreDom k d).aers = c.aers := rfl
@[simp] theorem Chip.setCoreDom_links (k : Nat) (d : DomState) : (c.setCoreDom k d).links = c.links := rfl
@[simp] theorem Chip.setCoreDom_lsmap (k : Nat) (d : DomState) : (c.setCoreDom k d).lsmap = c.lsmap := rfl
@[simp] theorem Chip.setCoreDom_crook (k : Nat) (d : DomState) : (c.setCoreDom k d).crook = c.crook := rfl
@[simp] theorem Chip.setCoreDom_dbgLock (k : Nat) (d : DomState) : (c.setCoreDom k d).dbgLock = c.dbgLock := rfl
@[simp] theorem Chip.setCoreDom_ctxs (k : Nat) (d : DomState) : (c.setCoreDom k d).ctxs = c.ctxs := rfl
@[simp] theorem Chip.setCoreDom_sb (k : Nat) (d : DomState) : (c.setCoreDom k d).sb = c.sb := rfl
@[simp] theorem Chip.setCoreDom_fetched (k : Nat) (d : DomState) : (c.setCoreDom k d).fetched = c.fetched := rfl
@[simp] theorem Chip.setCoreDom_readied (k : Nat) (d : DomState) : (c.setCoreDom k d).readied = c.readied := rfl
@[simp] theorem Chip.setCoreDom_objs (k : Nat) (d : DomState) : (c.setCoreDom k d).objs = c.objs := rfl
@[simp] theorem Chip.setCoreDom_channels (k : Nat) (d : DomState) : (c.setCoreDom k d).channels = c.channels := rfl
@[simp] theorem Chip.setCoreDom_pools (k : Nat) (d : DomState) : (c.setCoreDom k d).pools = c.pools := rfl
@[simp] theorem Chip.setCoreDom_pasts (k : Nat) (d : DomState) : (c.setCoreDom k d).pasts = c.pasts := rfl
@[simp] theorem Chip.setCoreDom_sliceQ (k : Nat) (d : DomState) : (c.setCoreDom k d).sliceQ = c.sliceQ := rfl
@[simp] theorem Chip.setCoreDom_ladders (k : Nat) (d : DomState) : (c.setCoreDom k d).ladders = c.ladders := rfl
@[simp] theorem Chip.setCoreDom_merge (k : Nat) (d : DomState) : (c.setCoreDom k d).merge = c.merge := rfl
@[simp] theorem Chip.setCoreDom_units (k : Nat) (d : DomState) : (c.setCoreDom k d).units = c.units := rfl
@[simp] theorem Chip.setCoreDom_disagree (k : Nat) (d : DomState) : (c.setCoreDom k d).disagree = c.disagree := rfl
@[simp] theorem Chip.setCoreDom_clearings (k : Nat) (d : DomState) : (c.setCoreDom k d).clearings = c.clearings := rfl
@[simp] theorem Chip.setCoreDom_inFlight (k : Nat) (d : DomState) : (c.setCoreDom k d).inFlight = c.inFlight := rfl
@[simp] theorem Chip.setCoreDom_leaving (k : Nat) (d : DomState) : (c.setCoreDom k d).leaving = c.leaving := rfl
@[simp] theorem Chip.setCoreDom_answer (k : Nat) (d : DomState) : (c.setCoreDom k d).answer = c.answer := rfl
@[simp] theorem Chip.setCoreDom_free (k : Nat) (d : DomState) : (c.setCoreDom k d).free = c.free := rfl
@[simp] theorem Chip.setRouterDom_fuses (k : Nat) (d : DomState) : (c.setRouterDom k d).fuses = c.fuses := rfl
@[simp] theorem Chip.setRouterDom_rtc (k : Nat) (d : DomState) : (c.setRouterDom k d).rtc = c.rtc := rfl
@[simp] theorem Chip.setRouterDom_now (k : Nat) (d : DomState) : (c.setRouterDom k d).now = c.now := rfl
@[simp] theorem Chip.setRouterDom_latches (k : Nat) (d : DomState) : (c.setRouterDom k d).latches = c.latches := rfl
@[simp] theorem Chip.setRouterDom_routes (k : Nat) (d : DomState) : (c.setRouterDom k d).routes = c.routes := rfl
@[simp] theorem Chip.setRouterDom_wakeCounts (k : Nat) (d : DomState) : (c.setRouterDom k d).wakeCounts = c.wakeCounts := rfl
@[simp] theorem Chip.setRouterDom_next (k : Nat) (d : DomState) : (c.setRouterDom k d).next = c.next := rfl
@[simp] theorem Chip.setRouterDom_nv (k : Nat) (d : DomState) : (c.setRouterDom k d).nv = c.nv := rfl
@[simp] theorem Chip.setRouterDom_held (k : Nat) (d : DomState) : (c.setRouterDom k d).held = c.held := rfl
@[simp] theorem Chip.setRouterDom_porLow (k : Nat) (d : DomState) : (c.setRouterDom k d).porLow = c.porLow := rfl
@[simp] theorem Chip.setRouterDom_railsOut (k : Nat) (d : DomState) : (c.setRouterDom k d).railsOut = c.railsOut := rfl
@[simp] theorem Chip.setRouterDom_pins (k : Nat) (d : DomState) : (c.setRouterDom k d).pins = c.pins := rfl
@[simp] theorem Chip.setRouterDom_thermTrip (k : Nat) (d : DomState) : (c.setRouterDom k d).thermTrip = c.thermTrip := rfl
@[simp] theorem Chip.setRouterDom_pages (k : Nat) (d : DomState) : (c.setRouterDom k d).pages = c.pages := rfl
@[simp] theorem Chip.setRouterDom_tiles (k : Nat) (d : DomState) : (c.setRouterDom k d).tiles = c.tiles := rfl
@[simp] theorem Chip.setRouterDom_commons (k : Nat) (d : DomState) : (c.setRouterDom k d).commons = c.commons := rfl
@[simp] theorem Chip.setRouterDom_crookBank (k : Nat) (d : DomState) : (c.setRouterDom k d).crookBank = c.crookBank := rfl
@[simp] theorem Chip.setRouterDom_streamBanks (k : Nat) (d : DomState) : (c.setRouterDom k d).streamBanks = c.streamBanks := rfl
@[simp] theorem Chip.setRouterDom_coreDoms (k : Nat) (d : DomState) : (c.setRouterDom k d).coreDoms = c.coreDoms := rfl
@[simp] theorem Chip.setRouterDom_doms (k : Nat) (d : DomState) : (c.setRouterDom k d).doms = c.doms := rfl
@[simp] theorem Chip.setRouterDom_wakes (k : Nat) (d : DomState) : (c.setRouterDom k d).wakes = c.wakes := rfl
@[simp] theorem Chip.setRouterDom_heldWakes (k : Nat) (d : DomState) : (c.setRouterDom k d).heldWakes = c.heldWakes := rfl
@[simp] theorem Chip.setRouterDom_dies (k : Nat) (d : DomState) : (c.setRouterDom k d).dies = c.dies := rfl
@[simp] theorem Chip.setRouterDom_vlinks (k : Nat) (d : DomState) : (c.setRouterDom k d).vlinks = c.vlinks := rfl
@[simp] theorem Chip.setRouterDom_gate (k : Nat) (d : DomState) : (c.setRouterDom k d).gate = c.gate := rfl
@[simp] theorem Chip.setRouterDom_host (k : Nat) (d : DomState) : (c.setRouterDom k d).host = c.host := rfl
@[simp] theorem Chip.setRouterDom_reads (k : Nat) (d : DomState) : (c.setRouterDom k d).reads = c.reads := rfl
@[simp] theorem Chip.setRouterDom_streams (k : Nat) (d : DomState) : (c.setRouterDom k d).streams = c.streams := rfl
@[simp] theorem Chip.setRouterDom_aers (k : Nat) (d : DomState) : (c.setRouterDom k d).aers = c.aers := rfl
@[simp] theorem Chip.setRouterDom_links (k : Nat) (d : DomState) : (c.setRouterDom k d).links = c.links := rfl
@[simp] theorem Chip.setRouterDom_lsmap (k : Nat) (d : DomState) : (c.setRouterDom k d).lsmap = c.lsmap := rfl
@[simp] theorem Chip.setRouterDom_crook (k : Nat) (d : DomState) : (c.setRouterDom k d).crook = c.crook := rfl
@[simp] theorem Chip.setRouterDom_dbgLock (k : Nat) (d : DomState) : (c.setRouterDom k d).dbgLock = c.dbgLock := rfl
@[simp] theorem Chip.setRouterDom_ctxs (k : Nat) (d : DomState) : (c.setRouterDom k d).ctxs = c.ctxs := rfl
@[simp] theorem Chip.setRouterDom_sb (k : Nat) (d : DomState) : (c.setRouterDom k d).sb = c.sb := rfl
@[simp] theorem Chip.setRouterDom_fetched (k : Nat) (d : DomState) : (c.setRouterDom k d).fetched = c.fetched := rfl
@[simp] theorem Chip.setRouterDom_readied (k : Nat) (d : DomState) : (c.setRouterDom k d).readied = c.readied := rfl
@[simp] theorem Chip.setRouterDom_objs (k : Nat) (d : DomState) : (c.setRouterDom k d).objs = c.objs := rfl
@[simp] theorem Chip.setRouterDom_channels (k : Nat) (d : DomState) : (c.setRouterDom k d).channels = c.channels := rfl
@[simp] theorem Chip.setRouterDom_pools (k : Nat) (d : DomState) : (c.setRouterDom k d).pools = c.pools := rfl
@[simp] theorem Chip.setRouterDom_pasts (k : Nat) (d : DomState) : (c.setRouterDom k d).pasts = c.pasts := rfl
@[simp] theorem Chip.setRouterDom_sliceQ (k : Nat) (d : DomState) : (c.setRouterDom k d).sliceQ = c.sliceQ := rfl
@[simp] theorem Chip.setRouterDom_ladders (k : Nat) (d : DomState) : (c.setRouterDom k d).ladders = c.ladders := rfl
@[simp] theorem Chip.setRouterDom_merge (k : Nat) (d : DomState) : (c.setRouterDom k d).merge = c.merge := rfl
@[simp] theorem Chip.setRouterDom_units (k : Nat) (d : DomState) : (c.setRouterDom k d).units = c.units := rfl
@[simp] theorem Chip.setRouterDom_disagree (k : Nat) (d : DomState) : (c.setRouterDom k d).disagree = c.disagree := rfl
@[simp] theorem Chip.setRouterDom_clearings (k : Nat) (d : DomState) : (c.setRouterDom k d).clearings = c.clearings := rfl
@[simp] theorem Chip.setRouterDom_inFlight (k : Nat) (d : DomState) : (c.setRouterDom k d).inFlight = c.inFlight := rfl
@[simp] theorem Chip.setRouterDom_leaving (k : Nat) (d : DomState) : (c.setRouterDom k d).leaving = c.leaving := rfl
@[simp] theorem Chip.setRouterDom_answer (k : Nat) (d : DomState) : (c.setRouterDom k d).answer = c.answer := rfl
@[simp] theorem Chip.setRouterDom_free (k : Nat) (d : DomState) : (c.setRouterDom k d).free = c.free := rfl
@[simp] theorem Chip.putDie_fuses (d : Nat) (r : DieRec) : (c.putDie d r).fuses = c.fuses := rfl
@[simp] theorem Chip.putDie_rtc (d : Nat) (r : DieRec) : (c.putDie d r).rtc = c.rtc := rfl
@[simp] theorem Chip.putDie_now (d : Nat) (r : DieRec) : (c.putDie d r).now = c.now := rfl
@[simp] theorem Chip.putDie_latches (d : Nat) (r : DieRec) : (c.putDie d r).latches = c.latches := rfl
@[simp] theorem Chip.putDie_routes (d : Nat) (r : DieRec) : (c.putDie d r).routes = c.routes := rfl
@[simp] theorem Chip.putDie_wakeCounts (d : Nat) (r : DieRec) : (c.putDie d r).wakeCounts = c.wakeCounts := rfl
@[simp] theorem Chip.putDie_next (d : Nat) (r : DieRec) : (c.putDie d r).next = c.next := rfl
@[simp] theorem Chip.putDie_nv (d : Nat) (r : DieRec) : (c.putDie d r).nv = c.nv := rfl
@[simp] theorem Chip.putDie_held (d : Nat) (r : DieRec) : (c.putDie d r).held = c.held := rfl
@[simp] theorem Chip.putDie_porLow (d : Nat) (r : DieRec) : (c.putDie d r).porLow = c.porLow := rfl
@[simp] theorem Chip.putDie_railsOut (d : Nat) (r : DieRec) : (c.putDie d r).railsOut = c.railsOut := rfl
@[simp] theorem Chip.putDie_pins (d : Nat) (r : DieRec) : (c.putDie d r).pins = c.pins := rfl
@[simp] theorem Chip.putDie_thermTrip (d : Nat) (r : DieRec) : (c.putDie d r).thermTrip = c.thermTrip := rfl
@[simp] theorem Chip.putDie_pages (d : Nat) (r : DieRec) : (c.putDie d r).pages = c.pages := rfl
@[simp] theorem Chip.putDie_tiles (d : Nat) (r : DieRec) : (c.putDie d r).tiles = c.tiles := rfl
@[simp] theorem Chip.putDie_commons (d : Nat) (r : DieRec) : (c.putDie d r).commons = c.commons := rfl
@[simp] theorem Chip.putDie_crookBank (d : Nat) (r : DieRec) : (c.putDie d r).crookBank = c.crookBank := rfl
@[simp] theorem Chip.putDie_streamBanks (d : Nat) (r : DieRec) : (c.putDie d r).streamBanks = c.streamBanks := rfl
@[simp] theorem Chip.putDie_coreDoms (d : Nat) (r : DieRec) : (c.putDie d r).coreDoms = c.coreDoms := rfl
@[simp] theorem Chip.putDie_routerDoms (d : Nat) (r : DieRec) : (c.putDie d r).routerDoms = c.routerDoms := rfl
@[simp] theorem Chip.putDie_doms (d : Nat) (r : DieRec) : (c.putDie d r).doms = c.doms := rfl
@[simp] theorem Chip.putDie_wakes (d : Nat) (r : DieRec) : (c.putDie d r).wakes = c.wakes := rfl
@[simp] theorem Chip.putDie_heldWakes (d : Nat) (r : DieRec) : (c.putDie d r).heldWakes = c.heldWakes := rfl
@[simp] theorem Chip.putDie_vlinks (d : Nat) (r : DieRec) : (c.putDie d r).vlinks = c.vlinks := rfl
@[simp] theorem Chip.putDie_gate (d : Nat) (r : DieRec) : (c.putDie d r).gate = c.gate := rfl
@[simp] theorem Chip.putDie_host (d : Nat) (r : DieRec) : (c.putDie d r).host = c.host := rfl
@[simp] theorem Chip.putDie_reads (d : Nat) (r : DieRec) : (c.putDie d r).reads = c.reads := rfl
@[simp] theorem Chip.putDie_streams (d : Nat) (r : DieRec) : (c.putDie d r).streams = c.streams := rfl
@[simp] theorem Chip.putDie_aers (d : Nat) (r : DieRec) : (c.putDie d r).aers = c.aers := rfl
@[simp] theorem Chip.putDie_links (d : Nat) (r : DieRec) : (c.putDie d r).links = c.links := rfl
@[simp] theorem Chip.putDie_lsmap (d : Nat) (r : DieRec) : (c.putDie d r).lsmap = c.lsmap := rfl
@[simp] theorem Chip.putDie_crook (d : Nat) (r : DieRec) : (c.putDie d r).crook = c.crook := rfl
@[simp] theorem Chip.putDie_dbgLock (d : Nat) (r : DieRec) : (c.putDie d r).dbgLock = c.dbgLock := rfl
@[simp] theorem Chip.putDie_ctxs (d : Nat) (r : DieRec) : (c.putDie d r).ctxs = c.ctxs := rfl
@[simp] theorem Chip.putDie_sb (d : Nat) (r : DieRec) : (c.putDie d r).sb = c.sb := rfl
@[simp] theorem Chip.putDie_fetched (d : Nat) (r : DieRec) : (c.putDie d r).fetched = c.fetched := rfl
@[simp] theorem Chip.putDie_readied (d : Nat) (r : DieRec) : (c.putDie d r).readied = c.readied := rfl
@[simp] theorem Chip.putDie_objs (d : Nat) (r : DieRec) : (c.putDie d r).objs = c.objs := rfl
@[simp] theorem Chip.putDie_channels (d : Nat) (r : DieRec) : (c.putDie d r).channels = c.channels := rfl
@[simp] theorem Chip.putDie_pools (d : Nat) (r : DieRec) : (c.putDie d r).pools = c.pools := rfl
@[simp] theorem Chip.putDie_pasts (d : Nat) (r : DieRec) : (c.putDie d r).pasts = c.pasts := rfl
@[simp] theorem Chip.putDie_sliceQ (d : Nat) (r : DieRec) : (c.putDie d r).sliceQ = c.sliceQ := rfl
@[simp] theorem Chip.putDie_ladders (d : Nat) (r : DieRec) : (c.putDie d r).ladders = c.ladders := rfl
@[simp] theorem Chip.putDie_merge (d : Nat) (r : DieRec) : (c.putDie d r).merge = c.merge := rfl
@[simp] theorem Chip.putDie_units (d : Nat) (r : DieRec) : (c.putDie d r).units = c.units := rfl
@[simp] theorem Chip.putDie_disagree (d : Nat) (r : DieRec) : (c.putDie d r).disagree = c.disagree := rfl
@[simp] theorem Chip.putDie_clearings (d : Nat) (r : DieRec) : (c.putDie d r).clearings = c.clearings := rfl
@[simp] theorem Chip.putDie_inFlight (d : Nat) (r : DieRec) : (c.putDie d r).inFlight = c.inFlight := rfl
@[simp] theorem Chip.putDie_leaving (d : Nat) (r : DieRec) : (c.putDie d r).leaving = c.leaving := rfl
@[simp] theorem Chip.putDie_answer (d : Nat) (r : DieRec) : (c.putDie d r).answer = c.answer := rfl
@[simp] theorem Chip.putDie_free (d : Nat) (r : DieRec) : (c.putDie d r).free = c.free := rfl
@[simp] theorem Chip.putPast_fuses (p : Nat) (x : Past) : (c.putPast p x).fuses = c.fuses := rfl
@[simp] theorem Chip.putPast_rtc (p : Nat) (x : Past) : (c.putPast p x).rtc = c.rtc := rfl
@[simp] theorem Chip.putPast_now (p : Nat) (x : Past) : (c.putPast p x).now = c.now := rfl
@[simp] theorem Chip.putPast_latches (p : Nat) (x : Past) : (c.putPast p x).latches = c.latches := rfl
@[simp] theorem Chip.putPast_routes (p : Nat) (x : Past) : (c.putPast p x).routes = c.routes := rfl
@[simp] theorem Chip.putPast_wakeCounts (p : Nat) (x : Past) : (c.putPast p x).wakeCounts = c.wakeCounts := rfl
@[simp] theorem Chip.putPast_next (p : Nat) (x : Past) : (c.putPast p x).next = c.next := rfl
@[simp] theorem Chip.putPast_nv (p : Nat) (x : Past) : (c.putPast p x).nv = c.nv := rfl
@[simp] theorem Chip.putPast_held (p : Nat) (x : Past) : (c.putPast p x).held = c.held := rfl
@[simp] theorem Chip.putPast_porLow (p : Nat) (x : Past) : (c.putPast p x).porLow = c.porLow := rfl
@[simp] theorem Chip.putPast_railsOut (p : Nat) (x : Past) : (c.putPast p x).railsOut = c.railsOut := rfl
@[simp] theorem Chip.putPast_pins (p : Nat) (x : Past) : (c.putPast p x).pins = c.pins := rfl
@[simp] theorem Chip.putPast_thermTrip (p : Nat) (x : Past) : (c.putPast p x).thermTrip = c.thermTrip := rfl
@[simp] theorem Chip.putPast_pages (p : Nat) (x : Past) : (c.putPast p x).pages = c.pages := rfl
@[simp] theorem Chip.putPast_tiles (p : Nat) (x : Past) : (c.putPast p x).tiles = c.tiles := rfl
@[simp] theorem Chip.putPast_commons (p : Nat) (x : Past) : (c.putPast p x).commons = c.commons := rfl
@[simp] theorem Chip.putPast_crookBank (p : Nat) (x : Past) : (c.putPast p x).crookBank = c.crookBank := rfl
@[simp] theorem Chip.putPast_streamBanks (p : Nat) (x : Past) : (c.putPast p x).streamBanks = c.streamBanks := rfl
@[simp] theorem Chip.putPast_coreDoms (p : Nat) (x : Past) : (c.putPast p x).coreDoms = c.coreDoms := rfl
@[simp] theorem Chip.putPast_routerDoms (p : Nat) (x : Past) : (c.putPast p x).routerDoms = c.routerDoms := rfl
@[simp] theorem Chip.putPast_doms (p : Nat) (x : Past) : (c.putPast p x).doms = c.doms := rfl
@[simp] theorem Chip.putPast_wakes (p : Nat) (x : Past) : (c.putPast p x).wakes = c.wakes := rfl
@[simp] theorem Chip.putPast_heldWakes (p : Nat) (x : Past) : (c.putPast p x).heldWakes = c.heldWakes := rfl
@[simp] theorem Chip.putPast_dies (p : Nat) (x : Past) : (c.putPast p x).dies = c.dies := rfl
@[simp] theorem Chip.putPast_vlinks (p : Nat) (x : Past) : (c.putPast p x).vlinks = c.vlinks := rfl
@[simp] theorem Chip.putPast_gate (p : Nat) (x : Past) : (c.putPast p x).gate = c.gate := rfl
@[simp] theorem Chip.putPast_host (p : Nat) (x : Past) : (c.putPast p x).host = c.host := rfl
@[simp] theorem Chip.putPast_reads (p : Nat) (x : Past) : (c.putPast p x).reads = c.reads := rfl
@[simp] theorem Chip.putPast_streams (p : Nat) (x : Past) : (c.putPast p x).streams = c.streams := rfl
@[simp] theorem Chip.putPast_aers (p : Nat) (x : Past) : (c.putPast p x).aers = c.aers := rfl
@[simp] theorem Chip.putPast_links (p : Nat) (x : Past) : (c.putPast p x).links = c.links := rfl
@[simp] theorem Chip.putPast_lsmap (p : Nat) (x : Past) : (c.putPast p x).lsmap = c.lsmap := rfl
@[simp] theorem Chip.putPast_crook (p : Nat) (x : Past) : (c.putPast p x).crook = c.crook := rfl
@[simp] theorem Chip.putPast_dbgLock (p : Nat) (x : Past) : (c.putPast p x).dbgLock = c.dbgLock := rfl
@[simp] theorem Chip.putPast_ctxs (p : Nat) (x : Past) : (c.putPast p x).ctxs = c.ctxs := rfl
@[simp] theorem Chip.putPast_sb (p : Nat) (x : Past) : (c.putPast p x).sb = c.sb := rfl
@[simp] theorem Chip.putPast_fetched (p : Nat) (x : Past) : (c.putPast p x).fetched = c.fetched := rfl
@[simp] theorem Chip.putPast_readied (p : Nat) (x : Past) : (c.putPast p x).readied = c.readied := rfl
@[simp] theorem Chip.putPast_objs (p : Nat) (x : Past) : (c.putPast p x).objs = c.objs := rfl
@[simp] theorem Chip.putPast_channels (p : Nat) (x : Past) : (c.putPast p x).channels = c.channels := rfl
@[simp] theorem Chip.putPast_pools (p : Nat) (x : Past) : (c.putPast p x).pools = c.pools := rfl
@[simp] theorem Chip.putPast_sliceQ (p : Nat) (x : Past) : (c.putPast p x).sliceQ = c.sliceQ := rfl
@[simp] theorem Chip.putPast_ladders (p : Nat) (x : Past) : (c.putPast p x).ladders = c.ladders := rfl
@[simp] theorem Chip.putPast_merge (p : Nat) (x : Past) : (c.putPast p x).merge = c.merge := rfl
@[simp] theorem Chip.putPast_units (p : Nat) (x : Past) : (c.putPast p x).units = c.units := rfl
@[simp] theorem Chip.putPast_disagree (p : Nat) (x : Past) : (c.putPast p x).disagree = c.disagree := rfl
@[simp] theorem Chip.putPast_clearings (p : Nat) (x : Past) : (c.putPast p x).clearings = c.clearings := rfl
@[simp] theorem Chip.putPast_inFlight (p : Nat) (x : Past) : (c.putPast p x).inFlight = c.inFlight := rfl
@[simp] theorem Chip.putPast_leaving (p : Nat) (x : Past) : (c.putPast p x).leaving = c.leaving := rfl
@[simp] theorem Chip.putPast_answer (p : Nat) (x : Past) : (c.putPast p x).answer = c.answer := rfl
@[simp] theorem Chip.putPast_free (p : Nat) (x : Past) : (c.putPast p x).free = c.free := rfl
@[simp] theorem Chip.putUnit_fuses (u : Nat) (x : UnitRec) : (c.putUnit u x).fuses = c.fuses := rfl
@[simp] theorem Chip.putUnit_rtc (u : Nat) (x : UnitRec) : (c.putUnit u x).rtc = c.rtc := rfl
@[simp] theorem Chip.putUnit_now (u : Nat) (x : UnitRec) : (c.putUnit u x).now = c.now := rfl
@[simp] theorem Chip.putUnit_latches (u : Nat) (x : UnitRec) : (c.putUnit u x).latches = c.latches := rfl
@[simp] theorem Chip.putUnit_routes (u : Nat) (x : UnitRec) : (c.putUnit u x).routes = c.routes := rfl
@[simp] theorem Chip.putUnit_wakeCounts (u : Nat) (x : UnitRec) : (c.putUnit u x).wakeCounts = c.wakeCounts := rfl
@[simp] theorem Chip.putUnit_next (u : Nat) (x : UnitRec) : (c.putUnit u x).next = c.next := rfl
@[simp] theorem Chip.putUnit_nv (u : Nat) (x : UnitRec) : (c.putUnit u x).nv = c.nv := rfl
@[simp] theorem Chip.putUnit_held (u : Nat) (x : UnitRec) : (c.putUnit u x).held = c.held := rfl
@[simp] theorem Chip.putUnit_porLow (u : Nat) (x : UnitRec) : (c.putUnit u x).porLow = c.porLow := rfl
@[simp] theorem Chip.putUnit_railsOut (u : Nat) (x : UnitRec) : (c.putUnit u x).railsOut = c.railsOut := rfl
@[simp] theorem Chip.putUnit_pins (u : Nat) (x : UnitRec) : (c.putUnit u x).pins = c.pins := rfl
@[simp] theorem Chip.putUnit_thermTrip (u : Nat) (x : UnitRec) : (c.putUnit u x).thermTrip = c.thermTrip := rfl
@[simp] theorem Chip.putUnit_pages (u : Nat) (x : UnitRec) : (c.putUnit u x).pages = c.pages := rfl
@[simp] theorem Chip.putUnit_tiles (u : Nat) (x : UnitRec) : (c.putUnit u x).tiles = c.tiles := rfl
@[simp] theorem Chip.putUnit_commons (u : Nat) (x : UnitRec) : (c.putUnit u x).commons = c.commons := rfl
@[simp] theorem Chip.putUnit_crookBank (u : Nat) (x : UnitRec) : (c.putUnit u x).crookBank = c.crookBank := rfl
@[simp] theorem Chip.putUnit_streamBanks (u : Nat) (x : UnitRec) : (c.putUnit u x).streamBanks = c.streamBanks := rfl
@[simp] theorem Chip.putUnit_coreDoms (u : Nat) (x : UnitRec) : (c.putUnit u x).coreDoms = c.coreDoms := rfl
@[simp] theorem Chip.putUnit_routerDoms (u : Nat) (x : UnitRec) : (c.putUnit u x).routerDoms = c.routerDoms := rfl
@[simp] theorem Chip.putUnit_doms (u : Nat) (x : UnitRec) : (c.putUnit u x).doms = c.doms := rfl
@[simp] theorem Chip.putUnit_wakes (u : Nat) (x : UnitRec) : (c.putUnit u x).wakes = c.wakes := rfl
@[simp] theorem Chip.putUnit_heldWakes (u : Nat) (x : UnitRec) : (c.putUnit u x).heldWakes = c.heldWakes := rfl
@[simp] theorem Chip.putUnit_dies (u : Nat) (x : UnitRec) : (c.putUnit u x).dies = c.dies := rfl
@[simp] theorem Chip.putUnit_vlinks (u : Nat) (x : UnitRec) : (c.putUnit u x).vlinks = c.vlinks := rfl
@[simp] theorem Chip.putUnit_gate (u : Nat) (x : UnitRec) : (c.putUnit u x).gate = c.gate := rfl
@[simp] theorem Chip.putUnit_host (u : Nat) (x : UnitRec) : (c.putUnit u x).host = c.host := rfl
@[simp] theorem Chip.putUnit_reads (u : Nat) (x : UnitRec) : (c.putUnit u x).reads = c.reads := rfl
@[simp] theorem Chip.putUnit_streams (u : Nat) (x : UnitRec) : (c.putUnit u x).streams = c.streams := rfl
@[simp] theorem Chip.putUnit_aers (u : Nat) (x : UnitRec) : (c.putUnit u x).aers = c.aers := rfl
@[simp] theorem Chip.putUnit_links (u : Nat) (x : UnitRec) : (c.putUnit u x).links = c.links := rfl
@[simp] theorem Chip.putUnit_lsmap (u : Nat) (x : UnitRec) : (c.putUnit u x).lsmap = c.lsmap := rfl
@[simp] theorem Chip.putUnit_crook (u : Nat) (x : UnitRec) : (c.putUnit u x).crook = c.crook := rfl
@[simp] theorem Chip.putUnit_dbgLock (u : Nat) (x : UnitRec) : (c.putUnit u x).dbgLock = c.dbgLock := rfl
@[simp] theorem Chip.putUnit_ctxs (u : Nat) (x : UnitRec) : (c.putUnit u x).ctxs = c.ctxs := rfl
@[simp] theorem Chip.putUnit_sb (u : Nat) (x : UnitRec) : (c.putUnit u x).sb = c.sb := rfl
@[simp] theorem Chip.putUnit_fetched (u : Nat) (x : UnitRec) : (c.putUnit u x).fetched = c.fetched := rfl
@[simp] theorem Chip.putUnit_readied (u : Nat) (x : UnitRec) : (c.putUnit u x).readied = c.readied := rfl
@[simp] theorem Chip.putUnit_objs (u : Nat) (x : UnitRec) : (c.putUnit u x).objs = c.objs := rfl
@[simp] theorem Chip.putUnit_channels (u : Nat) (x : UnitRec) : (c.putUnit u x).channels = c.channels := rfl
@[simp] theorem Chip.putUnit_pools (u : Nat) (x : UnitRec) : (c.putUnit u x).pools = c.pools := rfl
@[simp] theorem Chip.putUnit_pasts (u : Nat) (x : UnitRec) : (c.putUnit u x).pasts = c.pasts := rfl
@[simp] theorem Chip.putUnit_sliceQ (u : Nat) (x : UnitRec) : (c.putUnit u x).sliceQ = c.sliceQ := rfl
@[simp] theorem Chip.putUnit_ladders (u : Nat) (x : UnitRec) : (c.putUnit u x).ladders = c.ladders := rfl
@[simp] theorem Chip.putUnit_merge (u : Nat) (x : UnitRec) : (c.putUnit u x).merge = c.merge := rfl
@[simp] theorem Chip.putUnit_disagree (u : Nat) (x : UnitRec) : (c.putUnit u x).disagree = c.disagree := rfl
@[simp] theorem Chip.putUnit_clearings (u : Nat) (x : UnitRec) : (c.putUnit u x).clearings = c.clearings := rfl
@[simp] theorem Chip.putUnit_inFlight (u : Nat) (x : UnitRec) : (c.putUnit u x).inFlight = c.inFlight := rfl
@[simp] theorem Chip.putUnit_leaving (u : Nat) (x : UnitRec) : (c.putUnit u x).leaving = c.leaving := rfl
@[simp] theorem Chip.putUnit_answer (u : Nat) (x : UnitRec) : (c.putUnit u x).answer = c.answer := rfl
@[simp] theorem Chip.putUnit_free (u : Nat) (x : UnitRec) : (c.putUnit u x).free = c.free := rfl
@[simp] theorem Chip.putLadder_fuses (i : Nat) (l : Ladder) : (c.putLadder i l).fuses = c.fuses := rfl
@[simp] theorem Chip.putLadder_rtc (i : Nat) (l : Ladder) : (c.putLadder i l).rtc = c.rtc := rfl
@[simp] theorem Chip.putLadder_now (i : Nat) (l : Ladder) : (c.putLadder i l).now = c.now := rfl
@[simp] theorem Chip.putLadder_latches (i : Nat) (l : Ladder) : (c.putLadder i l).latches = c.latches := rfl
@[simp] theorem Chip.putLadder_routes (i : Nat) (l : Ladder) : (c.putLadder i l).routes = c.routes := rfl
@[simp] theorem Chip.putLadder_wakeCounts (i : Nat) (l : Ladder) : (c.putLadder i l).wakeCounts = c.wakeCounts := rfl
@[simp] theorem Chip.putLadder_next (i : Nat) (l : Ladder) : (c.putLadder i l).next = c.next := rfl
@[simp] theorem Chip.putLadder_nv (i : Nat) (l : Ladder) : (c.putLadder i l).nv = c.nv := rfl
@[simp] theorem Chip.putLadder_held (i : Nat) (l : Ladder) : (c.putLadder i l).held = c.held := rfl
@[simp] theorem Chip.putLadder_porLow (i : Nat) (l : Ladder) : (c.putLadder i l).porLow = c.porLow := rfl
@[simp] theorem Chip.putLadder_railsOut (i : Nat) (l : Ladder) : (c.putLadder i l).railsOut = c.railsOut := rfl
@[simp] theorem Chip.putLadder_pins (i : Nat) (l : Ladder) : (c.putLadder i l).pins = c.pins := rfl
@[simp] theorem Chip.putLadder_thermTrip (i : Nat) (l : Ladder) : (c.putLadder i l).thermTrip = c.thermTrip := rfl
@[simp] theorem Chip.putLadder_pages (i : Nat) (l : Ladder) : (c.putLadder i l).pages = c.pages := rfl
@[simp] theorem Chip.putLadder_tiles (i : Nat) (l : Ladder) : (c.putLadder i l).tiles = c.tiles := rfl
@[simp] theorem Chip.putLadder_commons (i : Nat) (l : Ladder) : (c.putLadder i l).commons = c.commons := rfl
@[simp] theorem Chip.putLadder_crookBank (i : Nat) (l : Ladder) : (c.putLadder i l).crookBank = c.crookBank := rfl
@[simp] theorem Chip.putLadder_streamBanks (i : Nat) (l : Ladder) : (c.putLadder i l).streamBanks = c.streamBanks := rfl
@[simp] theorem Chip.putLadder_coreDoms (i : Nat) (l : Ladder) : (c.putLadder i l).coreDoms = c.coreDoms := rfl
@[simp] theorem Chip.putLadder_routerDoms (i : Nat) (l : Ladder) : (c.putLadder i l).routerDoms = c.routerDoms := rfl
@[simp] theorem Chip.putLadder_doms (i : Nat) (l : Ladder) : (c.putLadder i l).doms = c.doms := rfl
@[simp] theorem Chip.putLadder_wakes (i : Nat) (l : Ladder) : (c.putLadder i l).wakes = c.wakes := rfl
@[simp] theorem Chip.putLadder_heldWakes (i : Nat) (l : Ladder) : (c.putLadder i l).heldWakes = c.heldWakes := rfl
@[simp] theorem Chip.putLadder_dies (i : Nat) (l : Ladder) : (c.putLadder i l).dies = c.dies := rfl
@[simp] theorem Chip.putLadder_vlinks (i : Nat) (l : Ladder) : (c.putLadder i l).vlinks = c.vlinks := rfl
@[simp] theorem Chip.putLadder_gate (i : Nat) (l : Ladder) : (c.putLadder i l).gate = c.gate := rfl
@[simp] theorem Chip.putLadder_host (i : Nat) (l : Ladder) : (c.putLadder i l).host = c.host := rfl
@[simp] theorem Chip.putLadder_reads (i : Nat) (l : Ladder) : (c.putLadder i l).reads = c.reads := rfl
@[simp] theorem Chip.putLadder_streams (i : Nat) (l : Ladder) : (c.putLadder i l).streams = c.streams := rfl
@[simp] theorem Chip.putLadder_aers (i : Nat) (l : Ladder) : (c.putLadder i l).aers = c.aers := rfl
@[simp] theorem Chip.putLadder_links (i : Nat) (l : Ladder) : (c.putLadder i l).links = c.links := rfl
@[simp] theorem Chip.putLadder_lsmap (i : Nat) (l : Ladder) : (c.putLadder i l).lsmap = c.lsmap := rfl
@[simp] theorem Chip.putLadder_crook (i : Nat) (l : Ladder) : (c.putLadder i l).crook = c.crook := rfl
@[simp] theorem Chip.putLadder_dbgLock (i : Nat) (l : Ladder) : (c.putLadder i l).dbgLock = c.dbgLock := rfl
@[simp] theorem Chip.putLadder_ctxs (i : Nat) (l : Ladder) : (c.putLadder i l).ctxs = c.ctxs := rfl
@[simp] theorem Chip.putLadder_sb (i : Nat) (l : Ladder) : (c.putLadder i l).sb = c.sb := rfl
@[simp] theorem Chip.putLadder_fetched (i : Nat) (l : Ladder) : (c.putLadder i l).fetched = c.fetched := rfl
@[simp] theorem Chip.putLadder_readied (i : Nat) (l : Ladder) : (c.putLadder i l).readied = c.readied := rfl
@[simp] theorem Chip.putLadder_objs (i : Nat) (l : Ladder) : (c.putLadder i l).objs = c.objs := rfl
@[simp] theorem Chip.putLadder_channels (i : Nat) (l : Ladder) : (c.putLadder i l).channels = c.channels := rfl
@[simp] theorem Chip.putLadder_pools (i : Nat) (l : Ladder) : (c.putLadder i l).pools = c.pools := rfl
@[simp] theorem Chip.putLadder_pasts (i : Nat) (l : Ladder) : (c.putLadder i l).pasts = c.pasts := rfl
@[simp] theorem Chip.putLadder_sliceQ (i : Nat) (l : Ladder) : (c.putLadder i l).sliceQ = c.sliceQ := rfl
@[simp] theorem Chip.putLadder_merge (i : Nat) (l : Ladder) : (c.putLadder i l).merge = c.merge := rfl
@[simp] theorem Chip.putLadder_units (i : Nat) (l : Ladder) : (c.putLadder i l).units = c.units := rfl
@[simp] theorem Chip.putLadder_disagree (i : Nat) (l : Ladder) : (c.putLadder i l).disagree = c.disagree := rfl
@[simp] theorem Chip.putLadder_clearings (i : Nat) (l : Ladder) : (c.putLadder i l).clearings = c.clearings := rfl
@[simp] theorem Chip.putLadder_inFlight (i : Nat) (l : Ladder) : (c.putLadder i l).inFlight = c.inFlight := rfl
@[simp] theorem Chip.putLadder_leaving (i : Nat) (l : Ladder) : (c.putLadder i l).leaving = c.leaving := rfl
@[simp] theorem Chip.putLadder_answer (i : Nat) (l : Ladder) : (c.putLadder i l).answer = c.answer := rfl
@[simp] theorem Chip.putLadder_free (i : Nat) (l : Ladder) : (c.putLadder i l).free = c.free := rfl
@[simp] theorem Chip.putEntry_fuses (e : Nat) (x : SbEntry) : (c.putEntry e x).fuses = c.fuses := rfl
@[simp] theorem Chip.putEntry_rtc (e : Nat) (x : SbEntry) : (c.putEntry e x).rtc = c.rtc := rfl
@[simp] theorem Chip.putEntry_now (e : Nat) (x : SbEntry) : (c.putEntry e x).now = c.now := rfl
@[simp] theorem Chip.putEntry_latches (e : Nat) (x : SbEntry) : (c.putEntry e x).latches = c.latches := rfl
@[simp] theorem Chip.putEntry_routes (e : Nat) (x : SbEntry) : (c.putEntry e x).routes = c.routes := rfl
@[simp] theorem Chip.putEntry_wakeCounts (e : Nat) (x : SbEntry) : (c.putEntry e x).wakeCounts = c.wakeCounts := rfl
@[simp] theorem Chip.putEntry_next (e : Nat) (x : SbEntry) : (c.putEntry e x).next = c.next := rfl
@[simp] theorem Chip.putEntry_nv (e : Nat) (x : SbEntry) : (c.putEntry e x).nv = c.nv := rfl
@[simp] theorem Chip.putEntry_held (e : Nat) (x : SbEntry) : (c.putEntry e x).held = c.held := rfl
@[simp] theorem Chip.putEntry_porLow (e : Nat) (x : SbEntry) : (c.putEntry e x).porLow = c.porLow := rfl
@[simp] theorem Chip.putEntry_railsOut (e : Nat) (x : SbEntry) : (c.putEntry e x).railsOut = c.railsOut := rfl
@[simp] theorem Chip.putEntry_pins (e : Nat) (x : SbEntry) : (c.putEntry e x).pins = c.pins := rfl
@[simp] theorem Chip.putEntry_thermTrip (e : Nat) (x : SbEntry) : (c.putEntry e x).thermTrip = c.thermTrip := rfl
@[simp] theorem Chip.putEntry_pages (e : Nat) (x : SbEntry) : (c.putEntry e x).pages = c.pages := rfl
@[simp] theorem Chip.putEntry_tiles (e : Nat) (x : SbEntry) : (c.putEntry e x).tiles = c.tiles := rfl
@[simp] theorem Chip.putEntry_commons (e : Nat) (x : SbEntry) : (c.putEntry e x).commons = c.commons := rfl
@[simp] theorem Chip.putEntry_crookBank (e : Nat) (x : SbEntry) : (c.putEntry e x).crookBank = c.crookBank := rfl
@[simp] theorem Chip.putEntry_streamBanks (e : Nat) (x : SbEntry) : (c.putEntry e x).streamBanks = c.streamBanks := rfl
@[simp] theorem Chip.putEntry_coreDoms (e : Nat) (x : SbEntry) : (c.putEntry e x).coreDoms = c.coreDoms := rfl
@[simp] theorem Chip.putEntry_routerDoms (e : Nat) (x : SbEntry) : (c.putEntry e x).routerDoms = c.routerDoms := rfl
@[simp] theorem Chip.putEntry_doms (e : Nat) (x : SbEntry) : (c.putEntry e x).doms = c.doms := rfl
@[simp] theorem Chip.putEntry_wakes (e : Nat) (x : SbEntry) : (c.putEntry e x).wakes = c.wakes := rfl
@[simp] theorem Chip.putEntry_heldWakes (e : Nat) (x : SbEntry) : (c.putEntry e x).heldWakes = c.heldWakes := rfl
@[simp] theorem Chip.putEntry_dies (e : Nat) (x : SbEntry) : (c.putEntry e x).dies = c.dies := rfl
@[simp] theorem Chip.putEntry_vlinks (e : Nat) (x : SbEntry) : (c.putEntry e x).vlinks = c.vlinks := rfl
@[simp] theorem Chip.putEntry_gate (e : Nat) (x : SbEntry) : (c.putEntry e x).gate = c.gate := rfl
@[simp] theorem Chip.putEntry_host (e : Nat) (x : SbEntry) : (c.putEntry e x).host = c.host := rfl
@[simp] theorem Chip.putEntry_reads (e : Nat) (x : SbEntry) : (c.putEntry e x).reads = c.reads := rfl
@[simp] theorem Chip.putEntry_streams (e : Nat) (x : SbEntry) : (c.putEntry e x).streams = c.streams := rfl
@[simp] theorem Chip.putEntry_aers (e : Nat) (x : SbEntry) : (c.putEntry e x).aers = c.aers := rfl
@[simp] theorem Chip.putEntry_links (e : Nat) (x : SbEntry) : (c.putEntry e x).links = c.links := rfl
@[simp] theorem Chip.putEntry_lsmap (e : Nat) (x : SbEntry) : (c.putEntry e x).lsmap = c.lsmap := rfl
@[simp] theorem Chip.putEntry_crook (e : Nat) (x : SbEntry) : (c.putEntry e x).crook = c.crook := rfl
@[simp] theorem Chip.putEntry_dbgLock (e : Nat) (x : SbEntry) : (c.putEntry e x).dbgLock = c.dbgLock := rfl
@[simp] theorem Chip.putEntry_ctxs (e : Nat) (x : SbEntry) : (c.putEntry e x).ctxs = c.ctxs := rfl
@[simp] theorem Chip.putEntry_fetched (e : Nat) (x : SbEntry) : (c.putEntry e x).fetched = c.fetched := rfl
@[simp] theorem Chip.putEntry_readied (e : Nat) (x : SbEntry) : (c.putEntry e x).readied = c.readied := rfl
@[simp] theorem Chip.putEntry_objs (e : Nat) (x : SbEntry) : (c.putEntry e x).objs = c.objs := rfl
@[simp] theorem Chip.putEntry_channels (e : Nat) (x : SbEntry) : (c.putEntry e x).channels = c.channels := rfl
@[simp] theorem Chip.putEntry_pools (e : Nat) (x : SbEntry) : (c.putEntry e x).pools = c.pools := rfl
@[simp] theorem Chip.putEntry_pasts (e : Nat) (x : SbEntry) : (c.putEntry e x).pasts = c.pasts := rfl
@[simp] theorem Chip.putEntry_sliceQ (e : Nat) (x : SbEntry) : (c.putEntry e x).sliceQ = c.sliceQ := rfl
@[simp] theorem Chip.putEntry_ladders (e : Nat) (x : SbEntry) : (c.putEntry e x).ladders = c.ladders := rfl
@[simp] theorem Chip.putEntry_merge (e : Nat) (x : SbEntry) : (c.putEntry e x).merge = c.merge := rfl
@[simp] theorem Chip.putEntry_units (e : Nat) (x : SbEntry) : (c.putEntry e x).units = c.units := rfl
@[simp] theorem Chip.putEntry_disagree (e : Nat) (x : SbEntry) : (c.putEntry e x).disagree = c.disagree := rfl
@[simp] theorem Chip.putEntry_clearings (e : Nat) (x : SbEntry) : (c.putEntry e x).clearings = c.clearings := rfl
@[simp] theorem Chip.putEntry_inFlight (e : Nat) (x : SbEntry) : (c.putEntry e x).inFlight = c.inFlight := rfl
@[simp] theorem Chip.putEntry_leaving (e : Nat) (x : SbEntry) : (c.putEntry e x).leaving = c.leaving := rfl
@[simp] theorem Chip.putEntry_answer (e : Nat) (x : SbEntry) : (c.putEntry e x).answer = c.answer := rfl
@[simp] theorem Chip.putEntry_free (e : Nat) (x : SbEntry) : (c.putEntry e x).free = c.free := rfl
@[simp] theorem Chip.putCtx_fuses (q : Nat) (x : Ctx) : (c.putCtx q x).fuses = c.fuses := rfl
@[simp] theorem Chip.putCtx_rtc (q : Nat) (x : Ctx) : (c.putCtx q x).rtc = c.rtc := rfl
@[simp] theorem Chip.putCtx_now (q : Nat) (x : Ctx) : (c.putCtx q x).now = c.now := rfl
@[simp] theorem Chip.putCtx_latches (q : Nat) (x : Ctx) : (c.putCtx q x).latches = c.latches := rfl
@[simp] theorem Chip.putCtx_routes (q : Nat) (x : Ctx) : (c.putCtx q x).routes = c.routes := rfl
@[simp] theorem Chip.putCtx_wakeCounts (q : Nat) (x : Ctx) : (c.putCtx q x).wakeCounts = c.wakeCounts := rfl
@[simp] theorem Chip.putCtx_next (q : Nat) (x : Ctx) : (c.putCtx q x).next = c.next := rfl
@[simp] theorem Chip.putCtx_nv (q : Nat) (x : Ctx) : (c.putCtx q x).nv = c.nv := rfl
@[simp] theorem Chip.putCtx_held (q : Nat) (x : Ctx) : (c.putCtx q x).held = c.held := rfl
@[simp] theorem Chip.putCtx_porLow (q : Nat) (x : Ctx) : (c.putCtx q x).porLow = c.porLow := rfl
@[simp] theorem Chip.putCtx_railsOut (q : Nat) (x : Ctx) : (c.putCtx q x).railsOut = c.railsOut := rfl
@[simp] theorem Chip.putCtx_pins (q : Nat) (x : Ctx) : (c.putCtx q x).pins = c.pins := rfl
@[simp] theorem Chip.putCtx_thermTrip (q : Nat) (x : Ctx) : (c.putCtx q x).thermTrip = c.thermTrip := rfl
@[simp] theorem Chip.putCtx_pages (q : Nat) (x : Ctx) : (c.putCtx q x).pages = c.pages := rfl
@[simp] theorem Chip.putCtx_tiles (q : Nat) (x : Ctx) : (c.putCtx q x).tiles = c.tiles := rfl
@[simp] theorem Chip.putCtx_commons (q : Nat) (x : Ctx) : (c.putCtx q x).commons = c.commons := rfl
@[simp] theorem Chip.putCtx_crookBank (q : Nat) (x : Ctx) : (c.putCtx q x).crookBank = c.crookBank := rfl
@[simp] theorem Chip.putCtx_streamBanks (q : Nat) (x : Ctx) : (c.putCtx q x).streamBanks = c.streamBanks := rfl
@[simp] theorem Chip.putCtx_coreDoms (q : Nat) (x : Ctx) : (c.putCtx q x).coreDoms = c.coreDoms := rfl
@[simp] theorem Chip.putCtx_routerDoms (q : Nat) (x : Ctx) : (c.putCtx q x).routerDoms = c.routerDoms := rfl
@[simp] theorem Chip.putCtx_doms (q : Nat) (x : Ctx) : (c.putCtx q x).doms = c.doms := rfl
@[simp] theorem Chip.putCtx_wakes (q : Nat) (x : Ctx) : (c.putCtx q x).wakes = c.wakes := rfl
@[simp] theorem Chip.putCtx_heldWakes (q : Nat) (x : Ctx) : (c.putCtx q x).heldWakes = c.heldWakes := rfl
@[simp] theorem Chip.putCtx_dies (q : Nat) (x : Ctx) : (c.putCtx q x).dies = c.dies := rfl
@[simp] theorem Chip.putCtx_vlinks (q : Nat) (x : Ctx) : (c.putCtx q x).vlinks = c.vlinks := rfl
@[simp] theorem Chip.putCtx_gate (q : Nat) (x : Ctx) : (c.putCtx q x).gate = c.gate := rfl
@[simp] theorem Chip.putCtx_host (q : Nat) (x : Ctx) : (c.putCtx q x).host = c.host := rfl
@[simp] theorem Chip.putCtx_reads (q : Nat) (x : Ctx) : (c.putCtx q x).reads = c.reads := rfl
@[simp] theorem Chip.putCtx_streams (q : Nat) (x : Ctx) : (c.putCtx q x).streams = c.streams := rfl
@[simp] theorem Chip.putCtx_aers (q : Nat) (x : Ctx) : (c.putCtx q x).aers = c.aers := rfl
@[simp] theorem Chip.putCtx_links (q : Nat) (x : Ctx) : (c.putCtx q x).links = c.links := rfl
@[simp] theorem Chip.putCtx_lsmap (q : Nat) (x : Ctx) : (c.putCtx q x).lsmap = c.lsmap := rfl
@[simp] theorem Chip.putCtx_crook (q : Nat) (x : Ctx) : (c.putCtx q x).crook = c.crook := rfl
@[simp] theorem Chip.putCtx_dbgLock (q : Nat) (x : Ctx) : (c.putCtx q x).dbgLock = c.dbgLock := rfl
@[simp] theorem Chip.putCtx_sb (q : Nat) (x : Ctx) : (c.putCtx q x).sb = c.sb := rfl
@[simp] theorem Chip.putCtx_fetched (q : Nat) (x : Ctx) : (c.putCtx q x).fetched = c.fetched := rfl
@[simp] theorem Chip.putCtx_readied (q : Nat) (x : Ctx) : (c.putCtx q x).readied = c.readied := rfl
@[simp] theorem Chip.putCtx_objs (q : Nat) (x : Ctx) : (c.putCtx q x).objs = c.objs := rfl
@[simp] theorem Chip.putCtx_channels (q : Nat) (x : Ctx) : (c.putCtx q x).channels = c.channels := rfl
@[simp] theorem Chip.putCtx_pools (q : Nat) (x : Ctx) : (c.putCtx q x).pools = c.pools := rfl
@[simp] theorem Chip.putCtx_pasts (q : Nat) (x : Ctx) : (c.putCtx q x).pasts = c.pasts := rfl
@[simp] theorem Chip.putCtx_sliceQ (q : Nat) (x : Ctx) : (c.putCtx q x).sliceQ = c.sliceQ := rfl
@[simp] theorem Chip.putCtx_ladders (q : Nat) (x : Ctx) : (c.putCtx q x).ladders = c.ladders := rfl
@[simp] theorem Chip.putCtx_merge (q : Nat) (x : Ctx) : (c.putCtx q x).merge = c.merge := rfl
@[simp] theorem Chip.putCtx_units (q : Nat) (x : Ctx) : (c.putCtx q x).units = c.units := rfl
@[simp] theorem Chip.putCtx_disagree (q : Nat) (x : Ctx) : (c.putCtx q x).disagree = c.disagree := rfl
@[simp] theorem Chip.putCtx_clearings (q : Nat) (x : Ctx) : (c.putCtx q x).clearings = c.clearings := rfl
@[simp] theorem Chip.putCtx_inFlight (q : Nat) (x : Ctx) : (c.putCtx q x).inFlight = c.inFlight := rfl
@[simp] theorem Chip.putCtx_leaving (q : Nat) (x : Ctx) : (c.putCtx q x).leaving = c.leaving := rfl
@[simp] theorem Chip.putCtx_answer (q : Nat) (x : Ctx) : (c.putCtx q x).answer = c.answer := rfl
@[simp] theorem Chip.putCtx_free (q : Nat) (x : Ctx) : (c.putCtx q x).free = c.free := rfl
@[simp] theorem Chip.putObj_fuses (o : Nat) (x : SyncObj) : (c.putObj o x).fuses = c.fuses := rfl
@[simp] theorem Chip.putObj_rtc (o : Nat) (x : SyncObj) : (c.putObj o x).rtc = c.rtc := rfl
@[simp] theorem Chip.putObj_now (o : Nat) (x : SyncObj) : (c.putObj o x).now = c.now := rfl
@[simp] theorem Chip.putObj_latches (o : Nat) (x : SyncObj) : (c.putObj o x).latches = c.latches := rfl
@[simp] theorem Chip.putObj_routes (o : Nat) (x : SyncObj) : (c.putObj o x).routes = c.routes := rfl
@[simp] theorem Chip.putObj_wakeCounts (o : Nat) (x : SyncObj) : (c.putObj o x).wakeCounts = c.wakeCounts := rfl
@[simp] theorem Chip.putObj_next (o : Nat) (x : SyncObj) : (c.putObj o x).next = c.next := rfl
@[simp] theorem Chip.putObj_nv (o : Nat) (x : SyncObj) : (c.putObj o x).nv = c.nv := rfl
@[simp] theorem Chip.putObj_held (o : Nat) (x : SyncObj) : (c.putObj o x).held = c.held := rfl
@[simp] theorem Chip.putObj_porLow (o : Nat) (x : SyncObj) : (c.putObj o x).porLow = c.porLow := rfl
@[simp] theorem Chip.putObj_railsOut (o : Nat) (x : SyncObj) : (c.putObj o x).railsOut = c.railsOut := rfl
@[simp] theorem Chip.putObj_pins (o : Nat) (x : SyncObj) : (c.putObj o x).pins = c.pins := rfl
@[simp] theorem Chip.putObj_thermTrip (o : Nat) (x : SyncObj) : (c.putObj o x).thermTrip = c.thermTrip := rfl
@[simp] theorem Chip.putObj_pages (o : Nat) (x : SyncObj) : (c.putObj o x).pages = c.pages := rfl
@[simp] theorem Chip.putObj_tiles (o : Nat) (x : SyncObj) : (c.putObj o x).tiles = c.tiles := rfl
@[simp] theorem Chip.putObj_commons (o : Nat) (x : SyncObj) : (c.putObj o x).commons = c.commons := rfl
@[simp] theorem Chip.putObj_crookBank (o : Nat) (x : SyncObj) : (c.putObj o x).crookBank = c.crookBank := rfl
@[simp] theorem Chip.putObj_streamBanks (o : Nat) (x : SyncObj) : (c.putObj o x).streamBanks = c.streamBanks := rfl
@[simp] theorem Chip.putObj_coreDoms (o : Nat) (x : SyncObj) : (c.putObj o x).coreDoms = c.coreDoms := rfl
@[simp] theorem Chip.putObj_routerDoms (o : Nat) (x : SyncObj) : (c.putObj o x).routerDoms = c.routerDoms := rfl
@[simp] theorem Chip.putObj_doms (o : Nat) (x : SyncObj) : (c.putObj o x).doms = c.doms := rfl
@[simp] theorem Chip.putObj_wakes (o : Nat) (x : SyncObj) : (c.putObj o x).wakes = c.wakes := rfl
@[simp] theorem Chip.putObj_heldWakes (o : Nat) (x : SyncObj) : (c.putObj o x).heldWakes = c.heldWakes := rfl
@[simp] theorem Chip.putObj_dies (o : Nat) (x : SyncObj) : (c.putObj o x).dies = c.dies := rfl
@[simp] theorem Chip.putObj_vlinks (o : Nat) (x : SyncObj) : (c.putObj o x).vlinks = c.vlinks := rfl
@[simp] theorem Chip.putObj_gate (o : Nat) (x : SyncObj) : (c.putObj o x).gate = c.gate := rfl
@[simp] theorem Chip.putObj_host (o : Nat) (x : SyncObj) : (c.putObj o x).host = c.host := rfl
@[simp] theorem Chip.putObj_reads (o : Nat) (x : SyncObj) : (c.putObj o x).reads = c.reads := rfl
@[simp] theorem Chip.putObj_streams (o : Nat) (x : SyncObj) : (c.putObj o x).streams = c.streams := rfl
@[simp] theorem Chip.putObj_aers (o : Nat) (x : SyncObj) : (c.putObj o x).aers = c.aers := rfl
@[simp] theorem Chip.putObj_links (o : Nat) (x : SyncObj) : (c.putObj o x).links = c.links := rfl
@[simp] theorem Chip.putObj_lsmap (o : Nat) (x : SyncObj) : (c.putObj o x).lsmap = c.lsmap := rfl
@[simp] theorem Chip.putObj_crook (o : Nat) (x : SyncObj) : (c.putObj o x).crook = c.crook := rfl
@[simp] theorem Chip.putObj_dbgLock (o : Nat) (x : SyncObj) : (c.putObj o x).dbgLock = c.dbgLock := rfl
@[simp] theorem Chip.putObj_ctxs (o : Nat) (x : SyncObj) : (c.putObj o x).ctxs = c.ctxs := rfl
@[simp] theorem Chip.putObj_sb (o : Nat) (x : SyncObj) : (c.putObj o x).sb = c.sb := rfl
@[simp] theorem Chip.putObj_fetched (o : Nat) (x : SyncObj) : (c.putObj o x).fetched = c.fetched := rfl
@[simp] theorem Chip.putObj_readied (o : Nat) (x : SyncObj) : (c.putObj o x).readied = c.readied := rfl
@[simp] theorem Chip.putObj_channels (o : Nat) (x : SyncObj) : (c.putObj o x).channels = c.channels := rfl
@[simp] theorem Chip.putObj_pools (o : Nat) (x : SyncObj) : (c.putObj o x).pools = c.pools := rfl
@[simp] theorem Chip.putObj_pasts (o : Nat) (x : SyncObj) : (c.putObj o x).pasts = c.pasts := rfl
@[simp] theorem Chip.putObj_sliceQ (o : Nat) (x : SyncObj) : (c.putObj o x).sliceQ = c.sliceQ := rfl
@[simp] theorem Chip.putObj_ladders (o : Nat) (x : SyncObj) : (c.putObj o x).ladders = c.ladders := rfl
@[simp] theorem Chip.putObj_merge (o : Nat) (x : SyncObj) : (c.putObj o x).merge = c.merge := rfl
@[simp] theorem Chip.putObj_units (o : Nat) (x : SyncObj) : (c.putObj o x).units = c.units := rfl
@[simp] theorem Chip.putObj_disagree (o : Nat) (x : SyncObj) : (c.putObj o x).disagree = c.disagree := rfl
@[simp] theorem Chip.putObj_clearings (o : Nat) (x : SyncObj) : (c.putObj o x).clearings = c.clearings := rfl
@[simp] theorem Chip.putObj_inFlight (o : Nat) (x : SyncObj) : (c.putObj o x).inFlight = c.inFlight := rfl
@[simp] theorem Chip.putObj_leaving (o : Nat) (x : SyncObj) : (c.putObj o x).leaving = c.leaving := rfl
@[simp] theorem Chip.putObj_answer (o : Nat) (x : SyncObj) : (c.putObj o x).answer = c.answer := rfl
@[simp] theorem Chip.putObj_free (o : Nat) (x : SyncObj) : (c.putObj o x).free = c.free := rfl
@[simp] theorem Chip.putVlink_fuses (d i : Nat) (v : VLink) : (c.putVlink d i v).fuses = c.fuses := rfl
@[simp] theorem Chip.putVlink_rtc (d i : Nat) (v : VLink) : (c.putVlink d i v).rtc = c.rtc := rfl
@[simp] theorem Chip.putVlink_now (d i : Nat) (v : VLink) : (c.putVlink d i v).now = c.now := rfl
@[simp] theorem Chip.putVlink_latches (d i : Nat) (v : VLink) : (c.putVlink d i v).latches = c.latches := rfl
@[simp] theorem Chip.putVlink_routes (d i : Nat) (v : VLink) : (c.putVlink d i v).routes = c.routes := rfl
@[simp] theorem Chip.putVlink_wakeCounts (d i : Nat) (v : VLink) : (c.putVlink d i v).wakeCounts = c.wakeCounts := rfl
@[simp] theorem Chip.putVlink_next (d i : Nat) (v : VLink) : (c.putVlink d i v).next = c.next := rfl
@[simp] theorem Chip.putVlink_nv (d i : Nat) (v : VLink) : (c.putVlink d i v).nv = c.nv := rfl
@[simp] theorem Chip.putVlink_held (d i : Nat) (v : VLink) : (c.putVlink d i v).held = c.held := rfl
@[simp] theorem Chip.putVlink_porLow (d i : Nat) (v : VLink) : (c.putVlink d i v).porLow = c.porLow := rfl
@[simp] theorem Chip.putVlink_railsOut (d i : Nat) (v : VLink) : (c.putVlink d i v).railsOut = c.railsOut := rfl
@[simp] theorem Chip.putVlink_pins (d i : Nat) (v : VLink) : (c.putVlink d i v).pins = c.pins := rfl
@[simp] theorem Chip.putVlink_thermTrip (d i : Nat) (v : VLink) : (c.putVlink d i v).thermTrip = c.thermTrip := rfl
@[simp] theorem Chip.putVlink_pages (d i : Nat) (v : VLink) : (c.putVlink d i v).pages = c.pages := rfl
@[simp] theorem Chip.putVlink_tiles (d i : Nat) (v : VLink) : (c.putVlink d i v).tiles = c.tiles := rfl
@[simp] theorem Chip.putVlink_commons (d i : Nat) (v : VLink) : (c.putVlink d i v).commons = c.commons := rfl
@[simp] theorem Chip.putVlink_crookBank (d i : Nat) (v : VLink) : (c.putVlink d i v).crookBank = c.crookBank := rfl
@[simp] theorem Chip.putVlink_streamBanks (d i : Nat) (v : VLink) : (c.putVlink d i v).streamBanks = c.streamBanks := rfl
@[simp] theorem Chip.putVlink_coreDoms (d i : Nat) (v : VLink) : (c.putVlink d i v).coreDoms = c.coreDoms := rfl
@[simp] theorem Chip.putVlink_routerDoms (d i : Nat) (v : VLink) : (c.putVlink d i v).routerDoms = c.routerDoms := rfl
@[simp] theorem Chip.putVlink_doms (d i : Nat) (v : VLink) : (c.putVlink d i v).doms = c.doms := rfl
@[simp] theorem Chip.putVlink_wakes (d i : Nat) (v : VLink) : (c.putVlink d i v).wakes = c.wakes := rfl
@[simp] theorem Chip.putVlink_heldWakes (d i : Nat) (v : VLink) : (c.putVlink d i v).heldWakes = c.heldWakes := rfl
@[simp] theorem Chip.putVlink_dies (d i : Nat) (v : VLink) : (c.putVlink d i v).dies = c.dies := rfl
@[simp] theorem Chip.putVlink_gate (d i : Nat) (v : VLink) : (c.putVlink d i v).gate = c.gate := rfl
@[simp] theorem Chip.putVlink_host (d i : Nat) (v : VLink) : (c.putVlink d i v).host = c.host := rfl
@[simp] theorem Chip.putVlink_reads (d i : Nat) (v : VLink) : (c.putVlink d i v).reads = c.reads := rfl
@[simp] theorem Chip.putVlink_streams (d i : Nat) (v : VLink) : (c.putVlink d i v).streams = c.streams := rfl
@[simp] theorem Chip.putVlink_aers (d i : Nat) (v : VLink) : (c.putVlink d i v).aers = c.aers := rfl
@[simp] theorem Chip.putVlink_links (d i : Nat) (v : VLink) : (c.putVlink d i v).links = c.links := rfl
@[simp] theorem Chip.putVlink_lsmap (d i : Nat) (v : VLink) : (c.putVlink d i v).lsmap = c.lsmap := rfl
@[simp] theorem Chip.putVlink_crook (d i : Nat) (v : VLink) : (c.putVlink d i v).crook = c.crook := rfl
@[simp] theorem Chip.putVlink_dbgLock (d i : Nat) (v : VLink) : (c.putVlink d i v).dbgLock = c.dbgLock := rfl
@[simp] theorem Chip.putVlink_ctxs (d i : Nat) (v : VLink) : (c.putVlink d i v).ctxs = c.ctxs := rfl
@[simp] theorem Chip.putVlink_sb (d i : Nat) (v : VLink) : (c.putVlink d i v).sb = c.sb := rfl
@[simp] theorem Chip.putVlink_fetched (d i : Nat) (v : VLink) : (c.putVlink d i v).fetched = c.fetched := rfl
@[simp] theorem Chip.putVlink_readied (d i : Nat) (v : VLink) : (c.putVlink d i v).readied = c.readied := rfl
@[simp] theorem Chip.putVlink_objs (d i : Nat) (v : VLink) : (c.putVlink d i v).objs = c.objs := rfl
@[simp] theorem Chip.putVlink_channels (d i : Nat) (v : VLink) : (c.putVlink d i v).channels = c.channels := rfl
@[simp] theorem Chip.putVlink_pools (d i : Nat) (v : VLink) : (c.putVlink d i v).pools = c.pools := rfl
@[simp] theorem Chip.putVlink_pasts (d i : Nat) (v : VLink) : (c.putVlink d i v).pasts = c.pasts := rfl
@[simp] theorem Chip.putVlink_sliceQ (d i : Nat) (v : VLink) : (c.putVlink d i v).sliceQ = c.sliceQ := rfl
@[simp] theorem Chip.putVlink_ladders (d i : Nat) (v : VLink) : (c.putVlink d i v).ladders = c.ladders := rfl
@[simp] theorem Chip.putVlink_merge (d i : Nat) (v : VLink) : (c.putVlink d i v).merge = c.merge := rfl
@[simp] theorem Chip.putVlink_units (d i : Nat) (v : VLink) : (c.putVlink d i v).units = c.units := rfl
@[simp] theorem Chip.putVlink_disagree (d i : Nat) (v : VLink) : (c.putVlink d i v).disagree = c.disagree := rfl
@[simp] theorem Chip.putVlink_clearings (d i : Nat) (v : VLink) : (c.putVlink d i v).clearings = c.clearings := rfl
@[simp] theorem Chip.putVlink_inFlight (d i : Nat) (v : VLink) : (c.putVlink d i v).inFlight = c.inFlight := rfl
@[simp] theorem Chip.putVlink_leaving (d i : Nat) (v : VLink) : (c.putVlink d i v).leaving = c.leaving := rfl
@[simp] theorem Chip.putVlink_answer (d i : Nat) (v : VLink) : (c.putVlink d i v).answer = c.answer := rfl
@[simp] theorem Chip.putVlink_free (d i : Nat) (v : VLink) : (c.putVlink d i v).free = c.free := rfl
@[simp] theorem Chip.putLink_fuses (k : Nat) (l : Link) : (c.putLink k l).fuses = c.fuses := rfl
@[simp] theorem Chip.putLink_rtc (k : Nat) (l : Link) : (c.putLink k l).rtc = c.rtc := rfl
@[simp] theorem Chip.putLink_now (k : Nat) (l : Link) : (c.putLink k l).now = c.now := rfl
@[simp] theorem Chip.putLink_latches (k : Nat) (l : Link) : (c.putLink k l).latches = c.latches := rfl
@[simp] theorem Chip.putLink_routes (k : Nat) (l : Link) : (c.putLink k l).routes = c.routes := rfl
@[simp] theorem Chip.putLink_wakeCounts (k : Nat) (l : Link) : (c.putLink k l).wakeCounts = c.wakeCounts := rfl
@[simp] theorem Chip.putLink_next (k : Nat) (l : Link) : (c.putLink k l).next = c.next := rfl
@[simp] theorem Chip.putLink_nv (k : Nat) (l : Link) : (c.putLink k l).nv = c.nv := rfl
@[simp] theorem Chip.putLink_held (k : Nat) (l : Link) : (c.putLink k l).held = c.held := rfl
@[simp] theorem Chip.putLink_porLow (k : Nat) (l : Link) : (c.putLink k l).porLow = c.porLow := rfl
@[simp] theorem Chip.putLink_railsOut (k : Nat) (l : Link) : (c.putLink k l).railsOut = c.railsOut := rfl
@[simp] theorem Chip.putLink_pins (k : Nat) (l : Link) : (c.putLink k l).pins = c.pins := rfl
@[simp] theorem Chip.putLink_thermTrip (k : Nat) (l : Link) : (c.putLink k l).thermTrip = c.thermTrip := rfl
@[simp] theorem Chip.putLink_pages (k : Nat) (l : Link) : (c.putLink k l).pages = c.pages := rfl
@[simp] theorem Chip.putLink_tiles (k : Nat) (l : Link) : (c.putLink k l).tiles = c.tiles := rfl
@[simp] theorem Chip.putLink_commons (k : Nat) (l : Link) : (c.putLink k l).commons = c.commons := rfl
@[simp] theorem Chip.putLink_crookBank (k : Nat) (l : Link) : (c.putLink k l).crookBank = c.crookBank := rfl
@[simp] theorem Chip.putLink_streamBanks (k : Nat) (l : Link) : (c.putLink k l).streamBanks = c.streamBanks := rfl
@[simp] theorem Chip.putLink_coreDoms (k : Nat) (l : Link) : (c.putLink k l).coreDoms = c.coreDoms := rfl
@[simp] theorem Chip.putLink_routerDoms (k : Nat) (l : Link) : (c.putLink k l).routerDoms = c.routerDoms := rfl
@[simp] theorem Chip.putLink_doms (k : Nat) (l : Link) : (c.putLink k l).doms = c.doms := rfl
@[simp] theorem Chip.putLink_wakes (k : Nat) (l : Link) : (c.putLink k l).wakes = c.wakes := rfl
@[simp] theorem Chip.putLink_heldWakes (k : Nat) (l : Link) : (c.putLink k l).heldWakes = c.heldWakes := rfl
@[simp] theorem Chip.putLink_dies (k : Nat) (l : Link) : (c.putLink k l).dies = c.dies := rfl
@[simp] theorem Chip.putLink_vlinks (k : Nat) (l : Link) : (c.putLink k l).vlinks = c.vlinks := rfl
@[simp] theorem Chip.putLink_gate (k : Nat) (l : Link) : (c.putLink k l).gate = c.gate := rfl
@[simp] theorem Chip.putLink_host (k : Nat) (l : Link) : (c.putLink k l).host = c.host := rfl
@[simp] theorem Chip.putLink_reads (k : Nat) (l : Link) : (c.putLink k l).reads = c.reads := rfl
@[simp] theorem Chip.putLink_streams (k : Nat) (l : Link) : (c.putLink k l).streams = c.streams := rfl
@[simp] theorem Chip.putLink_aers (k : Nat) (l : Link) : (c.putLink k l).aers = c.aers := rfl
@[simp] theorem Chip.putLink_lsmap (k : Nat) (l : Link) : (c.putLink k l).lsmap = c.lsmap := rfl
@[simp] theorem Chip.putLink_crook (k : Nat) (l : Link) : (c.putLink k l).crook = c.crook := rfl
@[simp] theorem Chip.putLink_dbgLock (k : Nat) (l : Link) : (c.putLink k l).dbgLock = c.dbgLock := rfl
@[simp] theorem Chip.putLink_ctxs (k : Nat) (l : Link) : (c.putLink k l).ctxs = c.ctxs := rfl
@[simp] theorem Chip.putLink_sb (k : Nat) (l : Link) : (c.putLink k l).sb = c.sb := rfl
@[simp] theorem Chip.putLink_fetched (k : Nat) (l : Link) : (c.putLink k l).fetched = c.fetched := rfl
@[simp] theorem Chip.putLink_readied (k : Nat) (l : Link) : (c.putLink k l).readied = c.readied := rfl
@[simp] theorem Chip.putLink_objs (k : Nat) (l : Link) : (c.putLink k l).objs = c.objs := rfl
@[simp] theorem Chip.putLink_channels (k : Nat) (l : Link) : (c.putLink k l).channels = c.channels := rfl
@[simp] theorem Chip.putLink_pools (k : Nat) (l : Link) : (c.putLink k l).pools = c.pools := rfl
@[simp] theorem Chip.putLink_pasts (k : Nat) (l : Link) : (c.putLink k l).pasts = c.pasts := rfl
@[simp] theorem Chip.putLink_sliceQ (k : Nat) (l : Link) : (c.putLink k l).sliceQ = c.sliceQ := rfl
@[simp] theorem Chip.putLink_ladders (k : Nat) (l : Link) : (c.putLink k l).ladders = c.ladders := rfl
@[simp] theorem Chip.putLink_merge (k : Nat) (l : Link) : (c.putLink k l).merge = c.merge := rfl
@[simp] theorem Chip.putLink_units (k : Nat) (l : Link) : (c.putLink k l).units = c.units := rfl
@[simp] theorem Chip.putLink_disagree (k : Nat) (l : Link) : (c.putLink k l).disagree = c.disagree := rfl
@[simp] theorem Chip.putLink_clearings (k : Nat) (l : Link) : (c.putLink k l).clearings = c.clearings := rfl
@[simp] theorem Chip.putLink_inFlight (k : Nat) (l : Link) : (c.putLink k l).inFlight = c.inFlight := rfl
@[simp] theorem Chip.putLink_leaving (k : Nat) (l : Link) : (c.putLink k l).leaving = c.leaving := rfl
@[simp] theorem Chip.putLink_answer (k : Nat) (l : Link) : (c.putLink k l).answer = c.answer := rfl
@[simp] theorem Chip.putLink_free (k : Nat) (l : Link) : (c.putLink k l).free = c.free := rfl
@[simp] theorem Chip.send_fuses (m : List Nat) : (c.send m).fuses = c.fuses := rfl
@[simp] theorem Chip.send_rtc (m : List Nat) : (c.send m).rtc = c.rtc := rfl
@[simp] theorem Chip.send_now (m : List Nat) : (c.send m).now = c.now := rfl
@[simp] theorem Chip.send_latches (m : List Nat) : (c.send m).latches = c.latches := rfl
@[simp] theorem Chip.send_routes (m : List Nat) : (c.send m).routes = c.routes := rfl
@[simp] theorem Chip.send_wakeCounts (m : List Nat) : (c.send m).wakeCounts = c.wakeCounts := rfl
@[simp] theorem Chip.send_next (m : List Nat) : (c.send m).next = c.next := rfl
@[simp] theorem Chip.send_nv (m : List Nat) : (c.send m).nv = c.nv := rfl
@[simp] theorem Chip.send_held (m : List Nat) : (c.send m).held = c.held := rfl
@[simp] theorem Chip.send_porLow (m : List Nat) : (c.send m).porLow = c.porLow := rfl
@[simp] theorem Chip.send_railsOut (m : List Nat) : (c.send m).railsOut = c.railsOut := rfl
@[simp] theorem Chip.send_pins (m : List Nat) : (c.send m).pins = c.pins := rfl
@[simp] theorem Chip.send_thermTrip (m : List Nat) : (c.send m).thermTrip = c.thermTrip := rfl
@[simp] theorem Chip.send_pages (m : List Nat) : (c.send m).pages = c.pages := rfl
@[simp] theorem Chip.send_tiles (m : List Nat) : (c.send m).tiles = c.tiles := rfl
@[simp] theorem Chip.send_commons (m : List Nat) : (c.send m).commons = c.commons := rfl
@[simp] theorem Chip.send_crookBank (m : List Nat) : (c.send m).crookBank = c.crookBank := rfl
@[simp] theorem Chip.send_streamBanks (m : List Nat) : (c.send m).streamBanks = c.streamBanks := rfl
@[simp] theorem Chip.send_coreDoms (m : List Nat) : (c.send m).coreDoms = c.coreDoms := rfl
@[simp] theorem Chip.send_routerDoms (m : List Nat) : (c.send m).routerDoms = c.routerDoms := rfl
@[simp] theorem Chip.send_doms (m : List Nat) : (c.send m).doms = c.doms := rfl
@[simp] theorem Chip.send_wakes (m : List Nat) : (c.send m).wakes = c.wakes := rfl
@[simp] theorem Chip.send_heldWakes (m : List Nat) : (c.send m).heldWakes = c.heldWakes := rfl
@[simp] theorem Chip.send_dies (m : List Nat) : (c.send m).dies = c.dies := rfl
@[simp] theorem Chip.send_vlinks (m : List Nat) : (c.send m).vlinks = c.vlinks := rfl
@[simp] theorem Chip.send_gate (m : List Nat) : (c.send m).gate = c.gate := rfl
@[simp] theorem Chip.send_host (m : List Nat) : (c.send m).host = c.host := rfl
@[simp] theorem Chip.send_reads (m : List Nat) : (c.send m).reads = c.reads := rfl
@[simp] theorem Chip.send_streams (m : List Nat) : (c.send m).streams = c.streams := rfl
@[simp] theorem Chip.send_aers (m : List Nat) : (c.send m).aers = c.aers := rfl
@[simp] theorem Chip.send_links (m : List Nat) : (c.send m).links = c.links := rfl
@[simp] theorem Chip.send_lsmap (m : List Nat) : (c.send m).lsmap = c.lsmap := rfl
@[simp] theorem Chip.send_crook (m : List Nat) : (c.send m).crook = c.crook := rfl
@[simp] theorem Chip.send_dbgLock (m : List Nat) : (c.send m).dbgLock = c.dbgLock := rfl
@[simp] theorem Chip.send_ctxs (m : List Nat) : (c.send m).ctxs = c.ctxs := rfl
@[simp] theorem Chip.send_sb (m : List Nat) : (c.send m).sb = c.sb := rfl
@[simp] theorem Chip.send_fetched (m : List Nat) : (c.send m).fetched = c.fetched := rfl
@[simp] theorem Chip.send_readied (m : List Nat) : (c.send m).readied = c.readied := rfl
@[simp] theorem Chip.send_objs (m : List Nat) : (c.send m).objs = c.objs := rfl
@[simp] theorem Chip.send_channels (m : List Nat) : (c.send m).channels = c.channels := rfl
@[simp] theorem Chip.send_pools (m : List Nat) : (c.send m).pools = c.pools := rfl
@[simp] theorem Chip.send_pasts (m : List Nat) : (c.send m).pasts = c.pasts := rfl
@[simp] theorem Chip.send_sliceQ (m : List Nat) : (c.send m).sliceQ = c.sliceQ := rfl
@[simp] theorem Chip.send_ladders (m : List Nat) : (c.send m).ladders = c.ladders := rfl
@[simp] theorem Chip.send_merge (m : List Nat) : (c.send m).merge = c.merge := rfl
@[simp] theorem Chip.send_units (m : List Nat) : (c.send m).units = c.units := rfl
@[simp] theorem Chip.send_disagree (m : List Nat) : (c.send m).disagree = c.disagree := rfl
@[simp] theorem Chip.send_clearings (m : List Nat) : (c.send m).clearings = c.clearings := rfl
@[simp] theorem Chip.send_leaving (m : List Nat) : (c.send m).leaving = c.leaving := rfl
@[simp] theorem Chip.send_answer (m : List Nat) : (c.send m).answer = c.answer := rfl
@[simp] theorem Chip.send_free (m : List Nat) : (c.send m).free = c.free := rfl
@[simp] theorem Chip.sendAll_fuses (l : List (List Nat)) : (c.sendAll l).fuses = c.fuses := rfl
@[simp] theorem Chip.sendAll_rtc (l : List (List Nat)) : (c.sendAll l).rtc = c.rtc := rfl
@[simp] theorem Chip.sendAll_now (l : List (List Nat)) : (c.sendAll l).now = c.now := rfl
@[simp] theorem Chip.sendAll_latches (l : List (List Nat)) : (c.sendAll l).latches = c.latches := rfl
@[simp] theorem Chip.sendAll_routes (l : List (List Nat)) : (c.sendAll l).routes = c.routes := rfl
@[simp] theorem Chip.sendAll_wakeCounts (l : List (List Nat)) : (c.sendAll l).wakeCounts = c.wakeCounts := rfl
@[simp] theorem Chip.sendAll_next (l : List (List Nat)) : (c.sendAll l).next = c.next := rfl
@[simp] theorem Chip.sendAll_nv (l : List (List Nat)) : (c.sendAll l).nv = c.nv := rfl
@[simp] theorem Chip.sendAll_held (l : List (List Nat)) : (c.sendAll l).held = c.held := rfl
@[simp] theorem Chip.sendAll_porLow (l : List (List Nat)) : (c.sendAll l).porLow = c.porLow := rfl
@[simp] theorem Chip.sendAll_railsOut (l : List (List Nat)) : (c.sendAll l).railsOut = c.railsOut := rfl
@[simp] theorem Chip.sendAll_pins (l : List (List Nat)) : (c.sendAll l).pins = c.pins := rfl
@[simp] theorem Chip.sendAll_thermTrip (l : List (List Nat)) : (c.sendAll l).thermTrip = c.thermTrip := rfl
@[simp] theorem Chip.sendAll_pages (l : List (List Nat)) : (c.sendAll l).pages = c.pages := rfl
@[simp] theorem Chip.sendAll_tiles (l : List (List Nat)) : (c.sendAll l).tiles = c.tiles := rfl
@[simp] theorem Chip.sendAll_commons (l : List (List Nat)) : (c.sendAll l).commons = c.commons := rfl
@[simp] theorem Chip.sendAll_crookBank (l : List (List Nat)) : (c.sendAll l).crookBank = c.crookBank := rfl
@[simp] theorem Chip.sendAll_streamBanks (l : List (List Nat)) : (c.sendAll l).streamBanks = c.streamBanks := rfl
@[simp] theorem Chip.sendAll_coreDoms (l : List (List Nat)) : (c.sendAll l).coreDoms = c.coreDoms := rfl
@[simp] theorem Chip.sendAll_routerDoms (l : List (List Nat)) : (c.sendAll l).routerDoms = c.routerDoms := rfl
@[simp] theorem Chip.sendAll_doms (l : List (List Nat)) : (c.sendAll l).doms = c.doms := rfl
@[simp] theorem Chip.sendAll_wakes (l : List (List Nat)) : (c.sendAll l).wakes = c.wakes := rfl
@[simp] theorem Chip.sendAll_heldWakes (l : List (List Nat)) : (c.sendAll l).heldWakes = c.heldWakes := rfl
@[simp] theorem Chip.sendAll_dies (l : List (List Nat)) : (c.sendAll l).dies = c.dies := rfl
@[simp] theorem Chip.sendAll_vlinks (l : List (List Nat)) : (c.sendAll l).vlinks = c.vlinks := rfl
@[simp] theorem Chip.sendAll_gate (l : List (List Nat)) : (c.sendAll l).gate = c.gate := rfl
@[simp] theorem Chip.sendAll_host (l : List (List Nat)) : (c.sendAll l).host = c.host := rfl
@[simp] theorem Chip.sendAll_reads (l : List (List Nat)) : (c.sendAll l).reads = c.reads := rfl
@[simp] theorem Chip.sendAll_streams (l : List (List Nat)) : (c.sendAll l).streams = c.streams := rfl
@[simp] theorem Chip.sendAll_aers (l : List (List Nat)) : (c.sendAll l).aers = c.aers := rfl
@[simp] theorem Chip.sendAll_links (l : List (List Nat)) : (c.sendAll l).links = c.links := rfl
@[simp] theorem Chip.sendAll_lsmap (l : List (List Nat)) : (c.sendAll l).lsmap = c.lsmap := rfl
@[simp] theorem Chip.sendAll_crook (l : List (List Nat)) : (c.sendAll l).crook = c.crook := rfl
@[simp] theorem Chip.sendAll_dbgLock (l : List (List Nat)) : (c.sendAll l).dbgLock = c.dbgLock := rfl
@[simp] theorem Chip.sendAll_ctxs (l : List (List Nat)) : (c.sendAll l).ctxs = c.ctxs := rfl
@[simp] theorem Chip.sendAll_sb (l : List (List Nat)) : (c.sendAll l).sb = c.sb := rfl
@[simp] theorem Chip.sendAll_fetched (l : List (List Nat)) : (c.sendAll l).fetched = c.fetched := rfl
@[simp] theorem Chip.sendAll_readied (l : List (List Nat)) : (c.sendAll l).readied = c.readied := rfl
@[simp] theorem Chip.sendAll_objs (l : List (List Nat)) : (c.sendAll l).objs = c.objs := rfl
@[simp] theorem Chip.sendAll_channels (l : List (List Nat)) : (c.sendAll l).channels = c.channels := rfl
@[simp] theorem Chip.sendAll_pools (l : List (List Nat)) : (c.sendAll l).pools = c.pools := rfl
@[simp] theorem Chip.sendAll_pasts (l : List (List Nat)) : (c.sendAll l).pasts = c.pasts := rfl
@[simp] theorem Chip.sendAll_sliceQ (l : List (List Nat)) : (c.sendAll l).sliceQ = c.sliceQ := rfl
@[simp] theorem Chip.sendAll_ladders (l : List (List Nat)) : (c.sendAll l).ladders = c.ladders := rfl
@[simp] theorem Chip.sendAll_merge (l : List (List Nat)) : (c.sendAll l).merge = c.merge := rfl
@[simp] theorem Chip.sendAll_units (l : List (List Nat)) : (c.sendAll l).units = c.units := rfl
@[simp] theorem Chip.sendAll_disagree (l : List (List Nat)) : (c.sendAll l).disagree = c.disagree := rfl
@[simp] theorem Chip.sendAll_clearings (l : List (List Nat)) : (c.sendAll l).clearings = c.clearings := rfl
@[simp] theorem Chip.sendAll_leaving (l : List (List Nat)) : (c.sendAll l).leaving = c.leaving := rfl
@[simp] theorem Chip.sendAll_answer (l : List (List Nat)) : (c.sendAll l).answer = c.answer := rfl
@[simp] theorem Chip.sendAll_free (l : List (List Nat)) : (c.sendAll l).free = c.free := rfl
@[simp] theorem Chip.sendFrom_fuses (p : Nat) (l : List (List Nat)) : (c.sendFrom p l).fuses = c.fuses := rfl
@[simp] theorem Chip.sendFrom_rtc (p : Nat) (l : List (List Nat)) : (c.sendFrom p l).rtc = c.rtc := rfl
@[simp] theorem Chip.sendFrom_now (p : Nat) (l : List (List Nat)) : (c.sendFrom p l).now = c.now := rfl
@[simp] theorem Chip.sendFrom_latches (p : Nat) (l : List (List Nat)) : (c.sendFrom p l).latches = c.latches := rfl
@[simp] theorem Chip.sendFrom_routes (p : Nat) (l : List (List Nat)) : (c.sendFrom p l).routes = c.routes := rfl
@[simp] theorem Chip.sendFrom_wakeCounts (p : Nat) (l : List (List Nat)) : (c.sendFrom p l).wakeCounts = c.wakeCounts := rfl
@[simp] theorem Chip.sendFrom_next (p : Nat) (l : List (List Nat)) : (c.sendFrom p l).next = c.next := rfl
@[simp] theorem Chip.sendFrom_nv (p : Nat) (l : List (List Nat)) : (c.sendFrom p l).nv = c.nv := rfl
@[simp] theorem Chip.sendFrom_held (p : Nat) (l : List (List Nat)) : (c.sendFrom p l).held = c.held := rfl
@[simp] theorem Chip.sendFrom_porLow (p : Nat) (l : List (List Nat)) : (c.sendFrom p l).porLow = c.porLow := rfl
@[simp] theorem Chip.sendFrom_railsOut (p : Nat) (l : List (List Nat)) : (c.sendFrom p l).railsOut = c.railsOut := rfl
@[simp] theorem Chip.sendFrom_pins (p : Nat) (l : List (List Nat)) : (c.sendFrom p l).pins = c.pins := rfl
@[simp] theorem Chip.sendFrom_thermTrip (p : Nat) (l : List (List Nat)) : (c.sendFrom p l).thermTrip = c.thermTrip := rfl
@[simp] theorem Chip.sendFrom_pages (p : Nat) (l : List (List Nat)) : (c.sendFrom p l).pages = c.pages := rfl
@[simp] theorem Chip.sendFrom_tiles (p : Nat) (l : List (List Nat)) : (c.sendFrom p l).tiles = c.tiles := rfl
@[simp] theorem Chip.sendFrom_commons (p : Nat) (l : List (List Nat)) : (c.sendFrom p l).commons = c.commons := rfl
@[simp] theorem Chip.sendFrom_crookBank (p : Nat) (l : List (List Nat)) : (c.sendFrom p l).crookBank = c.crookBank := rfl
@[simp] theorem Chip.sendFrom_streamBanks (p : Nat) (l : List (List Nat)) : (c.sendFrom p l).streamBanks = c.streamBanks := rfl
@[simp] theorem Chip.sendFrom_coreDoms (p : Nat) (l : List (List Nat)) : (c.sendFrom p l).coreDoms = c.coreDoms := rfl
@[simp] theorem Chip.sendFrom_routerDoms (p : Nat) (l : List (List Nat)) : (c.sendFrom p l).routerDoms = c.routerDoms := rfl
@[simp] theorem Chip.sendFrom_doms (p : Nat) (l : List (List Nat)) : (c.sendFrom p l).doms = c.doms := rfl
@[simp] theorem Chip.sendFrom_wakes (p : Nat) (l : List (List Nat)) : (c.sendFrom p l).wakes = c.wakes := rfl
@[simp] theorem Chip.sendFrom_heldWakes (p : Nat) (l : List (List Nat)) : (c.sendFrom p l).heldWakes = c.heldWakes := rfl
@[simp] theorem Chip.sendFrom_dies (p : Nat) (l : List (List Nat)) : (c.sendFrom p l).dies = c.dies := rfl
@[simp] theorem Chip.sendFrom_vlinks (p : Nat) (l : List (List Nat)) : (c.sendFrom p l).vlinks = c.vlinks := rfl
@[simp] theorem Chip.sendFrom_gate (p : Nat) (l : List (List Nat)) : (c.sendFrom p l).gate = c.gate := rfl
@[simp] theorem Chip.sendFrom_host (p : Nat) (l : List (List Nat)) : (c.sendFrom p l).host = c.host := rfl
@[simp] theorem Chip.sendFrom_reads (p : Nat) (l : List (List Nat)) : (c.sendFrom p l).reads = c.reads := rfl
@[simp] theorem Chip.sendFrom_streams (p : Nat) (l : List (List Nat)) : (c.sendFrom p l).streams = c.streams := rfl
@[simp] theorem Chip.sendFrom_aers (p : Nat) (l : List (List Nat)) : (c.sendFrom p l).aers = c.aers := rfl
@[simp] theorem Chip.sendFrom_links (p : Nat) (l : List (List Nat)) : (c.sendFrom p l).links = c.links := rfl
@[simp] theorem Chip.sendFrom_lsmap (p : Nat) (l : List (List Nat)) : (c.sendFrom p l).lsmap = c.lsmap := rfl
@[simp] theorem Chip.sendFrom_crook (p : Nat) (l : List (List Nat)) : (c.sendFrom p l).crook = c.crook := rfl
@[simp] theorem Chip.sendFrom_dbgLock (p : Nat) (l : List (List Nat)) : (c.sendFrom p l).dbgLock = c.dbgLock := rfl
@[simp] theorem Chip.sendFrom_ctxs (p : Nat) (l : List (List Nat)) : (c.sendFrom p l).ctxs = c.ctxs := rfl
@[simp] theorem Chip.sendFrom_sb (p : Nat) (l : List (List Nat)) : (c.sendFrom p l).sb = c.sb := rfl
@[simp] theorem Chip.sendFrom_fetched (p : Nat) (l : List (List Nat)) : (c.sendFrom p l).fetched = c.fetched := rfl
@[simp] theorem Chip.sendFrom_readied (p : Nat) (l : List (List Nat)) : (c.sendFrom p l).readied = c.readied := rfl
@[simp] theorem Chip.sendFrom_objs (p : Nat) (l : List (List Nat)) : (c.sendFrom p l).objs = c.objs := rfl
@[simp] theorem Chip.sendFrom_channels (p : Nat) (l : List (List Nat)) : (c.sendFrom p l).channels = c.channels := rfl
@[simp] theorem Chip.sendFrom_pools (p : Nat) (l : List (List Nat)) : (c.sendFrom p l).pools = c.pools := rfl
@[simp] theorem Chip.sendFrom_pasts (p : Nat) (l : List (List Nat)) : (c.sendFrom p l).pasts = c.pasts := rfl
@[simp] theorem Chip.sendFrom_sliceQ (p : Nat) (l : List (List Nat)) : (c.sendFrom p l).sliceQ = c.sliceQ := rfl
@[simp] theorem Chip.sendFrom_ladders (p : Nat) (l : List (List Nat)) : (c.sendFrom p l).ladders = c.ladders := rfl
@[simp] theorem Chip.sendFrom_merge (p : Nat) (l : List (List Nat)) : (c.sendFrom p l).merge = c.merge := rfl
@[simp] theorem Chip.sendFrom_units (p : Nat) (l : List (List Nat)) : (c.sendFrom p l).units = c.units := rfl
@[simp] theorem Chip.sendFrom_disagree (p : Nat) (l : List (List Nat)) : (c.sendFrom p l).disagree = c.disagree := rfl
@[simp] theorem Chip.sendFrom_clearings (p : Nat) (l : List (List Nat)) : (c.sendFrom p l).clearings = c.clearings := rfl
@[simp] theorem Chip.sendFrom_leaving (p : Nat) (l : List (List Nat)) : (c.sendFrom p l).leaving = c.leaving := rfl
@[simp] theorem Chip.sendFrom_answer (p : Nat) (l : List (List Nat)) : (c.sendFrom p l).answer = c.answer := rfl
@[simp] theorem Chip.sendFrom_free (p : Nat) (l : List (List Nat)) : (c.sendFrom p l).free = c.free := rfl
@[simp] theorem Chip.say_fuses (a : Answer) : (c.say a).fuses = c.fuses := rfl
@[simp] theorem Chip.say_rtc (a : Answer) : (c.say a).rtc = c.rtc := rfl
@[simp] theorem Chip.say_now (a : Answer) : (c.say a).now = c.now := rfl
@[simp] theorem Chip.say_latches (a : Answer) : (c.say a).latches = c.latches := rfl
@[simp] theorem Chip.say_routes (a : Answer) : (c.say a).routes = c.routes := rfl
@[simp] theorem Chip.say_wakeCounts (a : Answer) : (c.say a).wakeCounts = c.wakeCounts := rfl
@[simp] theorem Chip.say_next (a : Answer) : (c.say a).next = c.next := rfl
@[simp] theorem Chip.say_nv (a : Answer) : (c.say a).nv = c.nv := rfl
@[simp] theorem Chip.say_held (a : Answer) : (c.say a).held = c.held := rfl
@[simp] theorem Chip.say_porLow (a : Answer) : (c.say a).porLow = c.porLow := rfl
@[simp] theorem Chip.say_railsOut (a : Answer) : (c.say a).railsOut = c.railsOut := rfl
@[simp] theorem Chip.say_pins (a : Answer) : (c.say a).pins = c.pins := rfl
@[simp] theorem Chip.say_thermTrip (a : Answer) : (c.say a).thermTrip = c.thermTrip := rfl
@[simp] theorem Chip.say_pages (a : Answer) : (c.say a).pages = c.pages := rfl
@[simp] theorem Chip.say_tiles (a : Answer) : (c.say a).tiles = c.tiles := rfl
@[simp] theorem Chip.say_commons (a : Answer) : (c.say a).commons = c.commons := rfl
@[simp] theorem Chip.say_crookBank (a : Answer) : (c.say a).crookBank = c.crookBank := rfl
@[simp] theorem Chip.say_streamBanks (a : Answer) : (c.say a).streamBanks = c.streamBanks := rfl
@[simp] theorem Chip.say_coreDoms (a : Answer) : (c.say a).coreDoms = c.coreDoms := rfl
@[simp] theorem Chip.say_routerDoms (a : Answer) : (c.say a).routerDoms = c.routerDoms := rfl
@[simp] theorem Chip.say_doms (a : Answer) : (c.say a).doms = c.doms := rfl
@[simp] theorem Chip.say_wakes (a : Answer) : (c.say a).wakes = c.wakes := rfl
@[simp] theorem Chip.say_heldWakes (a : Answer) : (c.say a).heldWakes = c.heldWakes := rfl
@[simp] theorem Chip.say_dies (a : Answer) : (c.say a).dies = c.dies := rfl
@[simp] theorem Chip.say_vlinks (a : Answer) : (c.say a).vlinks = c.vlinks := rfl
@[simp] theorem Chip.say_gate (a : Answer) : (c.say a).gate = c.gate := rfl
@[simp] theorem Chip.say_host (a : Answer) : (c.say a).host = c.host := rfl
@[simp] theorem Chip.say_reads (a : Answer) : (c.say a).reads = c.reads := rfl
@[simp] theorem Chip.say_streams (a : Answer) : (c.say a).streams = c.streams := rfl
@[simp] theorem Chip.say_aers (a : Answer) : (c.say a).aers = c.aers := rfl
@[simp] theorem Chip.say_links (a : Answer) : (c.say a).links = c.links := rfl
@[simp] theorem Chip.say_lsmap (a : Answer) : (c.say a).lsmap = c.lsmap := rfl
@[simp] theorem Chip.say_crook (a : Answer) : (c.say a).crook = c.crook := rfl
@[simp] theorem Chip.say_dbgLock (a : Answer) : (c.say a).dbgLock = c.dbgLock := rfl
@[simp] theorem Chip.say_ctxs (a : Answer) : (c.say a).ctxs = c.ctxs := rfl
@[simp] theorem Chip.say_sb (a : Answer) : (c.say a).sb = c.sb := rfl
@[simp] theorem Chip.say_fetched (a : Answer) : (c.say a).fetched = c.fetched := rfl
@[simp] theorem Chip.say_readied (a : Answer) : (c.say a).readied = c.readied := rfl
@[simp] theorem Chip.say_objs (a : Answer) : (c.say a).objs = c.objs := rfl
@[simp] theorem Chip.say_channels (a : Answer) : (c.say a).channels = c.channels := rfl
@[simp] theorem Chip.say_pools (a : Answer) : (c.say a).pools = c.pools := rfl
@[simp] theorem Chip.say_pasts (a : Answer) : (c.say a).pasts = c.pasts := rfl
@[simp] theorem Chip.say_sliceQ (a : Answer) : (c.say a).sliceQ = c.sliceQ := rfl
@[simp] theorem Chip.say_ladders (a : Answer) : (c.say a).ladders = c.ladders := rfl
@[simp] theorem Chip.say_merge (a : Answer) : (c.say a).merge = c.merge := rfl
@[simp] theorem Chip.say_units (a : Answer) : (c.say a).units = c.units := rfl
@[simp] theorem Chip.say_disagree (a : Answer) : (c.say a).disagree = c.disagree := rfl
@[simp] theorem Chip.say_clearings (a : Answer) : (c.say a).clearings = c.clearings := rfl
@[simp] theorem Chip.say_inFlight (a : Answer) : (c.say a).inFlight = c.inFlight := rfl
@[simp] theorem Chip.say_leaving (a : Answer) : (c.say a).leaving = c.leaving := rfl
@[simp] theorem Chip.say_free (a : Answer) : (c.say a).free = c.free := rfl
@[simp] theorem Chip.putMeta_fuses (g : Nat) (m : NvMeta) : (c.putMeta g m).fuses = c.fuses := rfl
@[simp] theorem Chip.putMeta_rtc (g : Nat) (m : NvMeta) : (c.putMeta g m).rtc = c.rtc := rfl
@[simp] theorem Chip.putMeta_now (g : Nat) (m : NvMeta) : (c.putMeta g m).now = c.now := rfl
@[simp] theorem Chip.putMeta_latches (g : Nat) (m : NvMeta) : (c.putMeta g m).latches = c.latches := rfl
@[simp] theorem Chip.putMeta_routes (g : Nat) (m : NvMeta) : (c.putMeta g m).routes = c.routes := rfl
@[simp] theorem Chip.putMeta_wakeCounts (g : Nat) (m : NvMeta) : (c.putMeta g m).wakeCounts = c.wakeCounts := rfl
@[simp] theorem Chip.putMeta_next (g : Nat) (m : NvMeta) : (c.putMeta g m).next = c.next := rfl
@[simp] theorem Chip.putMeta_held (g : Nat) (m : NvMeta) : (c.putMeta g m).held = c.held := rfl
@[simp] theorem Chip.putMeta_porLow (g : Nat) (m : NvMeta) : (c.putMeta g m).porLow = c.porLow := rfl
@[simp] theorem Chip.putMeta_railsOut (g : Nat) (m : NvMeta) : (c.putMeta g m).railsOut = c.railsOut := rfl
@[simp] theorem Chip.putMeta_pins (g : Nat) (m : NvMeta) : (c.putMeta g m).pins = c.pins := rfl
@[simp] theorem Chip.putMeta_thermTrip (g : Nat) (m : NvMeta) : (c.putMeta g m).thermTrip = c.thermTrip := rfl
@[simp] theorem Chip.putMeta_pages (g : Nat) (m : NvMeta) : (c.putMeta g m).pages = c.pages := rfl
@[simp] theorem Chip.putMeta_tiles (g : Nat) (m : NvMeta) : (c.putMeta g m).tiles = c.tiles := rfl
@[simp] theorem Chip.putMeta_commons (g : Nat) (m : NvMeta) : (c.putMeta g m).commons = c.commons := rfl
@[simp] theorem Chip.putMeta_crookBank (g : Nat) (m : NvMeta) : (c.putMeta g m).crookBank = c.crookBank := rfl
@[simp] theorem Chip.putMeta_streamBanks (g : Nat) (m : NvMeta) : (c.putMeta g m).streamBanks = c.streamBanks := rfl
@[simp] theorem Chip.putMeta_coreDoms (g : Nat) (m : NvMeta) : (c.putMeta g m).coreDoms = c.coreDoms := rfl
@[simp] theorem Chip.putMeta_routerDoms (g : Nat) (m : NvMeta) : (c.putMeta g m).routerDoms = c.routerDoms := rfl
@[simp] theorem Chip.putMeta_doms (g : Nat) (m : NvMeta) : (c.putMeta g m).doms = c.doms := rfl
@[simp] theorem Chip.putMeta_wakes (g : Nat) (m : NvMeta) : (c.putMeta g m).wakes = c.wakes := rfl
@[simp] theorem Chip.putMeta_heldWakes (g : Nat) (m : NvMeta) : (c.putMeta g m).heldWakes = c.heldWakes := rfl
@[simp] theorem Chip.putMeta_dies (g : Nat) (m : NvMeta) : (c.putMeta g m).dies = c.dies := rfl
@[simp] theorem Chip.putMeta_vlinks (g : Nat) (m : NvMeta) : (c.putMeta g m).vlinks = c.vlinks := rfl
@[simp] theorem Chip.putMeta_gate (g : Nat) (m : NvMeta) : (c.putMeta g m).gate = c.gate := rfl
@[simp] theorem Chip.putMeta_host (g : Nat) (m : NvMeta) : (c.putMeta g m).host = c.host := rfl
@[simp] theorem Chip.putMeta_reads (g : Nat) (m : NvMeta) : (c.putMeta g m).reads = c.reads := rfl
@[simp] theorem Chip.putMeta_streams (g : Nat) (m : NvMeta) : (c.putMeta g m).streams = c.streams := rfl
@[simp] theorem Chip.putMeta_aers (g : Nat) (m : NvMeta) : (c.putMeta g m).aers = c.aers := rfl
@[simp] theorem Chip.putMeta_links (g : Nat) (m : NvMeta) : (c.putMeta g m).links = c.links := rfl
@[simp] theorem Chip.putMeta_lsmap (g : Nat) (m : NvMeta) : (c.putMeta g m).lsmap = c.lsmap := rfl
@[simp] theorem Chip.putMeta_crook (g : Nat) (m : NvMeta) : (c.putMeta g m).crook = c.crook := rfl
@[simp] theorem Chip.putMeta_dbgLock (g : Nat) (m : NvMeta) : (c.putMeta g m).dbgLock = c.dbgLock := rfl
@[simp] theorem Chip.putMeta_ctxs (g : Nat) (m : NvMeta) : (c.putMeta g m).ctxs = c.ctxs := rfl
@[simp] theorem Chip.putMeta_sb (g : Nat) (m : NvMeta) : (c.putMeta g m).sb = c.sb := rfl
@[simp] theorem Chip.putMeta_fetched (g : Nat) (m : NvMeta) : (c.putMeta g m).fetched = c.fetched := rfl
@[simp] theorem Chip.putMeta_readied (g : Nat) (m : NvMeta) : (c.putMeta g m).readied = c.readied := rfl
@[simp] theorem Chip.putMeta_objs (g : Nat) (m : NvMeta) : (c.putMeta g m).objs = c.objs := rfl
@[simp] theorem Chip.putMeta_channels (g : Nat) (m : NvMeta) : (c.putMeta g m).channels = c.channels := rfl
@[simp] theorem Chip.putMeta_pools (g : Nat) (m : NvMeta) : (c.putMeta g m).pools = c.pools := rfl
@[simp] theorem Chip.putMeta_pasts (g : Nat) (m : NvMeta) : (c.putMeta g m).pasts = c.pasts := rfl
@[simp] theorem Chip.putMeta_sliceQ (g : Nat) (m : NvMeta) : (c.putMeta g m).sliceQ = c.sliceQ := rfl
@[simp] theorem Chip.putMeta_ladders (g : Nat) (m : NvMeta) : (c.putMeta g m).ladders = c.ladders := rfl
@[simp] theorem Chip.putMeta_merge (g : Nat) (m : NvMeta) : (c.putMeta g m).merge = c.merge := rfl
@[simp] theorem Chip.putMeta_units (g : Nat) (m : NvMeta) : (c.putMeta g m).units = c.units := rfl
@[simp] theorem Chip.putMeta_disagree (g : Nat) (m : NvMeta) : (c.putMeta g m).disagree = c.disagree := rfl
@[simp] theorem Chip.putMeta_clearings (g : Nat) (m : NvMeta) : (c.putMeta g m).clearings = c.clearings := rfl
@[simp] theorem Chip.putMeta_inFlight (g : Nat) (m : NvMeta) : (c.putMeta g m).inFlight = c.inFlight := rfl
@[simp] theorem Chip.putMeta_leaving (g : Nat) (m : NvMeta) : (c.putMeta g m).leaving = c.leaving := rfl
@[simp] theorem Chip.putMeta_answer (g : Nat) (m : NvMeta) : (c.putMeta g m).answer = c.answer := rfl
@[simp] theorem Chip.putMeta_free (g : Nat) (m : NvMeta) : (c.putMeta g m).free = c.free := rfl
@[simp] theorem Chip.putArea_fuses (i : Nat) (a : AreaRec) : (c.putArea i a).fuses = c.fuses := rfl
@[simp] theorem Chip.putArea_rtc (i : Nat) (a : AreaRec) : (c.putArea i a).rtc = c.rtc := rfl
@[simp] theorem Chip.putArea_now (i : Nat) (a : AreaRec) : (c.putArea i a).now = c.now := rfl
@[simp] theorem Chip.putArea_latches (i : Nat) (a : AreaRec) : (c.putArea i a).latches = c.latches := rfl
@[simp] theorem Chip.putArea_routes (i : Nat) (a : AreaRec) : (c.putArea i a).routes = c.routes := rfl
@[simp] theorem Chip.putArea_wakeCounts (i : Nat) (a : AreaRec) : (c.putArea i a).wakeCounts = c.wakeCounts := rfl
@[simp] theorem Chip.putArea_next (i : Nat) (a : AreaRec) : (c.putArea i a).next = c.next := rfl
@[simp] theorem Chip.putArea_held (i : Nat) (a : AreaRec) : (c.putArea i a).held = c.held := rfl
@[simp] theorem Chip.putArea_porLow (i : Nat) (a : AreaRec) : (c.putArea i a).porLow = c.porLow := rfl
@[simp] theorem Chip.putArea_railsOut (i : Nat) (a : AreaRec) : (c.putArea i a).railsOut = c.railsOut := rfl
@[simp] theorem Chip.putArea_pins (i : Nat) (a : AreaRec) : (c.putArea i a).pins = c.pins := rfl
@[simp] theorem Chip.putArea_thermTrip (i : Nat) (a : AreaRec) : (c.putArea i a).thermTrip = c.thermTrip := rfl
@[simp] theorem Chip.putArea_pages (i : Nat) (a : AreaRec) : (c.putArea i a).pages = c.pages := rfl
@[simp] theorem Chip.putArea_tiles (i : Nat) (a : AreaRec) : (c.putArea i a).tiles = c.tiles := rfl
@[simp] theorem Chip.putArea_commons (i : Nat) (a : AreaRec) : (c.putArea i a).commons = c.commons := rfl
@[simp] theorem Chip.putArea_crookBank (i : Nat) (a : AreaRec) : (c.putArea i a).crookBank = c.crookBank := rfl
@[simp] theorem Chip.putArea_streamBanks (i : Nat) (a : AreaRec) : (c.putArea i a).streamBanks = c.streamBanks := rfl
@[simp] theorem Chip.putArea_coreDoms (i : Nat) (a : AreaRec) : (c.putArea i a).coreDoms = c.coreDoms := rfl
@[simp] theorem Chip.putArea_routerDoms (i : Nat) (a : AreaRec) : (c.putArea i a).routerDoms = c.routerDoms := rfl
@[simp] theorem Chip.putArea_doms (i : Nat) (a : AreaRec) : (c.putArea i a).doms = c.doms := rfl
@[simp] theorem Chip.putArea_wakes (i : Nat) (a : AreaRec) : (c.putArea i a).wakes = c.wakes := rfl
@[simp] theorem Chip.putArea_heldWakes (i : Nat) (a : AreaRec) : (c.putArea i a).heldWakes = c.heldWakes := rfl
@[simp] theorem Chip.putArea_dies (i : Nat) (a : AreaRec) : (c.putArea i a).dies = c.dies := rfl
@[simp] theorem Chip.putArea_vlinks (i : Nat) (a : AreaRec) : (c.putArea i a).vlinks = c.vlinks := rfl
@[simp] theorem Chip.putArea_gate (i : Nat) (a : AreaRec) : (c.putArea i a).gate = c.gate := rfl
@[simp] theorem Chip.putArea_host (i : Nat) (a : AreaRec) : (c.putArea i a).host = c.host := rfl
@[simp] theorem Chip.putArea_reads (i : Nat) (a : AreaRec) : (c.putArea i a).reads = c.reads := rfl
@[simp] theorem Chip.putArea_streams (i : Nat) (a : AreaRec) : (c.putArea i a).streams = c.streams := rfl
@[simp] theorem Chip.putArea_aers (i : Nat) (a : AreaRec) : (c.putArea i a).aers = c.aers := rfl
@[simp] theorem Chip.putArea_links (i : Nat) (a : AreaRec) : (c.putArea i a).links = c.links := rfl
@[simp] theorem Chip.putArea_lsmap (i : Nat) (a : AreaRec) : (c.putArea i a).lsmap = c.lsmap := rfl
@[simp] theorem Chip.putArea_crook (i : Nat) (a : AreaRec) : (c.putArea i a).crook = c.crook := rfl
@[simp] theorem Chip.putArea_dbgLock (i : Nat) (a : AreaRec) : (c.putArea i a).dbgLock = c.dbgLock := rfl
@[simp] theorem Chip.putArea_ctxs (i : Nat) (a : AreaRec) : (c.putArea i a).ctxs = c.ctxs := rfl
@[simp] theorem Chip.putArea_sb (i : Nat) (a : AreaRec) : (c.putArea i a).sb = c.sb := rfl
@[simp] theorem Chip.putArea_fetched (i : Nat) (a : AreaRec) : (c.putArea i a).fetched = c.fetched := rfl
@[simp] theorem Chip.putArea_readied (i : Nat) (a : AreaRec) : (c.putArea i a).readied = c.readied := rfl
@[simp] theorem Chip.putArea_objs (i : Nat) (a : AreaRec) : (c.putArea i a).objs = c.objs := rfl
@[simp] theorem Chip.putArea_channels (i : Nat) (a : AreaRec) : (c.putArea i a).channels = c.channels := rfl
@[simp] theorem Chip.putArea_pools (i : Nat) (a : AreaRec) : (c.putArea i a).pools = c.pools := rfl
@[simp] theorem Chip.putArea_pasts (i : Nat) (a : AreaRec) : (c.putArea i a).pasts = c.pasts := rfl
@[simp] theorem Chip.putArea_sliceQ (i : Nat) (a : AreaRec) : (c.putArea i a).sliceQ = c.sliceQ := rfl
@[simp] theorem Chip.putArea_ladders (i : Nat) (a : AreaRec) : (c.putArea i a).ladders = c.ladders := rfl
@[simp] theorem Chip.putArea_merge (i : Nat) (a : AreaRec) : (c.putArea i a).merge = c.merge := rfl
@[simp] theorem Chip.putArea_units (i : Nat) (a : AreaRec) : (c.putArea i a).units = c.units := rfl
@[simp] theorem Chip.putArea_disagree (i : Nat) (a : AreaRec) : (c.putArea i a).disagree = c.disagree := rfl
@[simp] theorem Chip.putArea_clearings (i : Nat) (a : AreaRec) : (c.putArea i a).clearings = c.clearings := rfl
@[simp] theorem Chip.putArea_inFlight (i : Nat) (a : AreaRec) : (c.putArea i a).inFlight = c.inFlight := rfl
@[simp] theorem Chip.putArea_leaving (i : Nat) (a : AreaRec) : (c.putArea i a).leaving = c.leaving := rfl
@[simp] theorem Chip.putArea_answer (i : Nat) (a : AreaRec) : (c.putArea i a).answer = c.answer := rfl
@[simp] theorem Chip.putArea_free (i : Nat) (a : AreaRec) : (c.putArea i a).free = c.free := rfl
@[simp] theorem Chip.setCfg_fuses (o v : Nat) : (c.setCfg o v).fuses = c.fuses := rfl
@[simp] theorem Chip.setCfg_rtc (o v : Nat) : (c.setCfg o v).rtc = c.rtc := rfl
@[simp] theorem Chip.setCfg_now (o v : Nat) : (c.setCfg o v).now = c.now := rfl
@[simp] theorem Chip.setCfg_latches (o v : Nat) : (c.setCfg o v).latches = c.latches := rfl
@[simp] theorem Chip.setCfg_routes (o v : Nat) : (c.setCfg o v).routes = c.routes := rfl
@[simp] theorem Chip.setCfg_wakeCounts (o v : Nat) : (c.setCfg o v).wakeCounts = c.wakeCounts := rfl
@[simp] theorem Chip.setCfg_next (o v : Nat) : (c.setCfg o v).next = c.next := rfl
@[simp] theorem Chip.setCfg_nv (o v : Nat) : (c.setCfg o v).nv = c.nv := rfl
@[simp] theorem Chip.setCfg_held (o v : Nat) : (c.setCfg o v).held = c.held := rfl
@[simp] theorem Chip.setCfg_porLow (o v : Nat) : (c.setCfg o v).porLow = c.porLow := rfl
@[simp] theorem Chip.setCfg_railsOut (o v : Nat) : (c.setCfg o v).railsOut = c.railsOut := rfl
@[simp] theorem Chip.setCfg_pins (o v : Nat) : (c.setCfg o v).pins = c.pins := rfl
@[simp] theorem Chip.setCfg_thermTrip (o v : Nat) : (c.setCfg o v).thermTrip = c.thermTrip := rfl
@[simp] theorem Chip.setCfg_pages (o v : Nat) : (c.setCfg o v).pages = c.pages := rfl
@[simp] theorem Chip.setCfg_tiles (o v : Nat) : (c.setCfg o v).tiles = c.tiles := rfl
@[simp] theorem Chip.setCfg_commons (o v : Nat) : (c.setCfg o v).commons = c.commons := rfl
@[simp] theorem Chip.setCfg_crookBank (o v : Nat) : (c.setCfg o v).crookBank = c.crookBank := rfl
@[simp] theorem Chip.setCfg_streamBanks (o v : Nat) : (c.setCfg o v).streamBanks = c.streamBanks := rfl
@[simp] theorem Chip.setCfg_coreDoms (o v : Nat) : (c.setCfg o v).coreDoms = c.coreDoms := rfl
@[simp] theorem Chip.setCfg_routerDoms (o v : Nat) : (c.setCfg o v).routerDoms = c.routerDoms := rfl
@[simp] theorem Chip.setCfg_doms (o v : Nat) : (c.setCfg o v).doms = c.doms := rfl
@[simp] theorem Chip.setCfg_wakes (o v : Nat) : (c.setCfg o v).wakes = c.wakes := rfl
@[simp] theorem Chip.setCfg_heldWakes (o v : Nat) : (c.setCfg o v).heldWakes = c.heldWakes := rfl
@[simp] theorem Chip.setCfg_dies (o v : Nat) : (c.setCfg o v).dies = c.dies := rfl
@[simp] theorem Chip.setCfg_vlinks (o v : Nat) : (c.setCfg o v).vlinks = c.vlinks := rfl
@[simp] theorem Chip.setCfg_host (o v : Nat) : (c.setCfg o v).host = c.host := rfl
@[simp] theorem Chip.setCfg_reads (o v : Nat) : (c.setCfg o v).reads = c.reads := rfl
@[simp] theorem Chip.setCfg_streams (o v : Nat) : (c.setCfg o v).streams = c.streams := rfl
@[simp] theorem Chip.setCfg_aers (o v : Nat) : (c.setCfg o v).aers = c.aers := rfl
@[simp] theorem Chip.setCfg_links (o v : Nat) : (c.setCfg o v).links = c.links := rfl
@[simp] theorem Chip.setCfg_lsmap (o v : Nat) : (c.setCfg o v).lsmap = c.lsmap := rfl
@[simp] theorem Chip.setCfg_crook (o v : Nat) : (c.setCfg o v).crook = c.crook := rfl
@[simp] theorem Chip.setCfg_dbgLock (o v : Nat) : (c.setCfg o v).dbgLock = c.dbgLock := rfl
@[simp] theorem Chip.setCfg_ctxs (o v : Nat) : (c.setCfg o v).ctxs = c.ctxs := rfl
@[simp] theorem Chip.setCfg_sb (o v : Nat) : (c.setCfg o v).sb = c.sb := rfl
@[simp] theorem Chip.setCfg_fetched (o v : Nat) : (c.setCfg o v).fetched = c.fetched := rfl
@[simp] theorem Chip.setCfg_readied (o v : Nat) : (c.setCfg o v).readied = c.readied := rfl
@[simp] theorem Chip.setCfg_objs (o v : Nat) : (c.setCfg o v).objs = c.objs := rfl
@[simp] theorem Chip.setCfg_channels (o v : Nat) : (c.setCfg o v).channels = c.channels := rfl
@[simp] theorem Chip.setCfg_pools (o v : Nat) : (c.setCfg o v).pools = c.pools := rfl
@[simp] theorem Chip.setCfg_pasts (o v : Nat) : (c.setCfg o v).pasts = c.pasts := rfl
@[simp] theorem Chip.setCfg_sliceQ (o v : Nat) : (c.setCfg o v).sliceQ = c.sliceQ := rfl
@[simp] theorem Chip.setCfg_ladders (o v : Nat) : (c.setCfg o v).ladders = c.ladders := rfl
@[simp] theorem Chip.setCfg_merge (o v : Nat) : (c.setCfg o v).merge = c.merge := rfl
@[simp] theorem Chip.setCfg_units (o v : Nat) : (c.setCfg o v).units = c.units := rfl
@[simp] theorem Chip.setCfg_disagree (o v : Nat) : (c.setCfg o v).disagree = c.disagree := rfl
@[simp] theorem Chip.setCfg_clearings (o v : Nat) : (c.setCfg o v).clearings = c.clearings := rfl
@[simp] theorem Chip.setCfg_inFlight (o v : Nat) : (c.setCfg o v).inFlight = c.inFlight := rfl
@[simp] theorem Chip.setCfg_leaving (o v : Nat) : (c.setCfg o v).leaving = c.leaving := rfl
@[simp] theorem Chip.setCfg_answer (o v : Nat) : (c.setCfg o v).answer = c.answer := rfl
@[simp] theorem Chip.setCfg_free (o v : Nat) : (c.setCfg o v).free = c.free := rfl
@[simp] theorem Chip.print_fuses (l : ConsoleLine) : (c.print l).fuses = c.fuses := rfl
@[simp] theorem Chip.print_rtc (l : ConsoleLine) : (c.print l).rtc = c.rtc := rfl
@[simp] theorem Chip.print_now (l : ConsoleLine) : (c.print l).now = c.now := rfl
@[simp] theorem Chip.print_latches (l : ConsoleLine) : (c.print l).latches = c.latches := rfl
@[simp] theorem Chip.print_routes (l : ConsoleLine) : (c.print l).routes = c.routes := rfl
@[simp] theorem Chip.print_wakeCounts (l : ConsoleLine) : (c.print l).wakeCounts = c.wakeCounts := rfl
@[simp] theorem Chip.print_next (l : ConsoleLine) : (c.print l).next = c.next := rfl
@[simp] theorem Chip.print_nv (l : ConsoleLine) : (c.print l).nv = c.nv := rfl
@[simp] theorem Chip.print_held (l : ConsoleLine) : (c.print l).held = c.held := rfl
@[simp] theorem Chip.print_porLow (l : ConsoleLine) : (c.print l).porLow = c.porLow := rfl
@[simp] theorem Chip.print_railsOut (l : ConsoleLine) : (c.print l).railsOut = c.railsOut := rfl
@[simp] theorem Chip.print_pins (l : ConsoleLine) : (c.print l).pins = c.pins := rfl
@[simp] theorem Chip.print_thermTrip (l : ConsoleLine) : (c.print l).thermTrip = c.thermTrip := rfl
@[simp] theorem Chip.print_pages (l : ConsoleLine) : (c.print l).pages = c.pages := rfl
@[simp] theorem Chip.print_tiles (l : ConsoleLine) : (c.print l).tiles = c.tiles := rfl
@[simp] theorem Chip.print_commons (l : ConsoleLine) : (c.print l).commons = c.commons := rfl
@[simp] theorem Chip.print_crookBank (l : ConsoleLine) : (c.print l).crookBank = c.crookBank := rfl
@[simp] theorem Chip.print_streamBanks (l : ConsoleLine) : (c.print l).streamBanks = c.streamBanks := rfl
@[simp] theorem Chip.print_coreDoms (l : ConsoleLine) : (c.print l).coreDoms = c.coreDoms := rfl
@[simp] theorem Chip.print_routerDoms (l : ConsoleLine) : (c.print l).routerDoms = c.routerDoms := rfl
@[simp] theorem Chip.print_doms (l : ConsoleLine) : (c.print l).doms = c.doms := rfl
@[simp] theorem Chip.print_wakes (l : ConsoleLine) : (c.print l).wakes = c.wakes := rfl
@[simp] theorem Chip.print_heldWakes (l : ConsoleLine) : (c.print l).heldWakes = c.heldWakes := rfl
@[simp] theorem Chip.print_dies (l : ConsoleLine) : (c.print l).dies = c.dies := rfl
@[simp] theorem Chip.print_vlinks (l : ConsoleLine) : (c.print l).vlinks = c.vlinks := rfl
@[simp] theorem Chip.print_gate (l : ConsoleLine) : (c.print l).gate = c.gate := rfl
@[simp] theorem Chip.print_host (l : ConsoleLine) : (c.print l).host = c.host := rfl
@[simp] theorem Chip.print_reads (l : ConsoleLine) : (c.print l).reads = c.reads := rfl
@[simp] theorem Chip.print_streams (l : ConsoleLine) : (c.print l).streams = c.streams := rfl
@[simp] theorem Chip.print_aers (l : ConsoleLine) : (c.print l).aers = c.aers := rfl
@[simp] theorem Chip.print_links (l : ConsoleLine) : (c.print l).links = c.links := rfl
@[simp] theorem Chip.print_lsmap (l : ConsoleLine) : (c.print l).lsmap = c.lsmap := rfl
@[simp] theorem Chip.print_dbgLock (l : ConsoleLine) : (c.print l).dbgLock = c.dbgLock := rfl
@[simp] theorem Chip.print_ctxs (l : ConsoleLine) : (c.print l).ctxs = c.ctxs := rfl
@[simp] theorem Chip.print_sb (l : ConsoleLine) : (c.print l).sb = c.sb := rfl
@[simp] theorem Chip.print_fetched (l : ConsoleLine) : (c.print l).fetched = c.fetched := rfl
@[simp] theorem Chip.print_readied (l : ConsoleLine) : (c.print l).readied = c.readied := rfl
@[simp] theorem Chip.print_objs (l : ConsoleLine) : (c.print l).objs = c.objs := rfl
@[simp] theorem Chip.print_channels (l : ConsoleLine) : (c.print l).channels = c.channels := rfl
@[simp] theorem Chip.print_pools (l : ConsoleLine) : (c.print l).pools = c.pools := rfl
@[simp] theorem Chip.print_pasts (l : ConsoleLine) : (c.print l).pasts = c.pasts := rfl
@[simp] theorem Chip.print_sliceQ (l : ConsoleLine) : (c.print l).sliceQ = c.sliceQ := rfl
@[simp] theorem Chip.print_ladders (l : ConsoleLine) : (c.print l).ladders = c.ladders := rfl
@[simp] theorem Chip.print_merge (l : ConsoleLine) : (c.print l).merge = c.merge := rfl
@[simp] theorem Chip.print_units (l : ConsoleLine) : (c.print l).units = c.units := rfl
@[simp] theorem Chip.print_disagree (l : ConsoleLine) : (c.print l).disagree = c.disagree := rfl
@[simp] theorem Chip.print_clearings (l : ConsoleLine) : (c.print l).clearings = c.clearings := rfl
@[simp] theorem Chip.print_inFlight (l : ConsoleLine) : (c.print l).inFlight = c.inFlight := rfl
@[simp] theorem Chip.print_leaving (l : ConsoleLine) : (c.print l).leaving = c.leaving := rfl
@[simp] theorem Chip.print_answer (l : ConsoleLine) : (c.print l).answer = c.answer := rfl
@[simp] theorem Chip.print_free (l : ConsoleLine) : (c.print l).free = c.free := rfl

/-! ### Records left alone -/

@[simp] theorem Chip.putPage_at_tile (n : Nat) (p : Page) (j : Nat) : (c.putPage n p).tile j = c.tile j := rfl
@[simp] theorem Chip.putPage_at_dom (n : Nat) (p : Page) (j : Nat) : (c.putPage n p).dom j = c.dom j := rfl
@[simp] theorem Chip.putPage_at_die (n : Nat) (p : Page) (j : Nat) : (c.putPage n p).die j = c.die j := rfl
@[simp] theorem Chip.putPage_at_past (n : Nat) (p : Page) (j : Nat) : (c.putPage n p).past j = c.past j := rfl
@[simp] theorem Chip.putPage_at_unit (n : Nat) (p : Page) (j : Nat) : (c.putPage n p).unit j = c.unit j := rfl
@[simp] theorem Chip.putPage_at_entry (n : Nat) (p : Page) (j : Nat) : (c.putPage n p).entry j = c.entry j := rfl
@[simp] theorem Chip.putPage_at_ctx (n : Nat) (p : Page) (j : Nat) : (c.putPage n p).ctx j = c.ctx j := rfl
@[simp] theorem Chip.putPage_at_obj (n : Nat) (p : Page) (j : Nat) : (c.putPage n p).obj j = c.obj j := rfl
@[simp] theorem Chip.putPage_at_coreDom (n : Nat) (p : Page) (j : Nat) : (c.putPage n p).coreDom j = c.coreDom j := rfl
@[simp] theorem Chip.putPage_at_routerDom (n : Nat) (p : Page) (j : Nat) : (c.putPage n p).routerDom j = c.routerDom j := rfl
@[simp] theorem Chip.putPage_at_cfg (n : Nat) (p : Page) (j : Nat) : (c.putPage n p).cfg j = c.cfg j := rfl
@[simp] theorem Chip.putTile_at_page (k : Nat) (t : Tile) (j : Nat) : (c.putTile k t).page j = c.page j := rfl
@[simp] theorem Chip.putTile_at_dom (k : Nat) (t : Tile) (j : Nat) : (c.putTile k t).dom j = c.dom j := rfl
@[simp] theorem Chip.putTile_at_die (k : Nat) (t : Tile) (j : Nat) : (c.putTile k t).die j = c.die j := rfl
@[simp] theorem Chip.putTile_at_past (k : Nat) (t : Tile) (j : Nat) : (c.putTile k t).past j = c.past j := rfl
@[simp] theorem Chip.putTile_at_unit (k : Nat) (t : Tile) (j : Nat) : (c.putTile k t).unit j = c.unit j := rfl
@[simp] theorem Chip.putTile_at_entry (k : Nat) (t : Tile) (j : Nat) : (c.putTile k t).entry j = c.entry j := rfl
@[simp] theorem Chip.putTile_at_ctx (k : Nat) (t : Tile) (j : Nat) : (c.putTile k t).ctx j = c.ctx j := rfl
@[simp] theorem Chip.putTile_at_obj (k : Nat) (t : Tile) (j : Nat) : (c.putTile k t).obj j = c.obj j := rfl
@[simp] theorem Chip.putTile_at_coreDom (k : Nat) (t : Tile) (j : Nat) : (c.putTile k t).coreDom j = c.coreDom j := rfl
@[simp] theorem Chip.putTile_at_routerDom (k : Nat) (t : Tile) (j : Nat) : (c.putTile k t).routerDom j = c.routerDom j := rfl
@[simp] theorem Chip.putTile_at_cfg (k : Nat) (t : Tile) (j : Nat) : (c.putTile k t).cfg j = c.cfg j := rfl
@[simp] theorem Chip.putDom_at_page (n : Nat) (d : DomRec) (j : Nat) : (c.putDom n d).page j = c.page j := rfl
@[simp] theorem Chip.putDom_at_tile (n : Nat) (d : DomRec) (j : Nat) : (c.putDom n d).tile j = c.tile j := rfl
@[simp] theorem Chip.putDom_at_die (n : Nat) (d : DomRec) (j : Nat) : (c.putDom n d).die j = c.die j := rfl
@[simp] theorem Chip.putDom_at_past (n : Nat) (d : DomRec) (j : Nat) : (c.putDom n d).past j = c.past j := rfl
@[simp] theorem Chip.putDom_at_unit (n : Nat) (d : DomRec) (j : Nat) : (c.putDom n d).unit j = c.unit j := rfl
@[simp] theorem Chip.putDom_at_entry (n : Nat) (d : DomRec) (j : Nat) : (c.putDom n d).entry j = c.entry j := rfl
@[simp] theorem Chip.putDom_at_ctx (n : Nat) (d : DomRec) (j : Nat) : (c.putDom n d).ctx j = c.ctx j := rfl
@[simp] theorem Chip.putDom_at_obj (n : Nat) (d : DomRec) (j : Nat) : (c.putDom n d).obj j = c.obj j := rfl
@[simp] theorem Chip.putDom_at_coreDom (n : Nat) (d : DomRec) (j : Nat) : (c.putDom n d).coreDom j = c.coreDom j := rfl
@[simp] theorem Chip.putDom_at_routerDom (n : Nat) (d : DomRec) (j : Nat) : (c.putDom n d).routerDom j = c.routerDom j := rfl
@[simp] theorem Chip.putDom_at_cfg (n : Nat) (d : DomRec) (j : Nat) : (c.putDom n d).cfg j = c.cfg j := rfl
@[simp] theorem Chip.setCoreDom_at_page (k : Nat) (d : DomState) (j : Nat) : (c.setCoreDom k d).page j = c.page j := rfl
@[simp] theorem Chip.setCoreDom_at_tile (k : Nat) (d : DomState) (j : Nat) : (c.setCoreDom k d).tile j = c.tile j := rfl
@[simp] theorem Chip.setCoreDom_at_dom (k : Nat) (d : DomState) (j : Nat) : (c.setCoreDom k d).dom j = c.dom j := rfl
@[simp] theorem Chip.setCoreDom_at_die (k : Nat) (d : DomState) (j : Nat) : (c.setCoreDom k d).die j = c.die j := rfl
@[simp] theorem Chip.setCoreDom_at_past (k : Nat) (d : DomState) (j : Nat) : (c.setCoreDom k d).past j = c.past j := rfl
@[simp] theorem Chip.setCoreDom_at_unit (k : Nat) (d : DomState) (j : Nat) : (c.setCoreDom k d).unit j = c.unit j := rfl
@[simp] theorem Chip.setCoreDom_at_entry (k : Nat) (d : DomState) (j : Nat) : (c.setCoreDom k d).entry j = c.entry j := rfl
@[simp] theorem Chip.setCoreDom_at_ctx (k : Nat) (d : DomState) (j : Nat) : (c.setCoreDom k d).ctx j = c.ctx j := rfl
@[simp] theorem Chip.setCoreDom_at_obj (k : Nat) (d : DomState) (j : Nat) : (c.setCoreDom k d).obj j = c.obj j := rfl
@[simp] theorem Chip.setCoreDom_at_routerDom (k : Nat) (d : DomState) (j : Nat) : (c.setCoreDom k d).routerDom j = c.routerDom j := rfl
@[simp] theorem Chip.setCoreDom_at_cfg (k : Nat) (d : DomState) (j : Nat) : (c.setCoreDom k d).cfg j = c.cfg j := rfl
@[simp] theorem Chip.setRouterDom_at_page (k : Nat) (d : DomState) (j : Nat) : (c.setRouterDom k d).page j = c.page j := rfl
@[simp] theorem Chip.setRouterDom_at_tile (k : Nat) (d : DomState) (j : Nat) : (c.setRouterDom k d).tile j = c.tile j := rfl
@[simp] theorem Chip.setRouterDom_at_dom (k : Nat) (d : DomState) (j : Nat) : (c.setRouterDom k d).dom j = c.dom j := rfl
@[simp] theorem Chip.setRouterDom_at_die (k : Nat) (d : DomState) (j : Nat) : (c.setRouterDom k d).die j = c.die j := rfl
@[simp] theorem Chip.setRouterDom_at_past (k : Nat) (d : DomState) (j : Nat) : (c.setRouterDom k d).past j = c.past j := rfl
@[simp] theorem Chip.setRouterDom_at_unit (k : Nat) (d : DomState) (j : Nat) : (c.setRouterDom k d).unit j = c.unit j := rfl
@[simp] theorem Chip.setRouterDom_at_entry (k : Nat) (d : DomState) (j : Nat) : (c.setRouterDom k d).entry j = c.entry j := rfl
@[simp] theorem Chip.setRouterDom_at_ctx (k : Nat) (d : DomState) (j : Nat) : (c.setRouterDom k d).ctx j = c.ctx j := rfl
@[simp] theorem Chip.setRouterDom_at_obj (k : Nat) (d : DomState) (j : Nat) : (c.setRouterDom k d).obj j = c.obj j := rfl
@[simp] theorem Chip.setRouterDom_at_coreDom (k : Nat) (d : DomState) (j : Nat) : (c.setRouterDom k d).coreDom j = c.coreDom j := rfl
@[simp] theorem Chip.setRouterDom_at_cfg (k : Nat) (d : DomState) (j : Nat) : (c.setRouterDom k d).cfg j = c.cfg j := rfl
@[simp] theorem Chip.putDie_at_page (d : Nat) (r : DieRec) (j : Nat) : (c.putDie d r).page j = c.page j := rfl
@[simp] theorem Chip.putDie_at_tile (d : Nat) (r : DieRec) (j : Nat) : (c.putDie d r).tile j = c.tile j := rfl
@[simp] theorem Chip.putDie_at_dom (d : Nat) (r : DieRec) (j : Nat) : (c.putDie d r).dom j = c.dom j := rfl
@[simp] theorem Chip.putDie_at_past (d : Nat) (r : DieRec) (j : Nat) : (c.putDie d r).past j = c.past j := rfl
@[simp] theorem Chip.putDie_at_unit (d : Nat) (r : DieRec) (j : Nat) : (c.putDie d r).unit j = c.unit j := rfl
@[simp] theorem Chip.putDie_at_entry (d : Nat) (r : DieRec) (j : Nat) : (c.putDie d r).entry j = c.entry j := rfl
@[simp] theorem Chip.putDie_at_ctx (d : Nat) (r : DieRec) (j : Nat) : (c.putDie d r).ctx j = c.ctx j := rfl
@[simp] theorem Chip.putDie_at_obj (d : Nat) (r : DieRec) (j : Nat) : (c.putDie d r).obj j = c.obj j := rfl
@[simp] theorem Chip.putDie_at_coreDom (d : Nat) (r : DieRec) (j : Nat) : (c.putDie d r).coreDom j = c.coreDom j := rfl
@[simp] theorem Chip.putDie_at_routerDom (d : Nat) (r : DieRec) (j : Nat) : (c.putDie d r).routerDom j = c.routerDom j := rfl
@[simp] theorem Chip.putDie_at_cfg (d : Nat) (r : DieRec) (j : Nat) : (c.putDie d r).cfg j = c.cfg j := rfl
@[simp] theorem Chip.putPast_at_page (p : Nat) (x : Past) (j : Nat) : (c.putPast p x).page j = c.page j := rfl
@[simp] theorem Chip.putPast_at_tile (p : Nat) (x : Past) (j : Nat) : (c.putPast p x).tile j = c.tile j := rfl
@[simp] theorem Chip.putPast_at_dom (p : Nat) (x : Past) (j : Nat) : (c.putPast p x).dom j = c.dom j := rfl
@[simp] theorem Chip.putPast_at_die (p : Nat) (x : Past) (j : Nat) : (c.putPast p x).die j = c.die j := rfl
@[simp] theorem Chip.putPast_at_unit (p : Nat) (x : Past) (j : Nat) : (c.putPast p x).unit j = c.unit j := rfl
@[simp] theorem Chip.putPast_at_entry (p : Nat) (x : Past) (j : Nat) : (c.putPast p x).entry j = c.entry j := rfl
@[simp] theorem Chip.putPast_at_ctx (p : Nat) (x : Past) (j : Nat) : (c.putPast p x).ctx j = c.ctx j := rfl
@[simp] theorem Chip.putPast_at_obj (p : Nat) (x : Past) (j : Nat) : (c.putPast p x).obj j = c.obj j := rfl
@[simp] theorem Chip.putPast_at_coreDom (p : Nat) (x : Past) (j : Nat) : (c.putPast p x).coreDom j = c.coreDom j := rfl
@[simp] theorem Chip.putPast_at_routerDom (p : Nat) (x : Past) (j : Nat) : (c.putPast p x).routerDom j = c.routerDom j := rfl
@[simp] theorem Chip.putPast_at_cfg (p : Nat) (x : Past) (j : Nat) : (c.putPast p x).cfg j = c.cfg j := rfl
@[simp] theorem Chip.putUnit_at_page (u : Nat) (x : UnitRec) (j : Nat) : (c.putUnit u x).page j = c.page j := rfl
@[simp] theorem Chip.putUnit_at_tile (u : Nat) (x : UnitRec) (j : Nat) : (c.putUnit u x).tile j = c.tile j := rfl
@[simp] theorem Chip.putUnit_at_dom (u : Nat) (x : UnitRec) (j : Nat) : (c.putUnit u x).dom j = c.dom j := rfl
@[simp] theorem Chip.putUnit_at_die (u : Nat) (x : UnitRec) (j : Nat) : (c.putUnit u x).die j = c.die j := rfl
@[simp] theorem Chip.putUnit_at_past (u : Nat) (x : UnitRec) (j : Nat) : (c.putUnit u x).past j = c.past j := rfl
@[simp] theorem Chip.putUnit_at_entry (u : Nat) (x : UnitRec) (j : Nat) : (c.putUnit u x).entry j = c.entry j := rfl
@[simp] theorem Chip.putUnit_at_ctx (u : Nat) (x : UnitRec) (j : Nat) : (c.putUnit u x).ctx j = c.ctx j := rfl
@[simp] theorem Chip.putUnit_at_obj (u : Nat) (x : UnitRec) (j : Nat) : (c.putUnit u x).obj j = c.obj j := rfl
@[simp] theorem Chip.putUnit_at_coreDom (u : Nat) (x : UnitRec) (j : Nat) : (c.putUnit u x).coreDom j = c.coreDom j := rfl
@[simp] theorem Chip.putUnit_at_routerDom (u : Nat) (x : UnitRec) (j : Nat) : (c.putUnit u x).routerDom j = c.routerDom j := rfl
@[simp] theorem Chip.putUnit_at_cfg (u : Nat) (x : UnitRec) (j : Nat) : (c.putUnit u x).cfg j = c.cfg j := rfl
@[simp] theorem Chip.putLadder_at_page (i : Nat) (l : Ladder) (j : Nat) : (c.putLadder i l).page j = c.page j := rfl
@[simp] theorem Chip.putLadder_at_tile (i : Nat) (l : Ladder) (j : Nat) : (c.putLadder i l).tile j = c.tile j := rfl
@[simp] theorem Chip.putLadder_at_dom (i : Nat) (l : Ladder) (j : Nat) : (c.putLadder i l).dom j = c.dom j := rfl
@[simp] theorem Chip.putLadder_at_die (i : Nat) (l : Ladder) (j : Nat) : (c.putLadder i l).die j = c.die j := rfl
@[simp] theorem Chip.putLadder_at_past (i : Nat) (l : Ladder) (j : Nat) : (c.putLadder i l).past j = c.past j := rfl
@[simp] theorem Chip.putLadder_at_unit (i : Nat) (l : Ladder) (j : Nat) : (c.putLadder i l).unit j = c.unit j := rfl
@[simp] theorem Chip.putLadder_at_entry (i : Nat) (l : Ladder) (j : Nat) : (c.putLadder i l).entry j = c.entry j := rfl
@[simp] theorem Chip.putLadder_at_ctx (i : Nat) (l : Ladder) (j : Nat) : (c.putLadder i l).ctx j = c.ctx j := rfl
@[simp] theorem Chip.putLadder_at_obj (i : Nat) (l : Ladder) (j : Nat) : (c.putLadder i l).obj j = c.obj j := rfl
@[simp] theorem Chip.putLadder_at_coreDom (i : Nat) (l : Ladder) (j : Nat) : (c.putLadder i l).coreDom j = c.coreDom j := rfl
@[simp] theorem Chip.putLadder_at_routerDom (i : Nat) (l : Ladder) (j : Nat) : (c.putLadder i l).routerDom j = c.routerDom j := rfl
@[simp] theorem Chip.putLadder_at_cfg (i : Nat) (l : Ladder) (j : Nat) : (c.putLadder i l).cfg j = c.cfg j := rfl
@[simp] theorem Chip.putEntry_at_page (e : Nat) (x : SbEntry) (j : Nat) : (c.putEntry e x).page j = c.page j := rfl
@[simp] theorem Chip.putEntry_at_tile (e : Nat) (x : SbEntry) (j : Nat) : (c.putEntry e x).tile j = c.tile j := rfl
@[simp] theorem Chip.putEntry_at_dom (e : Nat) (x : SbEntry) (j : Nat) : (c.putEntry e x).dom j = c.dom j := rfl
@[simp] theorem Chip.putEntry_at_die (e : Nat) (x : SbEntry) (j : Nat) : (c.putEntry e x).die j = c.die j := rfl
@[simp] theorem Chip.putEntry_at_past (e : Nat) (x : SbEntry) (j : Nat) : (c.putEntry e x).past j = c.past j := rfl
@[simp] theorem Chip.putEntry_at_unit (e : Nat) (x : SbEntry) (j : Nat) : (c.putEntry e x).unit j = c.unit j := rfl
@[simp] theorem Chip.putEntry_at_ctx (e : Nat) (x : SbEntry) (j : Nat) : (c.putEntry e x).ctx j = c.ctx j := rfl
@[simp] theorem Chip.putEntry_at_obj (e : Nat) (x : SbEntry) (j : Nat) : (c.putEntry e x).obj j = c.obj j := rfl
@[simp] theorem Chip.putEntry_at_coreDom (e : Nat) (x : SbEntry) (j : Nat) : (c.putEntry e x).coreDom j = c.coreDom j := rfl
@[simp] theorem Chip.putEntry_at_routerDom (e : Nat) (x : SbEntry) (j : Nat) : (c.putEntry e x).routerDom j = c.routerDom j := rfl
@[simp] theorem Chip.putEntry_at_cfg (e : Nat) (x : SbEntry) (j : Nat) : (c.putEntry e x).cfg j = c.cfg j := rfl
@[simp] theorem Chip.putCtx_at_page (q : Nat) (x : Ctx) (j : Nat) : (c.putCtx q x).page j = c.page j := rfl
@[simp] theorem Chip.putCtx_at_tile (q : Nat) (x : Ctx) (j : Nat) : (c.putCtx q x).tile j = c.tile j := rfl
@[simp] theorem Chip.putCtx_at_dom (q : Nat) (x : Ctx) (j : Nat) : (c.putCtx q x).dom j = c.dom j := rfl
@[simp] theorem Chip.putCtx_at_die (q : Nat) (x : Ctx) (j : Nat) : (c.putCtx q x).die j = c.die j := rfl
@[simp] theorem Chip.putCtx_at_past (q : Nat) (x : Ctx) (j : Nat) : (c.putCtx q x).past j = c.past j := rfl
@[simp] theorem Chip.putCtx_at_unit (q : Nat) (x : Ctx) (j : Nat) : (c.putCtx q x).unit j = c.unit j := rfl
@[simp] theorem Chip.putCtx_at_entry (q : Nat) (x : Ctx) (j : Nat) : (c.putCtx q x).entry j = c.entry j := rfl
@[simp] theorem Chip.putCtx_at_obj (q : Nat) (x : Ctx) (j : Nat) : (c.putCtx q x).obj j = c.obj j := rfl
@[simp] theorem Chip.putCtx_at_coreDom (q : Nat) (x : Ctx) (j : Nat) : (c.putCtx q x).coreDom j = c.coreDom j := rfl
@[simp] theorem Chip.putCtx_at_routerDom (q : Nat) (x : Ctx) (j : Nat) : (c.putCtx q x).routerDom j = c.routerDom j := rfl
@[simp] theorem Chip.putCtx_at_cfg (q : Nat) (x : Ctx) (j : Nat) : (c.putCtx q x).cfg j = c.cfg j := rfl
@[simp] theorem Chip.putObj_at_page (o : Nat) (x : SyncObj) (j : Nat) : (c.putObj o x).page j = c.page j := rfl
@[simp] theorem Chip.putObj_at_tile (o : Nat) (x : SyncObj) (j : Nat) : (c.putObj o x).tile j = c.tile j := rfl
@[simp] theorem Chip.putObj_at_dom (o : Nat) (x : SyncObj) (j : Nat) : (c.putObj o x).dom j = c.dom j := rfl
@[simp] theorem Chip.putObj_at_die (o : Nat) (x : SyncObj) (j : Nat) : (c.putObj o x).die j = c.die j := rfl
@[simp] theorem Chip.putObj_at_past (o : Nat) (x : SyncObj) (j : Nat) : (c.putObj o x).past j = c.past j := rfl
@[simp] theorem Chip.putObj_at_unit (o : Nat) (x : SyncObj) (j : Nat) : (c.putObj o x).unit j = c.unit j := rfl
@[simp] theorem Chip.putObj_at_entry (o : Nat) (x : SyncObj) (j : Nat) : (c.putObj o x).entry j = c.entry j := rfl
@[simp] theorem Chip.putObj_at_ctx (o : Nat) (x : SyncObj) (j : Nat) : (c.putObj o x).ctx j = c.ctx j := rfl
@[simp] theorem Chip.putObj_at_coreDom (o : Nat) (x : SyncObj) (j : Nat) : (c.putObj o x).coreDom j = c.coreDom j := rfl
@[simp] theorem Chip.putObj_at_routerDom (o : Nat) (x : SyncObj) (j : Nat) : (c.putObj o x).routerDom j = c.routerDom j := rfl
@[simp] theorem Chip.putObj_at_cfg (o : Nat) (x : SyncObj) (j : Nat) : (c.putObj o x).cfg j = c.cfg j := rfl
@[simp] theorem Chip.putVlink_at_page (d i : Nat) (v : VLink) (j : Nat) : (c.putVlink d i v).page j = c.page j := rfl
@[simp] theorem Chip.putVlink_at_tile (d i : Nat) (v : VLink) (j : Nat) : (c.putVlink d i v).tile j = c.tile j := rfl
@[simp] theorem Chip.putVlink_at_dom (d i : Nat) (v : VLink) (j : Nat) : (c.putVlink d i v).dom j = c.dom j := rfl
@[simp] theorem Chip.putVlink_at_die (d i : Nat) (v : VLink) (j : Nat) : (c.putVlink d i v).die j = c.die j := rfl
@[simp] theorem Chip.putVlink_at_past (d i : Nat) (v : VLink) (j : Nat) : (c.putVlink d i v).past j = c.past j := rfl
@[simp] theorem Chip.putVlink_at_unit (d i : Nat) (v : VLink) (j : Nat) : (c.putVlink d i v).unit j = c.unit j := rfl
@[simp] theorem Chip.putVlink_at_entry (d i : Nat) (v : VLink) (j : Nat) : (c.putVlink d i v).entry j = c.entry j := rfl
@[simp] theorem Chip.putVlink_at_ctx (d i : Nat) (v : VLink) (j : Nat) : (c.putVlink d i v).ctx j = c.ctx j := rfl
@[simp] theorem Chip.putVlink_at_obj (d i : Nat) (v : VLink) (j : Nat) : (c.putVlink d i v).obj j = c.obj j := rfl
@[simp] theorem Chip.putVlink_at_coreDom (d i : Nat) (v : VLink) (j : Nat) : (c.putVlink d i v).coreDom j = c.coreDom j := rfl
@[simp] theorem Chip.putVlink_at_routerDom (d i : Nat) (v : VLink) (j : Nat) : (c.putVlink d i v).routerDom j = c.routerDom j := rfl
@[simp] theorem Chip.putVlink_at_cfg (d i : Nat) (v : VLink) (j : Nat) : (c.putVlink d i v).cfg j = c.cfg j := rfl
@[simp] theorem Chip.putLink_at_page (k : Nat) (l : Link) (j : Nat) : (c.putLink k l).page j = c.page j := rfl
@[simp] theorem Chip.putLink_at_tile (k : Nat) (l : Link) (j : Nat) : (c.putLink k l).tile j = c.tile j := rfl
@[simp] theorem Chip.putLink_at_dom (k : Nat) (l : Link) (j : Nat) : (c.putLink k l).dom j = c.dom j := rfl
@[simp] theorem Chip.putLink_at_die (k : Nat) (l : Link) (j : Nat) : (c.putLink k l).die j = c.die j := rfl
@[simp] theorem Chip.putLink_at_past (k : Nat) (l : Link) (j : Nat) : (c.putLink k l).past j = c.past j := rfl
@[simp] theorem Chip.putLink_at_unit (k : Nat) (l : Link) (j : Nat) : (c.putLink k l).unit j = c.unit j := rfl
@[simp] theorem Chip.putLink_at_entry (k : Nat) (l : Link) (j : Nat) : (c.putLink k l).entry j = c.entry j := rfl
@[simp] theorem Chip.putLink_at_ctx (k : Nat) (l : Link) (j : Nat) : (c.putLink k l).ctx j = c.ctx j := rfl
@[simp] theorem Chip.putLink_at_obj (k : Nat) (l : Link) (j : Nat) : (c.putLink k l).obj j = c.obj j := rfl
@[simp] theorem Chip.putLink_at_coreDom (k : Nat) (l : Link) (j : Nat) : (c.putLink k l).coreDom j = c.coreDom j := rfl
@[simp] theorem Chip.putLink_at_routerDom (k : Nat) (l : Link) (j : Nat) : (c.putLink k l).routerDom j = c.routerDom j := rfl
@[simp] theorem Chip.putLink_at_cfg (k : Nat) (l : Link) (j : Nat) : (c.putLink k l).cfg j = c.cfg j := rfl
@[simp] theorem Chip.send_at_page (m : List Nat) (j : Nat) : (c.send m).page j = c.page j := rfl
@[simp] theorem Chip.send_at_tile (m : List Nat) (j : Nat) : (c.send m).tile j = c.tile j := rfl
@[simp] theorem Chip.send_at_dom (m : List Nat) (j : Nat) : (c.send m).dom j = c.dom j := rfl
@[simp] theorem Chip.send_at_die (m : List Nat) (j : Nat) : (c.send m).die j = c.die j := rfl
@[simp] theorem Chip.send_at_past (m : List Nat) (j : Nat) : (c.send m).past j = c.past j := rfl
@[simp] theorem Chip.send_at_unit (m : List Nat) (j : Nat) : (c.send m).unit j = c.unit j := rfl
@[simp] theorem Chip.send_at_entry (m : List Nat) (j : Nat) : (c.send m).entry j = c.entry j := rfl
@[simp] theorem Chip.send_at_ctx (m : List Nat) (j : Nat) : (c.send m).ctx j = c.ctx j := rfl
@[simp] theorem Chip.send_at_obj (m : List Nat) (j : Nat) : (c.send m).obj j = c.obj j := rfl
@[simp] theorem Chip.send_at_coreDom (m : List Nat) (j : Nat) : (c.send m).coreDom j = c.coreDom j := rfl
@[simp] theorem Chip.send_at_routerDom (m : List Nat) (j : Nat) : (c.send m).routerDom j = c.routerDom j := rfl
@[simp] theorem Chip.send_at_cfg (m : List Nat) (j : Nat) : (c.send m).cfg j = c.cfg j := rfl
@[simp] theorem Chip.sendAll_at_page (l : List (List Nat)) (j : Nat) : (c.sendAll l).page j = c.page j := rfl
@[simp] theorem Chip.sendAll_at_tile (l : List (List Nat)) (j : Nat) : (c.sendAll l).tile j = c.tile j := rfl
@[simp] theorem Chip.sendAll_at_dom (l : List (List Nat)) (j : Nat) : (c.sendAll l).dom j = c.dom j := rfl
@[simp] theorem Chip.sendAll_at_die (l : List (List Nat)) (j : Nat) : (c.sendAll l).die j = c.die j := rfl
@[simp] theorem Chip.sendAll_at_past (l : List (List Nat)) (j : Nat) : (c.sendAll l).past j = c.past j := rfl
@[simp] theorem Chip.sendAll_at_unit (l : List (List Nat)) (j : Nat) : (c.sendAll l).unit j = c.unit j := rfl
@[simp] theorem Chip.sendAll_at_entry (l : List (List Nat)) (j : Nat) : (c.sendAll l).entry j = c.entry j := rfl
@[simp] theorem Chip.sendAll_at_ctx (l : List (List Nat)) (j : Nat) : (c.sendAll l).ctx j = c.ctx j := rfl
@[simp] theorem Chip.sendAll_at_obj (l : List (List Nat)) (j : Nat) : (c.sendAll l).obj j = c.obj j := rfl
@[simp] theorem Chip.sendAll_at_coreDom (l : List (List Nat)) (j : Nat) : (c.sendAll l).coreDom j = c.coreDom j := rfl
@[simp] theorem Chip.sendAll_at_routerDom (l : List (List Nat)) (j : Nat) : (c.sendAll l).routerDom j = c.routerDom j := rfl
@[simp] theorem Chip.sendAll_at_cfg (l : List (List Nat)) (j : Nat) : (c.sendAll l).cfg j = c.cfg j := rfl
@[simp] theorem Chip.sendFrom_at_page (p : Nat) (l : List (List Nat)) (j : Nat) : (c.sendFrom p l).page j = c.page j := rfl
@[simp] theorem Chip.sendFrom_at_tile (p : Nat) (l : List (List Nat)) (j : Nat) : (c.sendFrom p l).tile j = c.tile j := rfl
@[simp] theorem Chip.sendFrom_at_dom (p : Nat) (l : List (List Nat)) (j : Nat) : (c.sendFrom p l).dom j = c.dom j := rfl
@[simp] theorem Chip.sendFrom_at_die (p : Nat) (l : List (List Nat)) (j : Nat) : (c.sendFrom p l).die j = c.die j := rfl
@[simp] theorem Chip.sendFrom_at_past (p : Nat) (l : List (List Nat)) (j : Nat) : (c.sendFrom p l).past j = c.past j := rfl
@[simp] theorem Chip.sendFrom_at_unit (p : Nat) (l : List (List Nat)) (j : Nat) : (c.sendFrom p l).unit j = c.unit j := rfl
@[simp] theorem Chip.sendFrom_at_entry (p : Nat) (l : List (List Nat)) (j : Nat) : (c.sendFrom p l).entry j = c.entry j := rfl
@[simp] theorem Chip.sendFrom_at_ctx (p : Nat) (l : List (List Nat)) (j : Nat) : (c.sendFrom p l).ctx j = c.ctx j := rfl
@[simp] theorem Chip.sendFrom_at_obj (p : Nat) (l : List (List Nat)) (j : Nat) : (c.sendFrom p l).obj j = c.obj j := rfl
@[simp] theorem Chip.sendFrom_at_coreDom (p : Nat) (l : List (List Nat)) (j : Nat) : (c.sendFrom p l).coreDom j = c.coreDom j := rfl
@[simp] theorem Chip.sendFrom_at_routerDom (p : Nat) (l : List (List Nat)) (j : Nat) : (c.sendFrom p l).routerDom j = c.routerDom j := rfl
@[simp] theorem Chip.sendFrom_at_cfg (p : Nat) (l : List (List Nat)) (j : Nat) : (c.sendFrom p l).cfg j = c.cfg j := rfl
@[simp] theorem Chip.say_at_page (a : Answer) (j : Nat) : (c.say a).page j = c.page j := rfl
@[simp] theorem Chip.say_at_tile (a : Answer) (j : Nat) : (c.say a).tile j = c.tile j := rfl
@[simp] theorem Chip.say_at_dom (a : Answer) (j : Nat) : (c.say a).dom j = c.dom j := rfl
@[simp] theorem Chip.say_at_die (a : Answer) (j : Nat) : (c.say a).die j = c.die j := rfl
@[simp] theorem Chip.say_at_past (a : Answer) (j : Nat) : (c.say a).past j = c.past j := rfl
@[simp] theorem Chip.say_at_unit (a : Answer) (j : Nat) : (c.say a).unit j = c.unit j := rfl
@[simp] theorem Chip.say_at_entry (a : Answer) (j : Nat) : (c.say a).entry j = c.entry j := rfl
@[simp] theorem Chip.say_at_ctx (a : Answer) (j : Nat) : (c.say a).ctx j = c.ctx j := rfl
@[simp] theorem Chip.say_at_obj (a : Answer) (j : Nat) : (c.say a).obj j = c.obj j := rfl
@[simp] theorem Chip.say_at_coreDom (a : Answer) (j : Nat) : (c.say a).coreDom j = c.coreDom j := rfl
@[simp] theorem Chip.say_at_routerDom (a : Answer) (j : Nat) : (c.say a).routerDom j = c.routerDom j := rfl
@[simp] theorem Chip.say_at_cfg (a : Answer) (j : Nat) : (c.say a).cfg j = c.cfg j := rfl
@[simp] theorem Chip.putMeta_at_page (g : Nat) (m : NvMeta) (j : Nat) : (c.putMeta g m).page j = c.page j := rfl
@[simp] theorem Chip.putMeta_at_tile (g : Nat) (m : NvMeta) (j : Nat) : (c.putMeta g m).tile j = c.tile j := rfl
@[simp] theorem Chip.putMeta_at_dom (g : Nat) (m : NvMeta) (j : Nat) : (c.putMeta g m).dom j = c.dom j := rfl
@[simp] theorem Chip.putMeta_at_die (g : Nat) (m : NvMeta) (j : Nat) : (c.putMeta g m).die j = c.die j := rfl
@[simp] theorem Chip.putMeta_at_past (g : Nat) (m : NvMeta) (j : Nat) : (c.putMeta g m).past j = c.past j := rfl
@[simp] theorem Chip.putMeta_at_unit (g : Nat) (m : NvMeta) (j : Nat) : (c.putMeta g m).unit j = c.unit j := rfl
@[simp] theorem Chip.putMeta_at_entry (g : Nat) (m : NvMeta) (j : Nat) : (c.putMeta g m).entry j = c.entry j := rfl
@[simp] theorem Chip.putMeta_at_ctx (g : Nat) (m : NvMeta) (j : Nat) : (c.putMeta g m).ctx j = c.ctx j := rfl
@[simp] theorem Chip.putMeta_at_obj (g : Nat) (m : NvMeta) (j : Nat) : (c.putMeta g m).obj j = c.obj j := rfl
@[simp] theorem Chip.putMeta_at_coreDom (g : Nat) (m : NvMeta) (j : Nat) : (c.putMeta g m).coreDom j = c.coreDom j := rfl
@[simp] theorem Chip.putMeta_at_routerDom (g : Nat) (m : NvMeta) (j : Nat) : (c.putMeta g m).routerDom j = c.routerDom j := rfl
@[simp] theorem Chip.putMeta_at_cfg (g : Nat) (m : NvMeta) (j : Nat) : (c.putMeta g m).cfg j = c.cfg j := rfl
@[simp] theorem Chip.putArea_at_page (i : Nat) (a : AreaRec) (j : Nat) : (c.putArea i a).page j = c.page j := rfl
@[simp] theorem Chip.putArea_at_tile (i : Nat) (a : AreaRec) (j : Nat) : (c.putArea i a).tile j = c.tile j := rfl
@[simp] theorem Chip.putArea_at_dom (i : Nat) (a : AreaRec) (j : Nat) : (c.putArea i a).dom j = c.dom j := rfl
@[simp] theorem Chip.putArea_at_die (i : Nat) (a : AreaRec) (j : Nat) : (c.putArea i a).die j = c.die j := rfl
@[simp] theorem Chip.putArea_at_past (i : Nat) (a : AreaRec) (j : Nat) : (c.putArea i a).past j = c.past j := rfl
@[simp] theorem Chip.putArea_at_unit (i : Nat) (a : AreaRec) (j : Nat) : (c.putArea i a).unit j = c.unit j := rfl
@[simp] theorem Chip.putArea_at_entry (i : Nat) (a : AreaRec) (j : Nat) : (c.putArea i a).entry j = c.entry j := rfl
@[simp] theorem Chip.putArea_at_ctx (i : Nat) (a : AreaRec) (j : Nat) : (c.putArea i a).ctx j = c.ctx j := rfl
@[simp] theorem Chip.putArea_at_obj (i : Nat) (a : AreaRec) (j : Nat) : (c.putArea i a).obj j = c.obj j := rfl
@[simp] theorem Chip.putArea_at_coreDom (i : Nat) (a : AreaRec) (j : Nat) : (c.putArea i a).coreDom j = c.coreDom j := rfl
@[simp] theorem Chip.putArea_at_routerDom (i : Nat) (a : AreaRec) (j : Nat) : (c.putArea i a).routerDom j = c.routerDom j := rfl
@[simp] theorem Chip.putArea_at_cfg (i : Nat) (a : AreaRec) (j : Nat) : (c.putArea i a).cfg j = c.cfg j := rfl
@[simp] theorem Chip.setCfg_at_page (o v : Nat) (j : Nat) : (c.setCfg o v).page j = c.page j := rfl
@[simp] theorem Chip.setCfg_at_tile (o v : Nat) (j : Nat) : (c.setCfg o v).tile j = c.tile j := rfl
@[simp] theorem Chip.setCfg_at_dom (o v : Nat) (j : Nat) : (c.setCfg o v).dom j = c.dom j := rfl
@[simp] theorem Chip.setCfg_at_die (o v : Nat) (j : Nat) : (c.setCfg o v).die j = c.die j := rfl
@[simp] theorem Chip.setCfg_at_past (o v : Nat) (j : Nat) : (c.setCfg o v).past j = c.past j := rfl
@[simp] theorem Chip.setCfg_at_unit (o v : Nat) (j : Nat) : (c.setCfg o v).unit j = c.unit j := rfl
@[simp] theorem Chip.setCfg_at_entry (o v : Nat) (j : Nat) : (c.setCfg o v).entry j = c.entry j := rfl
@[simp] theorem Chip.setCfg_at_ctx (o v : Nat) (j : Nat) : (c.setCfg o v).ctx j = c.ctx j := rfl
@[simp] theorem Chip.setCfg_at_obj (o v : Nat) (j : Nat) : (c.setCfg o v).obj j = c.obj j := rfl
@[simp] theorem Chip.setCfg_at_coreDom (o v : Nat) (j : Nat) : (c.setCfg o v).coreDom j = c.coreDom j := rfl
@[simp] theorem Chip.setCfg_at_routerDom (o v : Nat) (j : Nat) : (c.setCfg o v).routerDom j = c.routerDom j := rfl
@[simp] theorem Chip.print_at_page (l : ConsoleLine) (j : Nat) : (c.print l).page j = c.page j := rfl
@[simp] theorem Chip.print_at_tile (l : ConsoleLine) (j : Nat) : (c.print l).tile j = c.tile j := rfl
@[simp] theorem Chip.print_at_dom (l : ConsoleLine) (j : Nat) : (c.print l).dom j = c.dom j := rfl
@[simp] theorem Chip.print_at_die (l : ConsoleLine) (j : Nat) : (c.print l).die j = c.die j := rfl
@[simp] theorem Chip.print_at_past (l : ConsoleLine) (j : Nat) : (c.print l).past j = c.past j := rfl
@[simp] theorem Chip.print_at_unit (l : ConsoleLine) (j : Nat) : (c.print l).unit j = c.unit j := rfl
@[simp] theorem Chip.print_at_entry (l : ConsoleLine) (j : Nat) : (c.print l).entry j = c.entry j := rfl
@[simp] theorem Chip.print_at_ctx (l : ConsoleLine) (j : Nat) : (c.print l).ctx j = c.ctx j := rfl
@[simp] theorem Chip.print_at_obj (l : ConsoleLine) (j : Nat) : (c.print l).obj j = c.obj j := rfl
@[simp] theorem Chip.print_at_coreDom (l : ConsoleLine) (j : Nat) : (c.print l).coreDom j = c.coreDom j := rfl
@[simp] theorem Chip.print_at_routerDom (l : ConsoleLine) (j : Nat) : (c.print l).routerDom j = c.routerDom j := rfl
@[simp] theorem Chip.print_at_cfg (l : ConsoleLine) (j : Nat) : (c.print l).cfg j = c.cfg j := rfl

end Sys2Proof.Machine
end

