-- ==== Sys2Proof/Laws/Commands.lean ====
section
/-! SUPPORT. What starting and finishing a scoreboard command do to the rest of the package, said once: a command that starts
leaves everything but its own entry, the channels and the messages on their way; a plain command that finishes leaves its
entry with its status and result. -/

namespace Sys2Proof.Machine

/-! ### Starting -/

/-- Sending the share of a command only puts messages on their way. -/
theorem shareOut_inFlight (c : Chip) (e : Nat) : ∃ l, (c.shareOut e).1 = { c with inFlight := l } := by
  unfold Chip.shareOut
  dsimp only
  split
  · exact ⟨c.inFlight, rfl⟩
  · split
    · exact ⟨c.inFlight, rfl⟩
    · exact ⟨_, rfl⟩

/-- A command that becomes RUNNING changes its entry and at most takes a channel. -/
theorem running_eq (c : Chip) (e : Nat) :
    ∃ l, c.running e = { c.putEntry e { c.entry e with state := .running } with channels := l } := by
  unfold Chip.running Chip.updEntry
  simp only
  split
  · exact ⟨_, rfl⟩
  · split
    · exact ⟨_, rfl⟩
    · exact ⟨_, rfl⟩

/-- Everything a start does. -/
theorem started_eq (c : Chip) (e : EntryId) :
    ∃ l m, c.started e =
      { c.putEntry e.val { c.entry e.val with state := .running } with channels := l, inFlight := m } := by
  obtain ⟨l, hl⟩ := running_eq c e.val
  obtain ⟨m, hm⟩ := shareOut_inFlight (c.running e.val) e.val
  refine ⟨l, m, ?_⟩
  unfold Chip.started
  rw [hm, hl]

theorem started_entry (c : Chip) (e : EntryId) : (c.started e).entry e.val = { c.entry e.val with state := .running } := by
  obtain ⟨l, m, h⟩ := started_eq c e
  simp [h, Chip.entry, Chip.putEntry]

@[simp] theorem started_state (c : Chip) (e : EntryId) : ((c.started e).entry e.val).state = .running := by
  rw [started_entry]

@[simp] theorem started_source (c : Chip) (e : EntryId) : ((c.started e).entry e.val).source = (c.entry e.val).source := by
  rw [started_entry]

@[simp] theorem started_words (c : Chip) (e : EntryId) : ((c.started e).entry e.val).words = (c.entry e.val).words := by
  rw [started_entry]

@[simp] theorem started_status (c : Chip) (e : EntryId) : ((c.started e).entry e.val).status = (c.entry e.val).status := by
  rw [started_entry]

@[simp] theorem started_result (c : Chip) (e : EntryId) : ((c.started e).entry e.val).result = (c.entry e.val).result := by
  rw [started_entry]

@[simp] theorem started_done (c : Chip) (e : EntryId) : ((c.started e).entry e.val).done = (c.entry e.val).done := by
  rw [started_entry]

@[simp] theorem started_parts (c : Chip) (e : EntryId) : ((c.started e).entry e.val).parts = (c.entry e.val).parts := by
  rw [started_entry]

@[simp] theorem started_aborting (c : Chip) (e : EntryId) : ((c.started e).entry e.val).aborting = (c.entry e.val).aborting := by
  rw [started_entry]

@[simp] theorem started_testFlags (c : Chip) (e : EntryId) : ((c.started e).entry e.val).testFlags = (c.entry e.val).testFlags := by
  rw [started_entry]

@[simp] theorem started_readyAt (c : Chip) (e : EntryId) : ((c.started e).entry e.val).readyAt = (c.entry e.val).readyAt := by
  rw [started_entry]

@[simp] theorem started_opcode (c : Chip) (e : EntryId) : ((c.started e).entry e.val).opcode = (c.entry e.val).opcode := by
  rw [started_entry]; rfl

@[simp] theorem started_pasture (c : Chip) (e : EntryId) : ((c.started e).entry e.val).pasture = (c.entry e.val).pasture := by
  rw [started_entry]; rfl

@[simp] theorem started_seq (c : Chip) (e : EntryId) : ((c.started e).entry e.val).seq = (c.entry e.val).seq := by
  rw [started_entry]; rfl

@[simp] theorem started_ctx (c : Chip) (e : EntryId) : ((c.started e).entry e.val).ctx = (c.entry e.val).ctx := by
  rw [started_entry]; rfl

@[simp] theorem started_origin (c : Chip) (e : EntryId) : ((c.started e).entry e.val).origin = (c.entry e.val).origin := by
  rw [started_entry]; rfl

@[simp] theorem started_targets (c : Chip) (e : EntryId) : ((c.started e).entry e.val).targets = (c.entry e.val).targets := by
  rw [started_entry]; rfl

@[simp] theorem started_testUnit (c : Chip) (e : EntryId) : ((c.started e).entry e.val).testUnit = (c.entry e.val).testUnit := by
  rw [started_entry]; rfl

@[simp] theorem started_asOrigin (c : Chip) (e : EntryId) : ((c.started e).entry e.val).asOrigin = (c.entry e.val).asOrigin := by
  rw [started_entry]; rfl

@[simp] theorem started_bytes (c : Chip) (e : EntryId) (a n : Nat) :
    ((c.started e).entry e.val).bytes a n = (c.entry e.val).bytes a n := by
  rw [started_entry]; rfl

@[simp] theorem started_flag (c : Chip) (e : EntryId) (i : Nat) : ((c.started e).entry e.val).flag i = (c.entry e.val).flag i := by
  rw [started_entry]; rfl

@[simp] theorem started_past (c : Chip) (e : EntryId) (p : Nat) : (c.started e).past p = c.past p := by
  obtain ⟨l, m, h⟩ := started_eq c e
  rw [h]; rfl

@[simp] theorem started_obj (c : Chip) (e : EntryId) (o : Nat) : (c.started e).obj o = c.obj o := by
  obtain ⟨l, m, h⟩ := started_eq c e
  rw [h]; rfl

@[simp] theorem started_host (c : Chip) (e : EntryId) : (c.started e).host = c.host := by
  obtain ⟨l, m, h⟩ := started_eq c e
  rw [h]; rfl

@[simp] theorem started_now (c : Chip) (e : EntryId) : (c.started e).now = c.now := by
  obtain ⟨l, m, h⟩ := started_eq c e
  rw [h]; rfl

/-- A startable entry that passes its checks is carried out by its unit. -/
theorem start_of_starts {c : Chip} {e : EntryId} {op : Nat} (h : c.starts e op = true) (f : Chip → Chip) :
    c.start e.val op f = f (c.started e) := by
  simp only [Chip.starts, Bool.and_eq_true, Bool.not_eq_true', beq_iff_eq] at h
  obtain ⟨⟨⟨_, hs⟩, hg⟩, ho⟩ := h
  unfold Chip.start
  simp [hs, hg, ho, Chip.started]

/-- A package that takes a command is not held. -/
theorem held_of_starts {c : Chip} {e : EntryId} {op : Nat} (h : c.starts e op = true) : c.held = false := by
  simp only [Chip.starts, Bool.and_eq_true, Bool.not_eq_true'] at h
  exact h.1.1.1

theorem run_of_starts {s : State} {e : EntryId} {op : Nat} (h : s.chip.starts e op = true) (f : Chip → Chip) :
    s.run (fun c => c.start e.val op f) = .next (s.settled (f (s.chip.started e))) := by
  simp [State.run, held_of_starts h, start_of_starts h f]

/-- A plain command stays plain while it runs. -/
theorem started_plain (c : Chip) (e : EntryId) : (c.started e).plain e = c.plain e := by
  simp only [Chip.plain, started_entry]; rfl

/-! ### Finishing -/

/-- Package `d` is package `c` but for its base-die register pages. -/
def Chip.pagesOnly (c d : Chip) : Prop := ∃ l, d = { c with pages := l }

theorem pagesOnly_refl (c : Chip) : c.pagesOnly c := ⟨c.pages, rfl⟩

theorem pagesOnly_trans {a b c : Chip} (h : a.pagesOnly b) (k : b.pagesOnly c) : a.pagesOnly c := by
  obtain ⟨l, rfl⟩ := h
  obtain ⟨m, rfl⟩ := k
  exact ⟨m, rfl⟩

theorem pagesOnly_count (c : Chip) (n off k : Nat) : c.pagesOnly (c.count n off k) := ⟨_, rfl⟩

theorem pagesOnly_raise (c : Chip) (n i : Nat) : c.pagesOnly (c.raise n i) := ⟨_, rfl⟩

theorem pagesOnly_ite {c d : Chip} (p : Prop) [Decidable p] (h : c.pagesOnly d) : c.pagesOnly (if p then d else c) := by
  split
  · exact h
  · exact pagesOnly_refl c

/-- Counting a status changes register pages alone. -/
theorem countStatus_eq (c : Chip) (op st : Nat) : ∃ l, c.countStatus op st = { c with pages := l } := by
  unfold Chip.countStatus
  have h1 := pagesOnly_ite (unitOf op = 0) (pagesOnly_count c pgSPIKE 0x104 1)
  generalize (if unitOf op = 0 then c.count pgSPIKE 0x104 1 else c) = c1 at h1 ⊢
  have h2 := pagesOnly_trans h1 (pagesOnly_ite (st = stGATE_LOST) (pagesOnly_count c1 pgGATE 0x144 1))
  dsimp only
  generalize (if st = stGATE_LOST then c1.count pgGATE 0x144 1 else c1) = c2 at h2 ⊢
  exact pagesOnly_trans h2 (pagesOnly_ite (st = stASLEEP) (pagesOnly_trans (pagesOnly_count c2 pgPOWER 0x148 1) (pagesOnly_raise _ pgPOWER 2)))

@[simp] theorem countStatus_entry (c : Chip) (op st e : Nat) : (c.countStatus op st).entry e = c.entry e := by
  obtain ⟨l, h⟩ := countStatus_eq c op st
  rw [h]
  rfl

/-- The entry of a plain command that finishes. -/
def Chip.doneEntry (c : Chip) (e st r : Nat) (pr : W32) : SbEntry :=
  { c.entry e with state := .completing, readyNo := c.readied, progress := pr, status := BitVec.ofNat 8 st, result := BitVec.ofNat 64 r }

/-- What a RUNNING plain command that finishes does, in one line. -/
theorem finish_plain {c : Chip} {e : EntryId} (st r : Nat) (pr : W32) (hr : (c.entry e.val).state = .running)
    (hp : c.plain e = true) :
    c.finish e.val st r pr =
      (({ (c.freeChannel e.val).putEntry e.val (c.doneEntry e.val st r pr) with readied := c.readied + 1 } : Chip).putEntry e.val
        (c.doneEntry e.val st r pr)).countStatus (c.entry e.val).opcode st := by
  simp only [Chip.plain, Bool.and_eq_true, bne_iff_ne, ne_eq, Bool.not_eq_true'] at hp
  obtain ⟨⟨hs, hq⟩, hg⟩ := hp
  unfold Chip.finish
  simp only [hr, reduceCtorEq, decide_false, Bool.or_self, Bool.false_eq_true, if_false]
  cases hsrc : (c.entry e.val).source with
  | share => exact absurd hsrc hs
  | ctx q =>
    have h1 : ∀ (d : Chip) (y : SbEntry), y.words = (c.entry e.val).words → d.signal y st = (d, st) := by
      intro d y hy
      unfold Chip.signal
      have : bit (y.bytes 24 4) 31 = false := by
        simpa [SbEntry.bytes, hy] using hg
      simp [this]
    rw [h1 _ _ (by rfl)]
    simp only [hq, Bool.false_and, Bool.false_eq_true, if_false, Chip.doneEntry, hsrc]
    rfl

/-- Giving a channel back changes the channels alone. -/
theorem freeChannel_eq (c : Chip) (e : Nat) : ∃ k, c.freeChannel e = { c with channels := k } := by
  unfold Chip.freeChannel
  exact ⟨_, rfl⟩

/-- The parts of the package that such a finish can change. -/
theorem finish_shape {c : Chip} {e : EntryId} (st r : Nat) (pr : W32) (hr : (c.entry e.val).state = .running) (hp : c.plain e = true) :
    ∃ k l m n, c.finish e.val st r pr = { c with channels := k, sb := l, readied := m, pages := n } := by
  rw [finish_plain st r pr hr hp]
  obtain ⟨k, hk⟩ := freeChannel_eq c e.val
  generalize c.doneEntry e.val st r pr = y
  rw [hk]
  obtain ⟨n, hn⟩ := countStatus_eq (({ ({ c with channels := k } : Chip).putEntry e.val y with readied := c.readied + 1 } : Chip).putEntry e.val y)
    (c.entry e.val).opcode st
  rw [hn]
  unfold Chip.putEntry
  exact ⟨k, _, c.readied + 1, n, rfl⟩

theorem finish_entry {c : Chip} {e : EntryId} (st r : Nat) (pr : W32) (hr : (c.entry e.val).state = .running)
    (hp : c.plain e = true) : (c.finish e.val st r pr).entry e.val = c.doneEntry e.val st r pr := by
  simp [finish_plain st r pr hr hp]

theorem finish_done {c : Chip} {e : EntryId} (st r : Nat) (pr : W32) (hr : (c.entry e.val).state = .running)
    (hp : c.plain e = true) : (c.finish e.val st r pr).done e st r = true := by
  simp [Chip.done, finish_entry st r pr hr hp, Chip.doneEntry]

theorem finish_other {c : Chip} {e : EntryId} (st r : Nat) (pr : W32) (hr : (c.entry e.val).state = .running)
    (hp : c.plain e = true) {f : Nat} (hf : f ≠ e.val) : (c.finish e.val st r pr).entry f = c.entry f := by
  rw [finish_plain st r pr hr hp, countStatus_entry]
  simp [Chip.entry, Chip.putEntry, mapGet_mapSet_other _ _ _ hf, Chip.freeChannel]

/-- A finish of a plain command leaves pastures, objects, host memory and tiles alone. -/
theorem finish_frame {c : Chip} {e : EntryId} (st r : Nat) (pr : W32) (hr : (c.entry e.val).state = .running)
    (hp : c.plain e = true) :
    (c.finish e.val st r pr).pasts = c.pasts ∧ (c.finish e.val st r pr).objs = c.objs
      ∧ (c.finish e.val st r pr).host = c.host ∧ (c.finish e.val st r pr).tiles = c.tiles
      ∧ (c.finish e.val st r pr).nv = c.nv ∧ (c.finish e.val st r pr).next = c.next
      ∧ (c.finish e.val st r pr).ladders = c.ladders ∧ (c.finish e.val st r pr).dies = c.dies := by
  obtain ⟨k, l, m, n, h⟩ := finish_shape st r pr hr hp
  rw [h]
  exact ⟨rfl, rfl, rfl, rfl, rfl, rfl, rfl, rfl⟩

@[simp] theorem finish_past {c : Chip} {e : EntryId} (st r : Nat) (pr : W32) (hr : (c.entry e.val).state = .running)
    (hp : c.plain e = true) (p : Nat) : (c.finish e.val st r pr).past p = c.past p := by
  simp [Chip.past, (finish_frame st r pr hr hp).1]

/-! ### Packages alike but for an entry -/

theorem like_trans {a b c : Chip} {e : EntryId} (h : a.like b e) (k : b.like c e) : a.like c e := by
  refine ⟨fun f hf => (k.1 f hf).trans (h.1 f hf), ?_⟩
  have hb := h.2
  have hc := k.2
  rw [hb] at hc
  exact hc

theorem like_started (c : Chip) (e : EntryId) : c.like (c.started e) e := by
  obtain ⟨l, m, h⟩ := started_eq c e
  refine ⟨fun f hf => ?_, ?_⟩
  · rw [h]
    exact (show _ = (c.putEntry e.val { c.entry e.val with state := .running }).entry f from rfl).trans
      (by simp [Chip.entry, Chip.putEntry, mapGet_mapSet_other _ _ _ hf])
  · rw [h]; rfl

theorem like_finish {c : Chip} {e : EntryId} (st r : Nat) (pr : W32) (hr : (c.entry e.val).state = .running)
    (hp : c.plain e = true) : c.like (c.finish e.val st r pr) e := by
  refine ⟨fun f hf => finish_other st r pr hr hp hf, ?_⟩
  obtain ⟨k, l, m, n, h⟩ := finish_shape st r pr hr hp
  rw [h]

theorem ends_finish {c : Chip} {e : EntryId} (st r : Nat) (pr : W32) (hr : (c.entry e.val).state = .running)
    (hp : c.plain e = true) : c.ends (c.finish e.val st r pr) e st r :=
  ⟨finish_done st r pr hr hp, like_finish st r pr hr hp⟩

/-- A command that starts and finishes at once with no other effect. -/
theorem ends_started {c : Chip} {e : EntryId} (st r : Nat) (pr : W32) (hp : c.plain e = true) :
    c.ends ((c.started e).finish e.val st r pr) e st r := by
  have h := ends_finish (c := c.started e) (e := e) st r pr (by simp) (by rw [started_plain]; exact hp)
  exact ⟨h.1, like_trans (like_started c e) h.2⟩

/-- A placement that succeeds is not blocked. -/
@[simp] theorem blocked_ok (c : Chip) (e : Nat) (f : Chip → Nat) : c.blocked e stOK f = false := by
  unfold Chip.blocked
  rw [show (decide (stOK = stNO_PLACE)) = false from rfl]
  rfl

/-- A scoreboard command that starts answers the state its unit leaves, settled. -/
theorem takes_of_starts {s : State} {i : Instr} {e : EntryId} {op : Nat} {f : Chip → Chip} {post : Chip → Prop}
    (hi : exec i s = s.run (fun c => c.start e.val op f)) (h : s.chip.starts e op = true) (hp : post (f (s.chip.started e))) :
    s.takes i post :=
  ⟨_, by rw [hi, run_of_starts h], hp⟩

/-- A command of the package that is not held answers the state its effect leaves, settled. -/
theorem takes_of_run {s : State} {i : Instr} {f : Chip → Chip} {post : Chip → Prop} (hi : exec i s = s.run f)
    (h : s.chip.held = false) (hp : post (f s.chip)) : s.takes i post :=
  ⟨_, by rw [hi]; simp [State.run, h], hp⟩

end Sys2Proof.Machine
end

