-- ==== Sys2Proof/Laws/Forms.lean ====
section
/-! SUPPORT. How each command enters, said once: a command of the package runs on a package that is not held, a command of the
shelf changes the shelf alone, and so on. -/

namespace Sys2Proof.Machine

theorem shaped_wf {i : Instr} (h : i.wf = true) (a : Ans) : shaped i a = a := by unfold shaped; rw [if_pos h]

theorem shaped_ill {i : Instr} (h : i.wf = false) (a : Ans) : shaped i a = .fault .illFormed := by
  unfold shaped; rw [if_neg (by rw [h]; exact Bool.false_ne_true)]

/-- A command of the package, its lists in shape, runs on the package. -/
theorem exec_package (i : Instr) (h : i.ofPackage = true) (s : State) : ∃ f, exec i s = shaped i (s.run f) := by
  cases i
  case nop => simp only [exec, execNop]; exact ⟨_, (shaped_wf rfl _).symm⟩
  case syncCfg => simp only [exec, execSyncCfg]; exact ⟨_, (shaped_wf rfl _).symm⟩
  case hold => simp only [exec, execHold]; exact ⟨_, (shaped_wf rfl _).symm⟩
  case release => simp only [exec, execRelease]; exact ⟨_, (shaped_wf rfl _).symm⟩
  case abort => simp only [exec, execAbort]; exact ⟨_, (shaped_wf rfl _).symm⟩
  case shift => simp only [exec, execShift]; exact ⟨_, (shaped_wf rfl _).symm⟩
  case unload => simp only [exec, execUnload]; exact ⟨_, (shaped_wf rfl _).symm⟩
  case testUnit => simp only [exec, execTestUnit]; exact ⟨_, (shaped_wf rfl _).symm⟩
  case setDomain => simp only [exec, execSetDomain]; exact ⟨_, (shaped_wf rfl _).symm⟩
  case setOpPoint => simp only [exec, execSetOpPoint]; exact ⟨_, (shaped_wf rfl _).symm⟩
  case setProfile => simp only [exec, execSetProfile]; exact ⟨_, (shaped_wf rfl _).symm⟩
  case run => simp only [exec, execRun]; exact ⟨_, (shaped_wf rfl _).symm⟩
  case inject => simp only [exec, execInject]; exact ⟨_, (shaped_wf rfl _).symm⟩
  case replayCheck => simp only [exec, execReplayCheck]; exact ⟨_, (shaped_wf rfl _).symm⟩
  case pass => simp only [exec, execPass]; exact ⟨_, (shaped_wf rfl _).symm⟩
  case ladder => simp only [exec, execLadder]; exact ⟨_, (shaped_wf rfl _).symm⟩
  case copy => simp only [exec, execCopy]; exact ⟨_, (shaped_wf rfl _).symm⟩
  case load => simp only [exec, execLoad]; exact ⟨_, (shaped_wf rfl _).symm⟩
  case pageOut => simp only [exec, execPageOut]; exact ⟨_, (shaped_wf rfl _).symm⟩
  case pageIn => simp only [exec, execPageIn]; exact ⟨_, (shaped_wf rfl _).symm⟩
  case checkpoint => simp only [exec, execCheckpoint]; exact ⟨_, (shaped_wf rfl _).symm⟩
  case restore => simp only [exec, execRestore]; exact ⟨_, (shaped_wf rfl _).symm⟩
  case nvSave => simp only [exec, execNvSave]; exact ⟨_, (shaped_wf rfl _).symm⟩
  case nvLoad => simp only [exec, execNvLoad]; exact ⟨_, (shaped_wf rfl _).symm⟩
  case sqPi => simp only [exec, execSqPi]; exact ⟨_, (shaped_wf rfl _).symm⟩
  case cqCi => simp only [exec, execCqCi]; exact ⟨_, (shaped_wf rfl _).symm⟩
  case remoteDbVal => simp only [exec, execRemoteDbVal]; exact ⟨_, (shaped_wf rfl _).symm⟩
  case fetch => simp only [exec, execFetch]; exact ⟨_, (shaped_wf rfl _).symm⟩
  case completionRecordWrite => simp only [exec, execCompletionRecordWrite]; exact ⟨_, (shaped_wf rfl _).symm⟩
  case modDelay => simp only [exec, execModDelay]; exact ⟨_, (shaped_wf rfl _).symm⟩
  case enable => simp only [exec, execEnable]; exact ⟨_, (shaped_wf rfl _).symm⟩
  case stop => simp only [exec, execStop]; exact ⟨_, (shaped_wf rfl _).symm⟩
  case resume => simp only [exec, execResume]; exact ⟨_, (shaped_wf rfl _).symm⟩
  case disable => simp only [exec, execDisable]; exact ⟨_, (shaped_wf rfl _).symm⟩
  case add => simp only [exec, execAdd]; exact ⟨_, (shaped_wf rfl _).symm⟩
  case set => simp only [exec, execSet]; exact ⟨_, (shaped_wf rfl _).symm⟩
  case objCfg => simp only [exec, execObjCfg]; exact ⟨_, (shaped_wf rfl _).symm⟩
  case poolGrant => simp only [exec, execPoolGrant]; exact ⟨_, (shaped_wf rfl _).symm⟩
  case commandShare => simp only [exec, execCommandShare]; exact ⟨_, rfl⟩
  case torderNop => simp only [exec, execTorderNop]; exact ⟨_, rfl⟩
  case runChain => simp only [exec, execRunChain]; exact ⟨_, rfl⟩
  case clear => simp only [exec, execClear]; exact ⟨_, rfl⟩
  case test => simp only [exec, execTest]; exact ⟨_, rfl⟩
  case torderReset => simp only [exec, execTorderReset]; exact ⟨_, rfl⟩
  case axon => simp only [exec, execAxon]; exact ⟨_, (shaped_wf rfl _).symm⟩
  case flock => simp only [exec, execFlock]; exact ⟨_, (shaped_wf rfl _).symm⟩
  case tally => simp only [exec, execTally]; exact ⟨_, (shaped_wf rfl _).symm⟩
  case bankWrite => simp only [exec, execBankWrite]; exact ⟨_, rfl⟩
  case registerWrite => simp only [exec, execRegisterWrite]; exact ⟨_, rfl⟩
  case readReq => simp only [exec, execReadReq]; exact ⟨_, (shaped_wf rfl _).symm⟩
  case readResp => simp only [exec, execReadResp]; exact ⟨_, rfl⟩
  case completion => simp only [exec, execCompletion]; exact ⟨_, (shaped_wf rfl _).symm⟩
  case trace => simp only [exec, execTrace]; exact ⟨_, (shaped_wf rfl _).symm⟩
  case exchange => simp only [exec, execExchange]; exact ⟨_, (shaped_wf rfl _).symm⟩
  case portEgress => simp only [exec, execPortEgress]; exact ⟨_, (shaped_wf rfl _).symm⟩
  case digestIn => simp only [exec, execDigestIn]; exact ⟨_, (shaped_wf rfl _).symm⟩
  case droveEntry => simp only [exec, execDroveEntry]; exact ⟨_, (shaped_wf rfl _).symm⟩
  case close => simp only [exec, execClose]; exact ⟨_, (shaped_wf rfl _).symm⟩
  case pacerTick => simp only [exec, execPacerTick]; exact ⟨_, (shaped_wf rfl _).symm⟩
  case roundStart => simp only [exec, execRoundStart]; exact ⟨_, (shaped_wf rfl _).symm⟩
  case spike => simp only [exec, execSpike]; exact ⟨_, (shaped_wf rfl _).symm⟩
  case lapStart => simp only [exec, execLapStart]; exact ⟨_, (shaped_wf rfl _).symm⟩
  case lapVote => simp only [exec, execLapVote]; exact ⟨_, (shaped_wf rfl _).symm⟩
  case integrate => simp only [exec, execIntegrate]; exact ⟨_, (shaped_wf rfl _).symm⟩
  case learn => simp only [exec, execLearn]; exact ⟨_, (shaped_wf rfl _).symm⟩
  case musterArrive => simp only [exec, execMusterArrive]; exact ⟨_, (shaped_wf rfl _).symm⟩
  case musterComplete => simp only [exec, execMusterComplete]; exact ⟨_, (shaped_wf rfl _).symm⟩
  case freeLadderStep => simp only [exec, execFreeLadderStep]; exact ⟨_, (shaped_wf rfl _).symm⟩
  case holdExpiry => simp only [exec, execHoldExpiry]; exact ⟨_, (shaped_wf rfl _).symm⟩
  case stallFreeze => simp only [exec, execStallFreeze]; exact ⟨_, (shaped_wf rfl _).symm⟩
  case take => simp only [exec, execTake]; exact ⟨_, (shaped_wf rfl _).symm⟩
  case thaw => simp only [exec, execThaw]; exact ⟨_, (shaped_wf rfl _).symm⟩
  case hwClear => simp only [exec, execHwClear]; exact ⟨_, (shaped_wf rfl _).symm⟩
  case droveData => simp only [exec, execDroveData]; exact ⟨_, (shaped_wf rfl _).symm⟩
  case timeLoRead => simp only [exec, execTimeLoRead]; exact ⟨_, (shaped_wf rfl _).symm⟩
  case countClear => simp only [exec, execCountClear]; exact ⟨_, (shaped_wf rfl _).symm⟩
  case lock => simp only [exec, execLock]; exact ⟨_, (shaped_wf rfl _).symm⟩
  case faultClear => simp only [exec, execFaultClear]; exact ⟨_, (shaped_wf rfl _).symm⟩
  case ceClear => simp only [exec, execCeClear]; exact ⟨_, (shaped_wf rfl _).symm⟩
  case blkEventClear => simp only [exec, execBlkEventClear]; exact ⟨_, (shaped_wf rfl _).symm⟩
  case blkEventForce => simp only [exec, execBlkEventForce]; exact ⟨_, (shaped_wf rfl _).symm⟩
  case windowWaitMet => simp only [exec, execWindowWaitMet]; exact ⟨_, (shaped_wf rfl _).symm⟩
  case windowWaitTimeout => simp only [exec, execWindowWaitTimeout]; exact ⟨_, (shaped_wf rfl _).symm⟩
  case domReq => simp only [exec, execDomReq]; exact ⟨_, (shaped_wf rfl _).symm⟩
  case drainEnd => simp only [exec, execDrainEnd]; exact ⟨_, (shaped_wf rfl _).symm⟩
  case drainTimeout => simp only [exec, execDrainTimeout]; exact ⟨_, (shaped_wf rfl _).symm⟩
  case coreIdle => simp only [exec, execCoreIdle]; exact ⟨_, (shaped_wf rfl _).symm⟩
  case routerIdle => simp only [exec, execRouterIdle]; exact ⟨_, (shaped_wf rfl _).symm⟩
  case powerCapSample => simp only [exec, execPowerCapSample]; exact ⟨_, (shaped_wf rfl _).symm⟩
  case throttleSample => simp only [exec, execThrottleSample]; exact ⟨_, rfl⟩
  case tripClear => simp only [exec, execTripClear]; exact ⟨_, (shaped_wf rfl _).symm⟩
  case voltageStep => simp only [exec, execVoltageStep]; exact ⟨_, (shaped_wf rfl _).symm⟩
  case laneCheckDue => simp only [exec, execLaneCheckDue]; exact ⟨_, (shaped_wf rfl _).symm⟩
  case laneCheck => simp only [exec, execLaneCheck]; exact ⟨_, (shaped_wf rfl _).symm⟩
  case regFault => simp only [exec, execRegFault]; exact ⟨_, (shaped_wf rfl _).symm⟩
  case handshakeFail => simp only [exec, execHandshakeFail]; exact ⟨_, (shaped_wf rfl _).symm⟩
  case padsRelease => simp only [exec, execPadsRelease]; exact ⟨_, (shaped_wf rfl _).symm⟩
  case wakeDetect => exact absurd h Bool.false_ne_true
  case routeSlotStart => simp only [exec, execRouteSlotStart]; exact ⟨_, (shaped_wf rfl _).symm⟩
  case alarm => exact absurd h Bool.false_ne_true
  case setCtrlLoad => simp only [exec, execSetCtrlLoad]; exact ⟨_, (shaped_wf rfl _).symm⟩
  case rtcLock => exact absurd h Bool.false_ne_true
  case xtalFail => exact absurd h Bool.false_ne_true
  case powerOnReset => exact absurd h Bool.false_ne_true
  case porNAssert => exact absurd h Bool.false_ne_true
  case porNRelease => exact absurd h Bool.false_ne_true
  case brownout => exact absurd h Bool.false_ne_true
  case pkgReset => simp only [exec, execPkgReset]; exact ⟨_, (shaped_wf rfl _).symm⟩
  case dieReset => simp only [exec, execDieReset]; exact ⟨_, (shaped_wf rfl _).symm⟩
  case tileReset => simp only [exec, execTileReset]; exact ⟨_, (shaped_wf rfl _).symm⟩
  case gateReset => simp only [exec, execGateReset]; exact ⟨_, (shaped_wf rfl _).symm⟩
  case configRequest => simp only [exec, execConfigRequest]; exact ⟨_, (shaped_wf rfl _).symm⟩
  case machineWindowAccess => simp only [exec, execMachineWindowAccess]; exact ⟨_, rfl⟩
  case gateLinkDown => simp only [exec, execGateLinkDown]; exact ⟨_, (shaped_wf rfl _).symm⟩
  case gateLinkUp => simp only [exec, execGateLinkUp]; exact ⟨_, (shaped_wf rfl _).symm⟩
  case dmaCompletion => simp only [exec, execDmaCompletion]; exact ⟨_, (shaped_wf rfl _).symm⟩
  case dmaCompletionTimeout => simp only [exec, execDmaCompletionTimeout]; exact ⟨_, (shaped_wf rfl _).symm⟩
  case msixUnmask => simp only [exec, execMsixUnmask]; exact ⟨_, (shaped_wf rfl _).symm⟩
  case egressRecordWrite => simp only [exec, execEgressRecordWrite]; exact ⟨_, (shaped_wf rfl _).symm⟩
  case eringCi => simp only [exec, execEringCi]; exact ⟨_, (shaped_wf rfl _).symm⟩
  case traceCi => simp only [exec, execTraceCi]; exact ⟨_, (shaped_wf rfl _).symm⟩
  case eventPacket => simp only [exec, execEventPacket]; exact ⟨_, (shaped_wf rfl _).symm⟩
  case otherPacket => simp only [exec, execOtherPacket]; exact ⟨_, (shaped_wf rfl _).symm⟩
  case frameStart => simp only [exec, execFrameStart]; exact ⟨_, (shaped_wf rfl _).symm⟩
  case rawLine => simp only [exec, execRawLine]; exact ⟨_, (shaped_wf rfl _).symm⟩
  case frameEnd => simp only [exec, execFrameEnd]; exact ⟨_, (shaped_wf rfl _).symm⟩
  case aerHandshake => simp only [exec, execAerHandshake]; exact ⟨_, (shaped_wf rfl _).symm⟩
  case dataFrame => simp only [exec, execDataFrame]; exact ⟨_, rfl⟩
  case idleFrame => simp only [exec, execIdleFrame]; exact ⟨_, rfl⟩
  case idleFrameSend => simp only [exec, execIdleFrameSend]; exact ⟨_, (shaped_wf rfl _).symm⟩
  case hello => simp only [exec, execHello]; exact ⟨_, rfl⟩
  case leave => simp only [exec, execLeave]; exact ⟨_, rfl⟩
  case ackTimeout => simp only [exec, execAckTimeout]; exact ⟨_, (shaped_wf rfl _).symm⟩
  case linkDown => simp only [exec, execLinkDown]; exact ⟨_, (shaped_wf rfl _).symm⟩
  case holdExpired => simp only [exec, execHoldExpired]; exact ⟨_, (shaped_wf rfl _).symm⟩
  case bringup => simp only [exec, execBringup]; exact ⟨_, (shaped_wf rfl _).symm⟩
  case bringupTimeout => simp only [exec, execBringupTimeout]; exact ⟨_, (shaped_wf rfl _).symm⟩
  case whistleSend => simp only [exec, execWhistleSend]; exact ⟨_, (shaped_wf rfl _).symm⟩
  case linkState => simp only [exec, execLinkState]; exact ⟨_, (shaped_wf rfl _).symm⟩
  case mainsLoss => exact absurd h Bool.false_ne_true
  case handoverEnd => exact absurd h Bool.false_ne_true
  case qualifyComplete => exact absurd h Bool.false_ne_true
  case rampEnd => exact absurd h Bool.false_ne_true
  case reserve => exact absurd h Bool.false_ne_true
  case cutoff => exact absurd h Bool.false_ne_true
  case lockoutClear => exact absurd h Bool.false_ne_true
  case powerStorm => exact absurd h Bool.false_ne_true
  case powerCalm => exact absurd h Bool.false_ne_true
  case shelterStart => simp only [exec, execShelterStart]; exact ⟨_, (shaped_wf rfl _).symm⟩
  case nvPageWrite => simp only [exec, execNvPageWrite]; exact ⟨_, (shaped_wf rfl _).symm⟩
  case scrubVisit => simp only [exec, execScrubVisit]; exact ⟨_, (shaped_wf rfl _).symm⟩
  case shear => simp only [exec, execShear]; exact ⟨_, (shaped_wf rfl _).symm⟩
  case testDue => simp only [exec, execTestDue]; exact ⟨_, (shaped_wf rfl _).symm⟩
  case deferLimit => simp only [exec, execDeferLimit]; exact ⟨_, (shaped_wf rfl _).symm⟩
  case deferRetry => simp only [exec, execDeferRetry]; exact ⟨_, (shaped_wf rfl _).symm⟩
  case placementRetry => simp only [exec, execPlacementRetry]; exact ⟨_, (shaped_wf rfl _).symm⟩
  case viewSweep => simp only [exec, execViewSweep]; exact ⟨_, (shaped_wf rfl _).symm⟩
  case unitReturn => simp only [exec, execUnitReturn]; exact ⟨_, (shaped_wf rfl _).symm⟩
  case reconcile => simp only [exec, execReconcile]; exact ⟨_, (shaped_wf rfl _).symm⟩
  case restart => simp only [exec, execRestart]; exact ⟨_, (shaped_wf rfl _).symm⟩
  case logWrite => simp only [exec, execLogWrite]; exact ⟨_, (shaped_wf rfl _).symm⟩
  case identGet => exact absurd h Bool.false_ne_true
  case regRead => exact absurd h Bool.false_ne_true
  case regWrite => exact absurd h Bool.false_ne_true
  case submit => exact absurd h Bool.false_ne_true
  case profileRead => exact absurd h Bool.false_ne_true
  case profileStage => exact absurd h Bool.false_ne_true
  case profileCommit => exact absurd h Bool.false_ne_true
  case fwBegin => exact absurd h Bool.false_ne_true
  case fwData => exact absurd h Bool.false_ne_true
  case fwEnd => exact absurd h Bool.false_ne_true
  case fwCommit => exact absurd h Bool.false_ne_true
  case fwSessionIdle => simp only [exec, execFwSessionIdle]; exact ⟨_, (shaped_wf rfl _).symm⟩
  case debugChallenge => exact absurd h Bool.false_ne_true
  case debugUnlock => exact absurd h Bool.false_ne_true
  case debugClose => exact absurd h Bool.false_ne_true
  case dbgCtrlClose => simp only [exec, execDbgCtrlClose]; exact ⟨_, (shaped_wf rfl _).symm⟩
  case debugExpiry => simp only [exec, execDebugExpiry]; exact ⟨_, (shaped_wf rfl _).symm⟩
  case auditRead => exact absurd h Bool.false_ne_true
  case auditAck => exact absurd h Bool.false_ne_true
  case mapRead => exact absurd h Bool.false_ne_true
  case notice => exact absurd h Bool.false_ne_true
  case responseRead => exact absurd h Bool.false_ne_true
  case mboxTake => simp only [exec, execMboxTake]; exact ⟨_, (shaped_wf rfl _).symm⟩
  case toPackage => exact absurd h Bool.false_ne_true
  case bridgeRetry => exact absurd h Bool.false_ne_true
  case setProfilePins => exact absurd h Bool.false_ne_true
  case powerOn => exact absurd h Bool.false_ne_true
  case powerOff => exact absurd h Bool.false_ne_true
  case sledNotice => exact absurd h Bool.false_ne_true
  case stateGet => exact absurd h Bool.false_ne_true
  case enumeration => exact absurd h Bool.false_ne_true
  case sledPowerUp => exact absurd h Bool.false_ne_true
  case page => exact absurd h Bool.false_ne_true
  case operation => exact absurd h Bool.false_ne_true
  case clearFaults => exact absurd h Bool.false_ne_true
  case capability => exact absurd h Bool.false_ne_true
  case voutMode => exact absurd h Bool.false_ne_true
  case statusByte => exact absurd h Bool.false_ne_true
  case statusWord => exact absurd h Bool.false_ne_true
  case statusVout => exact absurd h Bool.false_ne_true
  case statusIout => exact absurd h Bool.false_ne_true
  case statusInput => exact absurd h Bool.false_ne_true
  case statusTemperature => exact absurd h Bool.false_ne_true
  case statusCml => exact absurd h Bool.false_ne_true
  case readVin => exact absurd h Bool.false_ne_true
  case readIin => exact absurd h Bool.false_ne_true
  case readVout => exact absurd h Bool.false_ne_true
  case readIout => exact absurd h Bool.false_ne_true
  case readTemperature1 => exact absurd h Bool.false_ne_true
  case readPout => exact absurd h Bool.false_ne_true
  case readPin => exact absurd h Bool.false_ne_true
  case pmbusRevision => exact absurd h Bool.false_ne_true
  case mfrId => exact absurd h Bool.false_ne_true
  case mfrModel => exact absurd h Bool.false_ne_true
  case mfrShelfState => exact absurd h Bool.false_ne_true
  case mfrShelfEvents => exact absurd h Bool.false_ne_true
  case mfrBattSoc => exact absurd h Bool.false_ne_true
  case mfrBattHoldup => exact absurd h Bool.false_ne_true
  case mfrReturnQualify => exact absurd h Bool.false_ne_true
  case mfrReserveLevel => exact absurd h Bool.false_ne_true
  case mfrCutoffLevel => exact absurd h Bool.false_ne_true
  case mfrBattHealth => exact absurd h Bool.false_ne_true
  case mfrHandoverTime => exact absurd h Bool.false_ne_true
  case mfrReturnLog => exact absurd h Bool.false_ne_true
  case mfrStormCount => exact absurd h Bool.false_ne_true
  case mfrTestHandover => exact absurd h Bool.false_ne_true
  case extest => exact absurd h Bool.false_ne_true
  case idcode => exact absurd h Bool.false_ne_true
  case samplePreload => exact absurd h Bool.false_ne_true
  case clamp => exact absurd h Bool.false_ne_true
  case bypass => exact absurd h Bool.false_ne_true
  case registerRead => simp only [exec, execRegisterRead]; exact ⟨_, (shaped_wf rfl _).symm⟩
  case debugApertureAccess => simp only [exec, execDebugApertureAccess]; exact ⟨_, rfl⟩
  case wakingEnd => simp only [exec, execWakingEnd]; exact ⟨_, (shaped_wf rfl _).symm⟩
  case railRecovery => exact absurd h Bool.false_ne_true
  case dieTrip => simp only [exec, execDieTrip]; exact ⟨_, (shaped_wf rfl _).symm⟩
  case syncLost => simp only [exec, execSyncLost]; exact ⟨_, (shaped_wf rfl _).symm⟩
  case hsSync => simp only [exec, execHsSync]; exact ⟨_, (shaped_wf rfl _).symm⟩
  case reqLow => simp only [exec, execReqLow]; exact ⟨_, (shaped_wf rfl _).symm⟩
  case mainsReturn => exact absurd h Bool.false_ne_true
  case handoverTestEnd => exact absurd h Bool.false_ne_true

/-- A command that acts in a reset too. -/
theorem exec_inReset (i : Instr) (h : i.inReset = true) (s : State) : ∃ f, exec i s = s.runAny f := by
  cases i
  case nop => exact absurd h Bool.false_ne_true
  case syncCfg => exact absurd h Bool.false_ne_true
  case hold => exact absurd h Bool.false_ne_true
  case release => exact absurd h Bool.false_ne_true
  case abort => exact absurd h Bool.false_ne_true
  case shift => exact absurd h Bool.false_ne_true
  case unload => exact absurd h Bool.false_ne_true
  case testUnit => exact absurd h Bool.false_ne_true
  case setDomain => exact absurd h Bool.false_ne_true
  case setOpPoint => exact absurd h Bool.false_ne_true
  case setProfile => exact absurd h Bool.false_ne_true
  case run => exact absurd h Bool.false_ne_true
  case inject => exact absurd h Bool.false_ne_true
  case replayCheck => exact absurd h Bool.false_ne_true
  case pass => exact absurd h Bool.false_ne_true
  case ladder => exact absurd h Bool.false_ne_true
  case copy => exact absurd h Bool.false_ne_true
  case load => exact absurd h Bool.false_ne_true
  case pageOut => exact absurd h Bool.false_ne_true
  case pageIn => exact absurd h Bool.false_ne_true
  case checkpoint => exact absurd h Bool.false_ne_true
  case restore => exact absurd h Bool.false_ne_true
  case nvSave => exact absurd h Bool.false_ne_true
  case nvLoad => exact absurd h Bool.false_ne_true
  case sqPi => exact absurd h Bool.false_ne_true
  case cqCi => exact absurd h Bool.false_ne_true
  case remoteDbVal => exact absurd h Bool.false_ne_true
  case fetch => exact absurd h Bool.false_ne_true
  case completionRecordWrite => exact absurd h Bool.false_ne_true
  case modDelay => exact absurd h Bool.false_ne_true
  case enable => exact absurd h Bool.false_ne_true
  case stop => exact absurd h Bool.false_ne_true
  case resume => exact absurd h Bool.false_ne_true
  case disable => exact absurd h Bool.false_ne_true
  case add => exact absurd h Bool.false_ne_true
  case set => exact absurd h Bool.false_ne_true
  case objCfg => exact absurd h Bool.false_ne_true
  case poolGrant => exact absurd h Bool.false_ne_true
  case commandShare => exact absurd h Bool.false_ne_true
  case torderNop => exact absurd h Bool.false_ne_true
  case runChain => exact absurd h Bool.false_ne_true
  case clear => exact absurd h Bool.false_ne_true
  case test => exact absurd h Bool.false_ne_true
  case torderReset => exact absurd h Bool.false_ne_true
  case axon => exact absurd h Bool.false_ne_true
  case flock => exact absurd h Bool.false_ne_true
  case tally => exact absurd h Bool.false_ne_true
  case bankWrite => exact absurd h Bool.false_ne_true
  case registerWrite => exact absurd h Bool.false_ne_true
  case readReq => exact absurd h Bool.false_ne_true
  case readResp => exact absurd h Bool.false_ne_true
  case completion => exact absurd h Bool.false_ne_true
  case trace => exact absurd h Bool.false_ne_true
  case exchange => exact absurd h Bool.false_ne_true
  case portEgress => exact absurd h Bool.false_ne_true
  case digestIn => exact absurd h Bool.false_ne_true
  case droveEntry => exact absurd h Bool.false_ne_true
  case close => exact absurd h Bool.false_ne_true
  case pacerTick => exact absurd h Bool.false_ne_true
  case roundStart => exact absurd h Bool.false_ne_true
  case spike => exact absurd h Bool.false_ne_true
  case lapStart => exact absurd h Bool.false_ne_true
  case lapVote => exact absurd h Bool.false_ne_true
  case integrate => exact absurd h Bool.false_ne_true
  case learn => exact absurd h Bool.false_ne_true
  case musterArrive => exact absurd h Bool.false_ne_true
  case musterComplete => exact absurd h Bool.false_ne_true
  case freeLadderStep => exact absurd h Bool.false_ne_true
  case holdExpiry => exact absurd h Bool.false_ne_true
  case stallFreeze => exact absurd h Bool.false_ne_true
  case take => exact absurd h Bool.false_ne_true
  case thaw => exact absurd h Bool.false_ne_true
  case hwClear => exact absurd h Bool.false_ne_true
  case droveData => exact absurd h Bool.false_ne_true
  case timeLoRead => exact absurd h Bool.false_ne_true
  case countClear => exact absurd h Bool.false_ne_true
  case lock => exact absurd h Bool.false_ne_true
  case faultClear => exact absurd h Bool.false_ne_true
  case ceClear => exact absurd h Bool.false_ne_true
  case blkEventClear => exact absurd h Bool.false_ne_true
  case blkEventForce => exact absurd h Bool.false_ne_true
  case windowWaitMet => exact absurd h Bool.false_ne_true
  case windowWaitTimeout => exact absurd h Bool.false_ne_true
  case domReq => exact absurd h Bool.false_ne_true
  case drainEnd => exact absurd h Bool.false_ne_true
  case drainTimeout => exact absurd h Bool.false_ne_true
  case coreIdle => exact absurd h Bool.false_ne_true
  case routerIdle => exact absurd h Bool.false_ne_true
  case powerCapSample => exact absurd h Bool.false_ne_true
  case throttleSample => exact absurd h Bool.false_ne_true
  case tripClear => exact absurd h Bool.false_ne_true
  case voltageStep => exact absurd h Bool.false_ne_true
  case laneCheckDue => exact absurd h Bool.false_ne_true
  case laneCheck => exact absurd h Bool.false_ne_true
  case regFault => exact absurd h Bool.false_ne_true
  case handshakeFail => exact absurd h Bool.false_ne_true
  case padsRelease => exact absurd h Bool.false_ne_true
  case wakeDetect => simp only [exec, execWakeDetect]; exact ⟨_, rfl⟩
  case routeSlotStart => exact absurd h Bool.false_ne_true
  case alarm => simp only [exec, execAlarm]; exact ⟨_, rfl⟩
  case setCtrlLoad => exact absurd h Bool.false_ne_true
  case rtcLock => simp only [exec, execRtcLock]; exact ⟨_, rfl⟩
  case xtalFail => simp only [exec, execXtalFail]; exact ⟨_, rfl⟩
  case powerOnReset => exact absurd h Bool.false_ne_true
  case porNAssert => exact absurd h Bool.false_ne_true
  case porNRelease => exact absurd h Bool.false_ne_true
  case brownout => simp only [exec, execBrownout]; exact ⟨_, rfl⟩
  case pkgReset => exact absurd h Bool.false_ne_true
  case dieReset => exact absurd h Bool.false_ne_true
  case tileReset => exact absurd h Bool.false_ne_true
  case gateReset => exact absurd h Bool.false_ne_true
  case configRequest => exact absurd h Bool.false_ne_true
  case machineWindowAccess => exact absurd h Bool.false_ne_true
  case gateLinkDown => exact absurd h Bool.false_ne_true
  case gateLinkUp => exact absurd h Bool.false_ne_true
  case dmaCompletion => exact absurd h Bool.false_ne_true
  case dmaCompletionTimeout => exact absurd h Bool.false_ne_true
  case msixUnmask => exact absurd h Bool.false_ne_true
  case egressRecordWrite => exact absurd h Bool.false_ne_true
  case eringCi => exact absurd h Bool.false_ne_true
  case traceCi => exact absurd h Bool.false_ne_true
  case eventPacket => exact absurd h Bool.false_ne_true
  case otherPacket => exact absurd h Bool.false_ne_true
  case frameStart => exact absurd h Bool.false_ne_true
  case rawLine => exact absurd h Bool.false_ne_true
  case frameEnd => exact absurd h Bool.false_ne_true
  case aerHandshake => exact absurd h Bool.false_ne_true
  case dataFrame => exact absurd h Bool.false_ne_true
  case idleFrame => exact absurd h Bool.false_ne_true
  case idleFrameSend => exact absurd h Bool.false_ne_true
  case hello => exact absurd h Bool.false_ne_true
  case leave => exact absurd h Bool.false_ne_true
  case ackTimeout => exact absurd h Bool.false_ne_true
  case linkDown => exact absurd h Bool.false_ne_true
  case holdExpired => exact absurd h Bool.false_ne_true
  case bringup => exact absurd h Bool.false_ne_true
  case bringupTimeout => exact absurd h Bool.false_ne_true
  case whistleSend => exact absurd h Bool.false_ne_true
  case linkState => exact absurd h Bool.false_ne_true
  case mainsLoss => exact absurd h Bool.false_ne_true
  case handoverEnd => exact absurd h Bool.false_ne_true
  case qualifyComplete => exact absurd h Bool.false_ne_true
  case rampEnd => exact absurd h Bool.false_ne_true
  case reserve => exact absurd h Bool.false_ne_true
  case cutoff => exact absurd h Bool.false_ne_true
  case lockoutClear => exact absurd h Bool.false_ne_true
  case powerStorm => exact absurd h Bool.false_ne_true
  case powerCalm => exact absurd h Bool.false_ne_true
  case shelterStart => exact absurd h Bool.false_ne_true
  case nvPageWrite => exact absurd h Bool.false_ne_true
  case scrubVisit => exact absurd h Bool.false_ne_true
  case shear => exact absurd h Bool.false_ne_true
  case testDue => exact absurd h Bool.false_ne_true
  case deferLimit => exact absurd h Bool.false_ne_true
  case deferRetry => exact absurd h Bool.false_ne_true
  case placementRetry => exact absurd h Bool.false_ne_true
  case viewSweep => exact absurd h Bool.false_ne_true
  case unitReturn => exact absurd h Bool.false_ne_true
  case reconcile => exact absurd h Bool.false_ne_true
  case restart => exact absurd h Bool.false_ne_true
  case logWrite => exact absurd h Bool.false_ne_true
  case identGet => simp only [exec, execIdentGet]; exact ⟨_, rfl⟩
  case regRead => simp only [exec, execRegRead]; exact ⟨_, rfl⟩
  case regWrite => simp only [exec, execRegWrite]; exact ⟨_, rfl⟩
  case submit => simp only [exec, execSubmit]; exact ⟨_, rfl⟩
  case profileRead => simp only [exec, execProfileRead]; exact ⟨_, rfl⟩
  case profileStage => simp only [exec, execProfileStage]; exact ⟨_, rfl⟩
  case profileCommit => simp only [exec, execProfileCommit]; exact ⟨_, rfl⟩
  case fwBegin => simp only [exec, execFwBegin]; exact ⟨_, rfl⟩
  case fwData => simp only [exec, execFwData]; exact ⟨_, rfl⟩
  case fwEnd => simp only [exec, execFwEnd]; exact ⟨_, rfl⟩
  case fwCommit => simp only [exec, execFwCommit]; exact ⟨_, rfl⟩
  case fwSessionIdle => exact absurd h Bool.false_ne_true
  case debugChallenge => simp only [exec, execDebugChallenge]; exact ⟨_, rfl⟩
  case debugUnlock => simp only [exec, execDebugUnlock]; exact ⟨_, rfl⟩
  case debugClose => simp only [exec, execDebugClose]; exact ⟨_, rfl⟩
  case dbgCtrlClose => exact absurd h Bool.false_ne_true
  case debugExpiry => exact absurd h Bool.false_ne_true
  case auditRead => simp only [exec, execAuditRead]; exact ⟨_, rfl⟩
  case auditAck => simp only [exec, execAuditAck]; exact ⟨_, rfl⟩
  case mapRead => simp only [exec, execMapRead]; exact ⟨_, rfl⟩
  case notice => simp only [exec, execNotice]; exact ⟨_, rfl⟩
  case responseRead => simp only [exec, execResponseRead]; exact ⟨_, rfl⟩
  case mboxTake => exact absurd h Bool.false_ne_true
  case toPackage => exact absurd h Bool.false_ne_true
  case bridgeRetry => exact absurd h Bool.false_ne_true
  case setProfilePins => exact absurd h Bool.false_ne_true
  case powerOn => exact absurd h Bool.false_ne_true
  case powerOff => exact absurd h Bool.false_ne_true
  case sledNotice => exact absurd h Bool.false_ne_true
  case stateGet => exact absurd h Bool.false_ne_true
  case enumeration => exact absurd h Bool.false_ne_true
  case sledPowerUp => exact absurd h Bool.false_ne_true
  case page => exact absurd h Bool.false_ne_true
  case operation => exact absurd h Bool.false_ne_true
  case clearFaults => exact absurd h Bool.false_ne_true
  case capability => exact absurd h Bool.false_ne_true
  case voutMode => exact absurd h Bool.false_ne_true
  case statusByte => exact absurd h Bool.false_ne_true
  case statusWord => exact absurd h Bool.false_ne_true
  case statusVout => exact absurd h Bool.false_ne_true
  case statusIout => exact absurd h Bool.false_ne_true
  case statusInput => exact absurd h Bool.false_ne_true
  case statusTemperature => exact absurd h Bool.false_ne_true
  case statusCml => exact absurd h Bool.false_ne_true
  case readVin => exact absurd h Bool.false_ne_true
  case readIin => exact absurd h Bool.false_ne_true
  case readVout => exact absurd h Bool.false_ne_true
  case readIout => exact absurd h Bool.false_ne_true
  case readTemperature1 => exact absurd h Bool.false_ne_true
  case readPout => exact absurd h Bool.false_ne_true
  case readPin => exact absurd h Bool.false_ne_true
  case pmbusRevision => exact absurd h Bool.false_ne_true
  case mfrId => exact absurd h Bool.false_ne_true
  case mfrModel => exact absurd h Bool.false_ne_true
  case mfrShelfState => exact absurd h Bool.false_ne_true
  case mfrShelfEvents => exact absurd h Bool.false_ne_true
  case mfrBattSoc => exact absurd h Bool.false_ne_true
  case mfrBattHoldup => exact absurd h Bool.false_ne_true
  case mfrReturnQualify => exact absurd h Bool.false_ne_true
  case mfrReserveLevel => exact absurd h Bool.false_ne_true
  case mfrCutoffLevel => exact absurd h Bool.false_ne_true
  case mfrBattHealth => exact absurd h Bool.false_ne_true
  case mfrHandoverTime => exact absurd h Bool.false_ne_true
  case mfrReturnLog => exact absurd h Bool.false_ne_true
  case mfrStormCount => exact absurd h Bool.false_ne_true
  case mfrTestHandover => exact absurd h Bool.false_ne_true
  case extest => exact absurd h Bool.false_ne_true
  case idcode => exact absurd h Bool.false_ne_true
  case samplePreload => exact absurd h Bool.false_ne_true
  case clamp => exact absurd h Bool.false_ne_true
  case bypass => exact absurd h Bool.false_ne_true
  case registerRead => exact absurd h Bool.false_ne_true
  case debugApertureAccess => exact absurd h Bool.false_ne_true
  case wakingEnd => exact absurd h Bool.false_ne_true
  case railRecovery => simp only [exec, execRailRecovery]; exact ⟨_, rfl⟩
  case dieTrip => exact absurd h Bool.false_ne_true
  case syncLost => exact absurd h Bool.false_ne_true
  case hsSync => exact absurd h Bool.false_ne_true
  case reqLow => exact absurd h Bool.false_ne_true
  case mainsReturn => exact absurd h Bool.false_ne_true
  case handoverTestEnd => exact absurd h Bool.false_ne_true

/-- A command of the shelf. -/
theorem exec_shelf (i : Instr) (h : i.ofShelf = true) (s : State) : ∃ f, exec i s = s.runShelf f := by
  cases i
  case nop => exact absurd h Bool.false_ne_true
  case syncCfg => exact absurd h Bool.false_ne_true
  case hold => exact absurd h Bool.false_ne_true
  case release => exact absurd h Bool.false_ne_true
  case abort => exact absurd h Bool.false_ne_true
  case shift => exact absurd h Bool.false_ne_true
  case unload => exact absurd h Bool.false_ne_true
  case testUnit => exact absurd h Bool.false_ne_true
  case setDomain => exact absurd h Bool.false_ne_true
  case setOpPoint => exact absurd h Bool.false_ne_true
  case setProfile => exact absurd h Bool.false_ne_true
  case run => exact absurd h Bool.false_ne_true
  case inject => exact absurd h Bool.false_ne_true
  case replayCheck => exact absurd h Bool.false_ne_true
  case pass => exact absurd h Bool.false_ne_true
  case ladder => exact absurd h Bool.false_ne_true
  case copy => exact absurd h Bool.false_ne_true
  case load => exact absurd h Bool.false_ne_true
  case pageOut => exact absurd h Bool.false_ne_true
  case pageIn => exact absurd h Bool.false_ne_true
  case checkpoint => exact absurd h Bool.false_ne_true
  case restore => exact absurd h Bool.false_ne_true
  case nvSave => exact absurd h Bool.false_ne_true
  case nvLoad => exact absurd h Bool.false_ne_true
  case sqPi => exact absurd h Bool.false_ne_true
  case cqCi => exact absurd h Bool.false_ne_true
  case remoteDbVal => exact absurd h Bool.false_ne_true
  case fetch => exact absurd h Bool.false_ne_true
  case completionRecordWrite => exact absurd h Bool.false_ne_true
  case modDelay => exact absurd h Bool.false_ne_true
  case enable => exact absurd h Bool.false_ne_true
  case stop => exact absurd h Bool.false_ne_true
  case resume => exact absurd h Bool.false_ne_true
  case disable => exact absurd h Bool.false_ne_true
  case add => exact absurd h Bool.false_ne_true
  case set => exact absurd h Bool.false_ne_true
  case objCfg => exact absurd h Bool.false_ne_true
  case poolGrant => exact absurd h Bool.false_ne_true
  case commandShare => exact absurd h Bool.false_ne_true
  case torderNop => exact absurd h Bool.false_ne_true
  case runChain => exact absurd h Bool.false_ne_true
  case clear => exact absurd h Bool.false_ne_true
  case test => exact absurd h Bool.false_ne_true
  case torderReset => exact absurd h Bool.false_ne_true
  case axon => exact absurd h Bool.false_ne_true
  case flock => exact absurd h Bool.false_ne_true
  case tally => exact absurd h Bool.false_ne_true
  case bankWrite => exact absurd h Bool.false_ne_true
  case registerWrite => exact absurd h Bool.false_ne_true
  case readReq => exact absurd h Bool.false_ne_true
  case readResp => exact absurd h Bool.false_ne_true
  case completion => exact absurd h Bool.false_ne_true
  case trace => exact absurd h Bool.false_ne_true
  case exchange => exact absurd h Bool.false_ne_true
  case portEgress => exact absurd h Bool.false_ne_true
  case digestIn => exact absurd h Bool.false_ne_true
  case droveEntry => exact absurd h Bool.false_ne_true
  case close => exact absurd h Bool.false_ne_true
  case pacerTick => exact absurd h Bool.false_ne_true
  case roundStart => exact absurd h Bool.false_ne_true
  case spike => exact absurd h Bool.false_ne_true
  case lapStart => exact absurd h Bool.false_ne_true
  case lapVote => exact absurd h Bool.false_ne_true
  case integrate => exact absurd h Bool.false_ne_true
  case learn => exact absurd h Bool.false_ne_true
  case musterArrive => exact absurd h Bool.false_ne_true
  case musterComplete => exact absurd h Bool.false_ne_true
  case freeLadderStep => exact absurd h Bool.false_ne_true
  case holdExpiry => exact absurd h Bool.false_ne_true
  case stallFreeze => exact absurd h Bool.false_ne_true
  case take => exact absurd h Bool.false_ne_true
  case thaw => exact absurd h Bool.false_ne_true
  case hwClear => exact absurd h Bool.false_ne_true
  case droveData => exact absurd h Bool.false_ne_true
  case timeLoRead => exact absurd h Bool.false_ne_true
  case countClear => exact absurd h Bool.false_ne_true
  case lock => exact absurd h Bool.false_ne_true
  case faultClear => exact absurd h Bool.false_ne_true
  case ceClear => exact absurd h Bool.false_ne_true
  case blkEventClear => exact absurd h Bool.false_ne_true
  case blkEventForce => exact absurd h Bool.false_ne_true
  case windowWaitMet => exact absurd h Bool.false_ne_true
  case windowWaitTimeout => exact absurd h Bool.false_ne_true
  case domReq => exact absurd h Bool.false_ne_true
  case drainEnd => exact absurd h Bool.false_ne_true
  case drainTimeout => exact absurd h Bool.false_ne_true
  case coreIdle => exact absurd h Bool.false_ne_true
  case routerIdle => exact absurd h Bool.false_ne_true
  case powerCapSample => exact absurd h Bool.false_ne_true
  case throttleSample => exact absurd h Bool.false_ne_true
  case tripClear => exact absurd h Bool.false_ne_true
  case voltageStep => exact absurd h Bool.false_ne_true
  case laneCheckDue => exact absurd h Bool.false_ne_true
  case laneCheck => exact absurd h Bool.false_ne_true
  case regFault => exact absurd h Bool.false_ne_true
  case handshakeFail => exact absurd h Bool.false_ne_true
  case padsRelease => exact absurd h Bool.false_ne_true
  case wakeDetect => exact absurd h Bool.false_ne_true
  case routeSlotStart => exact absurd h Bool.false_ne_true
  case alarm => exact absurd h Bool.false_ne_true
  case setCtrlLoad => exact absurd h Bool.false_ne_true
  case rtcLock => exact absurd h Bool.false_ne_true
  case xtalFail => exact absurd h Bool.false_ne_true
  case powerOnReset => exact absurd h Bool.false_ne_true
  case porNAssert => exact absurd h Bool.false_ne_true
  case porNRelease => exact absurd h Bool.false_ne_true
  case brownout => exact absurd h Bool.false_ne_true
  case pkgReset => exact absurd h Bool.false_ne_true
  case dieReset => exact absurd h Bool.false_ne_true
  case tileReset => exact absurd h Bool.false_ne_true
  case gateReset => exact absurd h Bool.false_ne_true
  case configRequest => exact absurd h Bool.false_ne_true
  case machineWindowAccess => exact absurd h Bool.false_ne_true
  case gateLinkDown => exact absurd h Bool.false_ne_true
  case gateLinkUp => exact absurd h Bool.false_ne_true
  case dmaCompletion => exact absurd h Bool.false_ne_true
  case dmaCompletionTimeout => exact absurd h Bool.false_ne_true
  case msixUnmask => exact absurd h Bool.false_ne_true
  case egressRecordWrite => exact absurd h Bool.false_ne_true
  case eringCi => exact absurd h Bool.false_ne_true
  case traceCi => exact absurd h Bool.false_ne_true
  case eventPacket => exact absurd h Bool.false_ne_true
  case otherPacket => exact absurd h Bool.false_ne_true
  case frameStart => exact absurd h Bool.false_ne_true
  case rawLine => exact absurd h Bool.false_ne_true
  case frameEnd => exact absurd h Bool.false_ne_true
  case aerHandshake => exact absurd h Bool.false_ne_true
  case dataFrame => exact absurd h Bool.false_ne_true
  case idleFrame => exact absurd h Bool.false_ne_true
  case idleFrameSend => exact absurd h Bool.false_ne_true
  case hello => exact absurd h Bool.false_ne_true
  case leave => exact absurd h Bool.false_ne_true
  case ackTimeout => exact absurd h Bool.false_ne_true
  case linkDown => exact absurd h Bool.false_ne_true
  case holdExpired => exact absurd h Bool.false_ne_true
  case bringup => exact absurd h Bool.false_ne_true
  case bringupTimeout => exact absurd h Bool.false_ne_true
  case whistleSend => exact absurd h Bool.false_ne_true
  case linkState => exact absurd h Bool.false_ne_true
  case mainsLoss => simp only [exec, execMainsLoss]; exact ⟨_, rfl⟩
  case handoverEnd => simp only [exec, execHandoverEnd]; exact ⟨_, rfl⟩
  case qualifyComplete => simp only [exec, execQualifyComplete]; exact ⟨_, rfl⟩
  case rampEnd => simp only [exec, execRampEnd]; exact ⟨_, rfl⟩
  case reserve => exact absurd h Bool.false_ne_true
  case cutoff => exact absurd h Bool.false_ne_true
  case lockoutClear => simp only [exec, execLockoutClear]; exact ⟨_, rfl⟩
  case powerStorm => exact absurd h Bool.false_ne_true
  case powerCalm => exact absurd h Bool.false_ne_true
  case shelterStart => exact absurd h Bool.false_ne_true
  case nvPageWrite => exact absurd h Bool.false_ne_true
  case scrubVisit => exact absurd h Bool.false_ne_true
  case shear => exact absurd h Bool.false_ne_true
  case testDue => exact absurd h Bool.false_ne_true
  case deferLimit => exact absurd h Bool.false_ne_true
  case deferRetry => exact absurd h Bool.false_ne_true
  case placementRetry => exact absurd h Bool.false_ne_true
  case viewSweep => exact absurd h Bool.false_ne_true
  case unitReturn => exact absurd h Bool.false_ne_true
  case reconcile => exact absurd h Bool.false_ne_true
  case restart => exact absurd h Bool.false_ne_true
  case logWrite => exact absurd h Bool.false_ne_true
  case identGet => exact absurd h Bool.false_ne_true
  case regRead => exact absurd h Bool.false_ne_true
  case regWrite => exact absurd h Bool.false_ne_true
  case submit => exact absurd h Bool.false_ne_true
  case profileRead => exact absurd h Bool.false_ne_true
  case profileStage => exact absurd h Bool.false_ne_true
  case profileCommit => exact absurd h Bool.false_ne_true
  case fwBegin => exact absurd h Bool.false_ne_true
  case fwData => exact absurd h Bool.false_ne_true
  case fwEnd => exact absurd h Bool.false_ne_true
  case fwCommit => exact absurd h Bool.false_ne_true
  case fwSessionIdle => exact absurd h Bool.false_ne_true
  case debugChallenge => exact absurd h Bool.false_ne_true
  case debugUnlock => exact absurd h Bool.false_ne_true
  case debugClose => exact absurd h Bool.false_ne_true
  case dbgCtrlClose => exact absurd h Bool.false_ne_true
  case debugExpiry => exact absurd h Bool.false_ne_true
  case auditRead => exact absurd h Bool.false_ne_true
  case auditAck => exact absurd h Bool.false_ne_true
  case mapRead => exact absurd h Bool.false_ne_true
  case notice => exact absurd h Bool.false_ne_true
  case responseRead => exact absurd h Bool.false_ne_true
  case mboxTake => exact absurd h Bool.false_ne_true
  case toPackage => exact absurd h Bool.false_ne_true
  case bridgeRetry => exact absurd h Bool.false_ne_true
  case setProfilePins => exact absurd h Bool.false_ne_true
  case powerOn => exact absurd h Bool.false_ne_true
  case powerOff => exact absurd h Bool.false_ne_true
  case sledNotice => exact absurd h Bool.false_ne_true
  case stateGet => exact absurd h Bool.false_ne_true
  case enumeration => exact absurd h Bool.false_ne_true
  case sledPowerUp => exact absurd h Bool.false_ne_true
  case page => simp only [exec, execPage]; exact ⟨_, rfl⟩
  case operation => simp only [exec, execOperation]; exact ⟨_, rfl⟩
  case clearFaults => simp only [exec, execClearFaults]; exact ⟨_, rfl⟩
  case capability => simp only [exec, execCapability]; exact ⟨_, rfl⟩
  case voutMode => simp only [exec, execVoutMode]; exact ⟨_, rfl⟩
  case statusByte => exact absurd h Bool.false_ne_true
  case statusWord => exact absurd h Bool.false_ne_true
  case statusVout => exact absurd h Bool.false_ne_true
  case statusIout => exact absurd h Bool.false_ne_true
  case statusInput => exact absurd h Bool.false_ne_true
  case statusTemperature => exact absurd h Bool.false_ne_true
  case statusCml => simp only [exec, execStatusCml]; exact ⟨_, rfl⟩
  case readVin => exact absurd h Bool.false_ne_true
  case readIin => exact absurd h Bool.false_ne_true
  case readVout => exact absurd h Bool.false_ne_true
  case readIout => exact absurd h Bool.false_ne_true
  case readTemperature1 => exact absurd h Bool.false_ne_true
  case readPout => exact absurd h Bool.false_ne_true
  case readPin => exact absurd h Bool.false_ne_true
  case pmbusRevision => simp only [exec, execPmbusRevision]; exact ⟨_, rfl⟩
  case mfrId => simp only [exec, execMfrId]; exact ⟨_, rfl⟩
  case mfrModel => simp only [exec, execMfrModel]; exact ⟨_, rfl⟩
  case mfrShelfState => simp only [exec, execMfrShelfState]; exact ⟨_, rfl⟩
  case mfrShelfEvents => simp only [exec, execMfrShelfEvents]; exact ⟨_, rfl⟩
  case mfrBattSoc => exact absurd h Bool.false_ne_true
  case mfrBattHoldup => exact absurd h Bool.false_ne_true
  case mfrReturnQualify => simp only [exec, execMfrReturnQualify]; exact ⟨_, rfl⟩
  case mfrReserveLevel => simp only [exec, execMfrReserveLevel]; exact ⟨_, rfl⟩
  case mfrCutoffLevel => simp only [exec, execMfrCutoffLevel]; exact ⟨_, rfl⟩
  case mfrBattHealth => exact absurd h Bool.false_ne_true
  case mfrHandoverTime => simp only [exec, execMfrHandoverTime]; exact ⟨_, rfl⟩
  case mfrReturnLog => simp only [exec, execMfrReturnLog]; exact ⟨_, rfl⟩
  case mfrStormCount => simp only [exec, execMfrStormCount]; exact ⟨_, rfl⟩
  case mfrTestHandover => exact absurd h Bool.false_ne_true
  case extest => exact absurd h Bool.false_ne_true
  case idcode => exact absurd h Bool.false_ne_true
  case samplePreload => exact absurd h Bool.false_ne_true
  case clamp => exact absurd h Bool.false_ne_true
  case bypass => exact absurd h Bool.false_ne_true
  case registerRead => exact absurd h Bool.false_ne_true
  case debugApertureAccess => exact absurd h Bool.false_ne_true
  case wakingEnd => exact absurd h Bool.false_ne_true
  case railRecovery => exact absurd h Bool.false_ne_true
  case dieTrip => exact absurd h Bool.false_ne_true
  case syncLost => exact absurd h Bool.false_ne_true
  case hsSync => exact absurd h Bool.false_ne_true
  case reqLow => exact absurd h Bool.false_ne_true
  case mainsReturn => simp only [exec, execMainsReturn]; exact ⟨_, rfl⟩
  case handoverTestEnd => simp only [exec, execHandoverTestEnd]; exact ⟨_, rfl⟩

/-- A command of the TAP. -/
theorem exec_tap (i : Instr) (h : i.ofTap = true) (s : State) : ∃ f, exec i s = s.runTap f := by
  cases i
  case nop => exact absurd h Bool.false_ne_true
  case syncCfg => exact absurd h Bool.false_ne_true
  case hold => exact absurd h Bool.false_ne_true
  case release => exact absurd h Bool.false_ne_true
  case abort => exact absurd h Bool.false_ne_true
  case shift => exact absurd h Bool.false_ne_true
  case unload => exact absurd h Bool.false_ne_true
  case testUnit => exact absurd h Bool.false_ne_true
  case setDomain => exact absurd h Bool.false_ne_true
  case setOpPoint => exact absurd h Bool.false_ne_true
  case setProfile => exact absurd h Bool.false_ne_true
  case run => exact absurd h Bool.false_ne_true
  case inject => exact absurd h Bool.false_ne_true
  case replayCheck => exact absurd h Bool.false_ne_true
  case pass => exact absurd h Bool.false_ne_true
  case ladder => exact absurd h Bool.false_ne_true
  case copy => exact absurd h Bool.false_ne_true
  case load => exact absurd h Bool.false_ne_true
  case pageOut => exact absurd h Bool.false_ne_true
  case pageIn => exact absurd h Bool.false_ne_true
  case checkpoint => exact absurd h Bool.false_ne_true
  case restore => exact absurd h Bool.false_ne_true
  case nvSave => exact absurd h Bool.false_ne_true
  case nvLoad => exact absurd h Bool.false_ne_true
  case sqPi => exact absurd h Bool.false_ne_true
  case cqCi => exact absurd h Bool.false_ne_true
  case remoteDbVal => exact absurd h Bool.false_ne_true
  case fetch => exact absurd h Bool.false_ne_true
  case completionRecordWrite => exact absurd h Bool.false_ne_true
  case modDelay => exact absurd h Bool.false_ne_true
  case enable => exact absurd h Bool.false_ne_true
  case stop => exact absurd h Bool.false_ne_true
  case resume => exact absurd h Bool.false_ne_true
  case disable => exact absurd h Bool.false_ne_true
  case add => exact absurd h Bool.false_ne_true
  case set => exact absurd h Bool.false_ne_true
  case objCfg => exact absurd h Bool.false_ne_true
  case poolGrant => exact absurd h Bool.false_ne_true
  case commandShare => exact absurd h Bool.false_ne_true
  case torderNop => exact absurd h Bool.false_ne_true
  case runChain => exact absurd h Bool.false_ne_true
  case clear => exact absurd h Bool.false_ne_true
  case test => exact absurd h Bool.false_ne_true
  case torderReset => exact absurd h Bool.false_ne_true
  case axon => exact absurd h Bool.false_ne_true
  case flock => exact absurd h Bool.false_ne_true
  case tally => exact absurd h Bool.false_ne_true
  case bankWrite => exact absurd h Bool.false_ne_true
  case registerWrite => exact absurd h Bool.false_ne_true
  case readReq => exact absurd h Bool.false_ne_true
  case readResp => exact absurd h Bool.false_ne_true
  case completion => exact absurd h Bool.false_ne_true
  case trace => exact absurd h Bool.false_ne_true
  case exchange => exact absurd h Bool.false_ne_true
  case portEgress => exact absurd h Bool.false_ne_true
  case digestIn => exact absurd h Bool.false_ne_true
  case droveEntry => exact absurd h Bool.false_ne_true
  case close => exact absurd h Bool.false_ne_true
  case pacerTick => exact absurd h Bool.false_ne_true
  case roundStart => exact absurd h Bool.false_ne_true
  case spike => exact absurd h Bool.false_ne_true
  case lapStart => exact absurd h Bool.false_ne_true
  case lapVote => exact absurd h Bool.false_ne_true
  case integrate => exact absurd h Bool.false_ne_true
  case learn => exact absurd h Bool.false_ne_true
  case musterArrive => exact absurd h Bool.false_ne_true
  case musterComplete => exact absurd h Bool.false_ne_true
  case freeLadderStep => exact absurd h Bool.false_ne_true
  case holdExpiry => exact absurd h Bool.false_ne_true
  case stallFreeze => exact absurd h Bool.false_ne_true
  case take => exact absurd h Bool.false_ne_true
  case thaw => exact absurd h Bool.false_ne_true
  case hwClear => exact absurd h Bool.false_ne_true
  case droveData => exact absurd h Bool.false_ne_true
  case timeLoRead => exact absurd h Bool.false_ne_true
  case countClear => exact absurd h Bool.false_ne_true
  case lock => exact absurd h Bool.false_ne_true
  case faultClear => exact absurd h Bool.false_ne_true
  case ceClear => exact absurd h Bool.false_ne_true
  case blkEventClear => exact absurd h Bool.false_ne_true
  case blkEventForce => exact absurd h Bool.false_ne_true
  case windowWaitMet => exact absurd h Bool.false_ne_true
  case windowWaitTimeout => exact absurd h Bool.false_ne_true
  case domReq => exact absurd h Bool.false_ne_true
  case drainEnd => exact absurd h Bool.false_ne_true
  case drainTimeout => exact absurd h Bool.false_ne_true
  case coreIdle => exact absurd h Bool.false_ne_true
  case routerIdle => exact absurd h Bool.false_ne_true
  case powerCapSample => exact absurd h Bool.false_ne_true
  case throttleSample => exact absurd h Bool.false_ne_true
  case tripClear => exact absurd h Bool.false_ne_true
  case voltageStep => exact absurd h Bool.false_ne_true
  case laneCheckDue => exact absurd h Bool.false_ne_true
  case laneCheck => exact absurd h Bool.false_ne_true
  case regFault => exact absurd h Bool.false_ne_true
  case handshakeFail => exact absurd h Bool.false_ne_true
  case padsRelease => exact absurd h Bool.false_ne_true
  case wakeDetect => exact absurd h Bool.false_ne_true
  case routeSlotStart => exact absurd h Bool.false_ne_true
  case alarm => exact absurd h Bool.false_ne_true
  case setCtrlLoad => exact absurd h Bool.false_ne_true
  case rtcLock => exact absurd h Bool.false_ne_true
  case xtalFail => exact absurd h Bool.false_ne_true
  case powerOnReset => exact absurd h Bool.false_ne_true
  case porNAssert => exact absurd h Bool.false_ne_true
  case porNRelease => exact absurd h Bool.false_ne_true
  case brownout => exact absurd h Bool.false_ne_true
  case pkgReset => exact absurd h Bool.false_ne_true
  case dieReset => exact absurd h Bool.false_ne_true
  case tileReset => exact absurd h Bool.false_ne_true
  case gateReset => exact absurd h Bool.false_ne_true
  case configRequest => exact absurd h Bool.false_ne_true
  case machineWindowAccess => exact absurd h Bool.false_ne_true
  case gateLinkDown => exact absurd h Bool.false_ne_true
  case gateLinkUp => exact absurd h Bool.false_ne_true
  case dmaCompletion => exact absurd h Bool.false_ne_true
  case dmaCompletionTimeout => exact absurd h Bool.false_ne_true
  case msixUnmask => exact absurd h Bool.false_ne_true
  case egressRecordWrite => exact absurd h Bool.false_ne_true
  case eringCi => exact absurd h Bool.false_ne_true
  case traceCi => exact absurd h Bool.false_ne_true
  case eventPacket => exact absurd h Bool.false_ne_true
  case otherPacket => exact absurd h Bool.false_ne_true
  case frameStart => exact absurd h Bool.false_ne_true
  case rawLine => exact absurd h Bool.false_ne_true
  case frameEnd => exact absurd h Bool.false_ne_true
  case aerHandshake => exact absurd h Bool.false_ne_true
  case dataFrame => exact absurd h Bool.false_ne_true
  case idleFrame => exact absurd h Bool.false_ne_true
  case idleFrameSend => exact absurd h Bool.false_ne_true
  case hello => exact absurd h Bool.false_ne_true
  case leave => exact absurd h Bool.false_ne_true
  case ackTimeout => exact absurd h Bool.false_ne_true
  case linkDown => exact absurd h Bool.false_ne_true
  case holdExpired => exact absurd h Bool.false_ne_true
  case bringup => exact absurd h Bool.false_ne_true
  case bringupTimeout => exact absurd h Bool.false_ne_true
  case whistleSend => exact absurd h Bool.false_ne_true
  case linkState => exact absurd h Bool.false_ne_true
  case mainsLoss => exact absurd h Bool.false_ne_true
  case handoverEnd => exact absurd h Bool.false_ne_true
  case qualifyComplete => exact absurd h Bool.false_ne_true
  case rampEnd => exact absurd h Bool.false_ne_true
  case reserve => exact absurd h Bool.false_ne_true
  case cutoff => exact absurd h Bool.false_ne_true
  case lockoutClear => exact absurd h Bool.false_ne_true
  case powerStorm => exact absurd h Bool.false_ne_true
  case powerCalm => exact absurd h Bool.false_ne_true
  case shelterStart => exact absurd h Bool.false_ne_true
  case nvPageWrite => exact absurd h Bool.false_ne_true
  case scrubVisit => exact absurd h Bool.false_ne_true
  case shear => exact absurd h Bool.false_ne_true
  case testDue => exact absurd h Bool.false_ne_true
  case deferLimit => exact absurd h Bool.false_ne_true
  case deferRetry => exact absurd h Bool.false_ne_true
  case placementRetry => exact absurd h Bool.false_ne_true
  case viewSweep => exact absurd h Bool.false_ne_true
  case unitReturn => exact absurd h Bool.false_ne_true
  case reconcile => exact absurd h Bool.false_ne_true
  case restart => exact absurd h Bool.false_ne_true
  case logWrite => exact absurd h Bool.false_ne_true
  case identGet => exact absurd h Bool.false_ne_true
  case regRead => exact absurd h Bool.false_ne_true
  case regWrite => exact absurd h Bool.false_ne_true
  case submit => exact absurd h Bool.false_ne_true
  case profileRead => exact absurd h Bool.false_ne_true
  case profileStage => exact absurd h Bool.false_ne_true
  case profileCommit => exact absurd h Bool.false_ne_true
  case fwBegin => exact absurd h Bool.false_ne_true
  case fwData => exact absurd h Bool.false_ne_true
  case fwEnd => exact absurd h Bool.false_ne_true
  case fwCommit => exact absurd h Bool.false_ne_true
  case fwSessionIdle => exact absurd h Bool.false_ne_true
  case debugChallenge => exact absurd h Bool.false_ne_true
  case debugUnlock => exact absurd h Bool.false_ne_true
  case debugClose => exact absurd h Bool.false_ne_true
  case dbgCtrlClose => exact absurd h Bool.false_ne_true
  case debugExpiry => exact absurd h Bool.false_ne_true
  case auditRead => exact absurd h Bool.false_ne_true
  case auditAck => exact absurd h Bool.false_ne_true
  case mapRead => exact absurd h Bool.false_ne_true
  case notice => exact absurd h Bool.false_ne_true
  case responseRead => exact absurd h Bool.false_ne_true
  case mboxTake => exact absurd h Bool.false_ne_true
  case toPackage => exact absurd h Bool.false_ne_true
  case bridgeRetry => exact absurd h Bool.false_ne_true
  case setProfilePins => exact absurd h Bool.false_ne_true
  case powerOn => exact absurd h Bool.false_ne_true
  case powerOff => exact absurd h Bool.false_ne_true
  case sledNotice => exact absurd h Bool.false_ne_true
  case stateGet => exact absurd h Bool.false_ne_true
  case enumeration => exact absurd h Bool.false_ne_true
  case sledPowerUp => exact absurd h Bool.false_ne_true
  case page => exact absurd h Bool.false_ne_true
  case operation => exact absurd h Bool.false_ne_true
  case clearFaults => exact absurd h Bool.false_ne_true
  case capability => exact absurd h Bool.false_ne_true
  case voutMode => exact absurd h Bool.false_ne_true
  case statusByte => exact absurd h Bool.false_ne_true
  case statusWord => exact absurd h Bool.false_ne_true
  case statusVout => exact absurd h Bool.false_ne_true
  case statusIout => exact absurd h Bool.false_ne_true
  case statusInput => exact absurd h Bool.false_ne_true
  case statusTemperature => exact absurd h Bool.false_ne_true
  case statusCml => exact absurd h Bool.false_ne_true
  case readVin => exact absurd h Bool.false_ne_true
  case readIin => exact absurd h Bool.false_ne_true
  case readVout => exact absurd h Bool.false_ne_true
  case readIout => exact absurd h Bool.false_ne_true
  case readTemperature1 => exact absurd h Bool.false_ne_true
  case readPout => exact absurd h Bool.false_ne_true
  case readPin => exact absurd h Bool.false_ne_true
  case pmbusRevision => exact absurd h Bool.false_ne_true
  case mfrId => exact absurd h Bool.false_ne_true
  case mfrModel => exact absurd h Bool.false_ne_true
  case mfrShelfState => exact absurd h Bool.false_ne_true
  case mfrShelfEvents => exact absurd h Bool.false_ne_true
  case mfrBattSoc => exact absurd h Bool.false_ne_true
  case mfrBattHoldup => exact absurd h Bool.false_ne_true
  case mfrReturnQualify => exact absurd h Bool.false_ne_true
  case mfrReserveLevel => exact absurd h Bool.false_ne_true
  case mfrCutoffLevel => exact absurd h Bool.false_ne_true
  case mfrBattHealth => exact absurd h Bool.false_ne_true
  case mfrHandoverTime => exact absurd h Bool.false_ne_true
  case mfrReturnLog => exact absurd h Bool.false_ne_true
  case mfrStormCount => exact absurd h Bool.false_ne_true
  case mfrTestHandover => exact absurd h Bool.false_ne_true
  case extest => simp only [exec, execExtest]; exact ⟨_, rfl⟩
  case idcode => simp only [exec, execIdcode]; exact ⟨_, rfl⟩
  case samplePreload => simp only [exec, execSamplePreload]; exact ⟨_, rfl⟩
  case clamp => simp only [exec, execClamp]; exact ⟨_, rfl⟩
  case bypass => simp only [exec, execBypass]; exact ⟨_, rfl⟩
  case registerRead => exact absurd h Bool.false_ne_true
  case debugApertureAccess => exact absurd h Bool.false_ne_true
  case wakingEnd => exact absurd h Bool.false_ne_true
  case railRecovery => exact absurd h Bool.false_ne_true
  case dieTrip => exact absurd h Bool.false_ne_true
  case syncLost => exact absurd h Bool.false_ne_true
  case hsSync => exact absurd h Bool.false_ne_true
  case reqLow => exact absurd h Bool.false_ne_true
  case mainsReturn => exact absurd h Bool.false_ne_true
  case handoverTestEnd => exact absurd h Bool.false_ne_true

/-- A command of the boards. -/
theorem exec_boards (i : Instr) (h : i.ofBoards = true) (s : State) : ∃ f, exec i s = s.runWhole f := by
  cases i
  case nop => exact absurd h Bool.false_ne_true
  case syncCfg => exact absurd h Bool.false_ne_true
  case hold => exact absurd h Bool.false_ne_true
  case release => exact absurd h Bool.false_ne_true
  case abort => exact absurd h Bool.false_ne_true
  case shift => exact absurd h Bool.false_ne_true
  case unload => exact absurd h Bool.false_ne_true
  case testUnit => exact absurd h Bool.false_ne_true
  case setDomain => exact absurd h Bool.false_ne_true
  case setOpPoint => exact absurd h Bool.false_ne_true
  case setProfile => exact absurd h Bool.false_ne_true
  case run => exact absurd h Bool.false_ne_true
  case inject => exact absurd h Bool.false_ne_true
  case replayCheck => exact absurd h Bool.false_ne_true
  case pass => exact absurd h Bool.false_ne_true
  case ladder => exact absurd h Bool.false_ne_true
  case copy => exact absurd h Bool.false_ne_true
  case load => exact absurd h Bool.false_ne_true
  case pageOut => exact absurd h Bool.false_ne_true
  case pageIn => exact absurd h Bool.false_ne_true
  case checkpoint => exact absurd h Bool.false_ne_true
  case restore => exact absurd h Bool.false_ne_true
  case nvSave => exact absurd h Bool.false_ne_true
  case nvLoad => exact absurd h Bool.false_ne_true
  case sqPi => exact absurd h Bool.false_ne_true
  case cqCi => exact absurd h Bool.false_ne_true
  case remoteDbVal => exact absurd h Bool.false_ne_true
  case fetch => exact absurd h Bool.false_ne_true
  case completionRecordWrite => exact absurd h Bool.false_ne_true
  case modDelay => exact absurd h Bool.false_ne_true
  case enable => exact absurd h Bool.false_ne_true
  case stop => exact absurd h Bool.false_ne_true
  case resume => exact absurd h Bool.false_ne_true
  case disable => exact absurd h Bool.false_ne_true
  case add => exact absurd h Bool.false_ne_true
  case set => exact absurd h Bool.false_ne_true
  case objCfg => exact absurd h Bool.false_ne_true
  case poolGrant => exact absurd h Bool.false_ne_true
  case commandShare => exact absurd h Bool.false_ne_true
  case torderNop => exact absurd h Bool.false_ne_true
  case runChain => exact absurd h Bool.false_ne_true
  case clear => exact absurd h Bool.false_ne_true
  case test => exact absurd h Bool.false_ne_true
  case torderReset => exact absurd h Bool.false_ne_true
  case axon => exact absurd h Bool.false_ne_true
  case flock => exact absurd h Bool.false_ne_true
  case tally => exact absurd h Bool.false_ne_true
  case bankWrite => exact absurd h Bool.false_ne_true
  case registerWrite => exact absurd h Bool.false_ne_true
  case readReq => exact absurd h Bool.false_ne_true
  case readResp => exact absurd h Bool.false_ne_true
  case completion => exact absurd h Bool.false_ne_true
  case trace => exact absurd h Bool.false_ne_true
  case exchange => exact absurd h Bool.false_ne_true
  case portEgress => exact absurd h Bool.false_ne_true
  case digestIn => exact absurd h Bool.false_ne_true
  case droveEntry => exact absurd h Bool.false_ne_true
  case close => exact absurd h Bool.false_ne_true
  case pacerTick => exact absurd h Bool.false_ne_true
  case roundStart => exact absurd h Bool.false_ne_true
  case spike => exact absurd h Bool.false_ne_true
  case lapStart => exact absurd h Bool.false_ne_true
  case lapVote => exact absurd h Bool.false_ne_true
  case integrate => exact absurd h Bool.false_ne_true
  case learn => exact absurd h Bool.false_ne_true
  case musterArrive => exact absurd h Bool.false_ne_true
  case musterComplete => exact absurd h Bool.false_ne_true
  case freeLadderStep => exact absurd h Bool.false_ne_true
  case holdExpiry => exact absurd h Bool.false_ne_true
  case stallFreeze => exact absurd h Bool.false_ne_true
  case take => exact absurd h Bool.false_ne_true
  case thaw => exact absurd h Bool.false_ne_true
  case hwClear => exact absurd h Bool.false_ne_true
  case droveData => exact absurd h Bool.false_ne_true
  case timeLoRead => exact absurd h Bool.false_ne_true
  case countClear => exact absurd h Bool.false_ne_true
  case lock => exact absurd h Bool.false_ne_true
  case faultClear => exact absurd h Bool.false_ne_true
  case ceClear => exact absurd h Bool.false_ne_true
  case blkEventClear => exact absurd h Bool.false_ne_true
  case blkEventForce => exact absurd h Bool.false_ne_true
  case windowWaitMet => exact absurd h Bool.false_ne_true
  case windowWaitTimeout => exact absurd h Bool.false_ne_true
  case domReq => exact absurd h Bool.false_ne_true
  case drainEnd => exact absurd h Bool.false_ne_true
  case drainTimeout => exact absurd h Bool.false_ne_true
  case coreIdle => exact absurd h Bool.false_ne_true
  case routerIdle => exact absurd h Bool.false_ne_true
  case powerCapSample => exact absurd h Bool.false_ne_true
  case throttleSample => exact absurd h Bool.false_ne_true
  case tripClear => exact absurd h Bool.false_ne_true
  case voltageStep => exact absurd h Bool.false_ne_true
  case laneCheckDue => exact absurd h Bool.false_ne_true
  case laneCheck => exact absurd h Bool.false_ne_true
  case regFault => exact absurd h Bool.false_ne_true
  case handshakeFail => exact absurd h Bool.false_ne_true
  case padsRelease => exact absurd h Bool.false_ne_true
  case wakeDetect => exact absurd h Bool.false_ne_true
  case routeSlotStart => exact absurd h Bool.false_ne_true
  case alarm => exact absurd h Bool.false_ne_true
  case setCtrlLoad => exact absurd h Bool.false_ne_true
  case rtcLock => exact absurd h Bool.false_ne_true
  case xtalFail => exact absurd h Bool.false_ne_true
  case powerOnReset => simp only [exec, execPowerOnReset]; exact ⟨_, rfl⟩
  case porNAssert => simp only [exec, execPorNAssert]; exact ⟨_, rfl⟩
  case porNRelease => simp only [exec, execPorNRelease]; exact ⟨_, rfl⟩
  case brownout => exact absurd h Bool.false_ne_true
  case pkgReset => exact absurd h Bool.false_ne_true
  case dieReset => exact absurd h Bool.false_ne_true
  case tileReset => exact absurd h Bool.false_ne_true
  case gateReset => exact absurd h Bool.false_ne_true
  case configRequest => exact absurd h Bool.false_ne_true
  case machineWindowAccess => exact absurd h Bool.false_ne_true
  case gateLinkDown => exact absurd h Bool.false_ne_true
  case gateLinkUp => exact absurd h Bool.false_ne_true
  case dmaCompletion => exact absurd h Bool.false_ne_true
  case dmaCompletionTimeout => exact absurd h Bool.false_ne_true
  case msixUnmask => exact absurd h Bool.false_ne_true
  case egressRecordWrite => exact absurd h Bool.false_ne_true
  case eringCi => exact absurd h Bool.false_ne_true
  case traceCi => exact absurd h Bool.false_ne_true
  case eventPacket => exact absurd h Bool.false_ne_true
  case otherPacket => exact absurd h Bool.false_ne_true
  case frameStart => exact absurd h Bool.false_ne_true
  case rawLine => exact absurd h Bool.false_ne_true
  case frameEnd => exact absurd h Bool.false_ne_true
  case aerHandshake => exact absurd h Bool.false_ne_true
  case dataFrame => exact absurd h Bool.false_ne_true
  case idleFrame => exact absurd h Bool.false_ne_true
  case idleFrameSend => exact absurd h Bool.false_ne_true
  case hello => exact absurd h Bool.false_ne_true
  case leave => exact absurd h Bool.false_ne_true
  case ackTimeout => exact absurd h Bool.false_ne_true
  case linkDown => exact absurd h Bool.false_ne_true
  case holdExpired => exact absurd h Bool.false_ne_true
  case bringup => exact absurd h Bool.false_ne_true
  case bringupTimeout => exact absurd h Bool.false_ne_true
  case whistleSend => exact absurd h Bool.false_ne_true
  case linkState => exact absurd h Bool.false_ne_true
  case mainsLoss => exact absurd h Bool.false_ne_true
  case handoverEnd => exact absurd h Bool.false_ne_true
  case qualifyComplete => exact absurd h Bool.false_ne_true
  case rampEnd => exact absurd h Bool.false_ne_true
  case reserve => simp only [exec, execReserve]; exact ⟨_, rfl⟩
  case cutoff => simp only [exec, execCutoff]; exact ⟨_, rfl⟩
  case lockoutClear => exact absurd h Bool.false_ne_true
  case powerStorm => simp only [exec, execPowerStorm]; exact ⟨_, rfl⟩
  case powerCalm => simp only [exec, execPowerCalm]; exact ⟨_, rfl⟩
  case shelterStart => exact absurd h Bool.false_ne_true
  case nvPageWrite => exact absurd h Bool.false_ne_true
  case scrubVisit => exact absurd h Bool.false_ne_true
  case shear => exact absurd h Bool.false_ne_true
  case testDue => exact absurd h Bool.false_ne_true
  case deferLimit => exact absurd h Bool.false_ne_true
  case deferRetry => exact absurd h Bool.false_ne_true
  case placementRetry => exact absurd h Bool.false_ne_true
  case viewSweep => exact absurd h Bool.false_ne_true
  case unitReturn => exact absurd h Bool.false_ne_true
  case reconcile => exact absurd h Bool.false_ne_true
  case restart => exact absurd h Bool.false_ne_true
  case logWrite => exact absurd h Bool.false_ne_true
  case identGet => exact absurd h Bool.false_ne_true
  case regRead => exact absurd h Bool.false_ne_true
  case regWrite => exact absurd h Bool.false_ne_true
  case submit => exact absurd h Bool.false_ne_true
  case profileRead => exact absurd h Bool.false_ne_true
  case profileStage => exact absurd h Bool.false_ne_true
  case profileCommit => exact absurd h Bool.false_ne_true
  case fwBegin => exact absurd h Bool.false_ne_true
  case fwData => exact absurd h Bool.false_ne_true
  case fwEnd => exact absurd h Bool.false_ne_true
  case fwCommit => exact absurd h Bool.false_ne_true
  case fwSessionIdle => exact absurd h Bool.false_ne_true
  case debugChallenge => exact absurd h Bool.false_ne_true
  case debugUnlock => exact absurd h Bool.false_ne_true
  case debugClose => exact absurd h Bool.false_ne_true
  case dbgCtrlClose => exact absurd h Bool.false_ne_true
  case debugExpiry => exact absurd h Bool.false_ne_true
  case auditRead => exact absurd h Bool.false_ne_true
  case auditAck => exact absurd h Bool.false_ne_true
  case mapRead => exact absurd h Bool.false_ne_true
  case notice => exact absurd h Bool.false_ne_true
  case responseRead => exact absurd h Bool.false_ne_true
  case mboxTake => exact absurd h Bool.false_ne_true
  case toPackage => simp only [exec, execToPackage]; exact ⟨_, rfl⟩
  case bridgeRetry => simp only [exec, execBridgeRetry]; exact ⟨_, rfl⟩
  case setProfilePins => simp only [exec, execSetProfilePins]; exact ⟨_, rfl⟩
  case powerOn => simp only [exec, execPowerOn]; exact ⟨_, rfl⟩
  case powerOff => simp only [exec, execPowerOff]; exact ⟨_, rfl⟩
  case sledNotice => simp only [exec, execSledNotice]; exact ⟨_, rfl⟩
  case stateGet => simp only [exec, execStateGet]; exact ⟨_, rfl⟩
  case enumeration => simp only [exec, execEnumeration]; exact ⟨_, rfl⟩
  case sledPowerUp => simp only [exec, execSledPowerUp]; exact ⟨_, rfl⟩
  case page => exact absurd h Bool.false_ne_true
  case operation => exact absurd h Bool.false_ne_true
  case clearFaults => exact absurd h Bool.false_ne_true
  case capability => exact absurd h Bool.false_ne_true
  case voutMode => exact absurd h Bool.false_ne_true
  case statusByte => exact absurd h Bool.false_ne_true
  case statusWord => exact absurd h Bool.false_ne_true
  case statusVout => exact absurd h Bool.false_ne_true
  case statusIout => exact absurd h Bool.false_ne_true
  case statusInput => exact absurd h Bool.false_ne_true
  case statusTemperature => exact absurd h Bool.false_ne_true
  case statusCml => exact absurd h Bool.false_ne_true
  case readVin => exact absurd h Bool.false_ne_true
  case readIin => exact absurd h Bool.false_ne_true
  case readVout => exact absurd h Bool.false_ne_true
  case readIout => exact absurd h Bool.false_ne_true
  case readTemperature1 => exact absurd h Bool.false_ne_true
  case readPout => exact absurd h Bool.false_ne_true
  case readPin => exact absurd h Bool.false_ne_true
  case pmbusRevision => exact absurd h Bool.false_ne_true
  case mfrId => exact absurd h Bool.false_ne_true
  case mfrModel => exact absurd h Bool.false_ne_true
  case mfrShelfState => exact absurd h Bool.false_ne_true
  case mfrShelfEvents => exact absurd h Bool.false_ne_true
  case mfrBattSoc => exact absurd h Bool.false_ne_true
  case mfrBattHoldup => exact absurd h Bool.false_ne_true
  case mfrReturnQualify => exact absurd h Bool.false_ne_true
  case mfrReserveLevel => exact absurd h Bool.false_ne_true
  case mfrCutoffLevel => exact absurd h Bool.false_ne_true
  case mfrBattHealth => exact absurd h Bool.false_ne_true
  case mfrHandoverTime => exact absurd h Bool.false_ne_true
  case mfrReturnLog => exact absurd h Bool.false_ne_true
  case mfrStormCount => exact absurd h Bool.false_ne_true
  case mfrTestHandover => exact absurd h Bool.false_ne_true
  case extest => exact absurd h Bool.false_ne_true
  case idcode => exact absurd h Bool.false_ne_true
  case samplePreload => exact absurd h Bool.false_ne_true
  case clamp => exact absurd h Bool.false_ne_true
  case bypass => exact absurd h Bool.false_ne_true
  case registerRead => exact absurd h Bool.false_ne_true
  case debugApertureAccess => exact absurd h Bool.false_ne_true
  case wakingEnd => exact absurd h Bool.false_ne_true
  case railRecovery => exact absurd h Bool.false_ne_true
  case dieTrip => exact absurd h Bool.false_ne_true
  case syncLost => exact absurd h Bool.false_ne_true
  case hsSync => exact absurd h Bool.false_ne_true
  case reqLow => exact absurd h Bool.false_ne_true
  case mainsReturn => exact absurd h Bool.false_ne_true
  case handoverTestEnd => exact absurd h Bool.false_ne_true

end Sys2Proof.Machine
end

