-- ==== Sys2Proof/Laws/Boards.lean ====
section
/-! SUPPORT. What the operations around the package leave alone: the queue, the shelf and the TAP. -/

namespace Sys2Proof.Machine

theorem sendNotice_keeps (s : State) (b) : (s.sendNotice b).pending = s.pending ∧ (s.sendNotice b).shelf = s.shelf ∧ (s.sendNotice b).tap = s.tap := by
  unfold State.sendNotice; dsimp only; split <;> exact ⟨rfl, rfl, rfl⟩

theorem passHeld_keeps (s : State) : s.passHeld.pending = s.pending ∧ s.passHeld.shelf = s.shelf ∧ s.passHeld.tap = s.tap := by
  unfold State.passHeld; split
  · split
    · exact ⟨rfl, rfl, rfl⟩
    · exact sendNotice_keeps _ _
  · exact ⟨rfl, rfl, rfl⟩

theorem slotOff_keeps (s : State) (k) : (s.slotOff k).pending = s.pending ∧ (s.slotOff k).shelf = s.shelf ∧ (s.slotOff k).tap = s.tap := by
  unfold State.slotOff; dsimp only; split <;> exact ⟨rfl, rfl, rfl⟩

theorem slotOn_keeps (s : State) (k) : (s.slotOn k).pending = s.pending ∧ (s.slotOn k).shelf = s.shelf ∧ (s.slotOn k).tap = s.tap := by
  unfold State.slotOn; dsimp only; split <;> exact ⟨rfl, rfl, rfl⟩

theorem shutdownSteps_keeps (s : State) : s.shutdownSteps.pending = s.pending ∧ s.shutdownSteps.shelf = s.shelf ∧ s.shutdownSteps.tap = s.tap := by
  unfold State.shutdownSteps
  dsimp only
  split <;> split <;> simp [slotOff_keeps]

theorem settledTo_keeps (s t : State) : (s.settledTo t).pending = t.pending ∧ (s.settledTo t).shelf = t.shelf := by
  unfold State.settledTo
  simp [shutdownSteps_keeps, passHeld_keeps]

theorem run_keeps (s : State) (f) (t) (h : s.run f = .next t) : t.pending = s.pending ∧ t.shelf = s.shelf := by
  unfold State.run at h; split at h <;> cases h
  · exact ⟨rfl, rfl⟩
  · exact settledTo_keeps _ _

theorem next_of_shaped (i : Instr) (a : Ans) (t) (h : shaped i a = .next t) : a = .next t := by
  unfold shaped at h; split at h <;> first | exact h | cases h

theorem runAny_keeps (s : State) (f) (t) (h : s.runAny f = .next t) : t.pending = s.pending ∧ t.shelf = s.shelf := by
  cases h; exact settledTo_keeps _ _

theorem runShelf_pending (s : State) (f) (t) (h : s.runShelf f = .next t) : t.pending = s.pending := by
  cases h; rfl

theorem runTap_keeps (s : State) (f) (t) (h : s.runTap f = .next t) : t.pending = s.pending ∧ t.shelf = s.shelf:= by
  cases h; exact ⟨rfl, rfl⟩

theorem runWhole_pending (s : State) (f) (t) (h : s.runWhole f = .next t) (hf : (f s).pending = s.pending) : t.pending = s.pending := by
  cases h; rw [(settledTo_keeps _ _).1, hf]

theorem runWhole_shelf (s : State) (f) (t) (h : s.runWhole f = .next t) (hf : (f s).shelf = s.shelf) : t.shelf = s.shelf := by
  cases h; rw [(settledTo_keeps _ _).2, hf]

theorem pinPor_keeps (s : State) (b p) : (s.pinPor b p).pending = s.pending ∧ (s.pinPor b p).shelf = s.shelf := ⟨rfl, rfl⟩

theorem onDatagram_keeps (s : State) (q f) (hf : ∀ s, (f s).1.pending = s.pending ∧ (f s).1.shelf = s.shelf) :
   (s.onDatagram q f).pending = s.pending ∧ (s.onDatagram q f).shelf = s.shelf := by
  unfold State.onDatagram; split
  · exact ⟨rfl, rfl⟩
  · exact hf s

theorem notice_keeps (s : State) (b) : (s.notice b).pending = s.pending ∧ (s.notice b).shelf = s.shelf := by
  unfold State.notice; dsimp only; split
  · exact ⟨rfl, rfl⟩
  · exact ⟨rfl, rfl⟩

theorem passNotice_keeps (s : State) (b) : (s.passNotice b).pending = s.pending ∧ (s.passNotice b).shelf = s.shelf := by
  unfold State.passNotice; split
  · exact ⟨rfl, rfl⟩
  · exact ⟨(sendNotice_keeps _ _).1, (sendNotice_keeps _ _).2.1⟩

theorem toPackage_keeps (s : State) (q k f) : (s.toPackage q k f).pending = s.pending ∧ (s.toPackage q k f).shelf = s.shelf := by
  unfold State.toPackage; apply onDatagram_keeps; intro s; dsimp only; split <;> exact ⟨rfl, rfl⟩

theorem bridgeRetry_keeps (s : State) (q) : (s.bridgeRetry q).pending = s.pending ∧ (s.bridgeRetry q).shelf = s.shelf := by
  unfold State.bridgeRetry; split <;> exact ⟨rfl, rfl⟩

theorem onRequest_keeps (s : State) (q k n f) (hf : ∀ s, (f s).pending = s.pending ∧ (f s).shelf = s.shelf) :
   (s.onRequest q k n f).pending = s.pending ∧ (s.onRequest q k n f).shelf = s.shelf := by
  unfold State.onRequest; apply onDatagram_keeps; intro s; exact hf s

theorem atCutoff_pending (s : State) : s.atCutoff.pending = s.pending := by
  unfold State.atCutoff; dsimp only; split <;> rfl

theorem enumerate_keeps (s : State) : s.enumerate.pending = s.pending ∧ s.enumerate.shelf = s.shelf := by
  unfold State.enumerate; dsimp only; split <;> exact ⟨rfl, rfl⟩

theorem sledPowerUp_keeps (s : State) : s.sledPowerUp.pending = s.pending ∧ s.sledPowerUp.shelf = s.shelf := by
  unfold State.sledPowerUp; dsimp only; split
  · exact ⟨rfl, rfl⟩
  · split
    · simp [slotOn_keeps]
    · exact ⟨rfl, rfl⟩

theorem atReserve_pending (s : State) : s.atReserve.pending = s.pending := by
  unfold State.atReserve; dsimp only; split
  · rfl
  · split <;> rfl

end Sys2Proof.Machine
end

