-- ==== Sys2Proof/Laws/Frames.lean ====
section
/-! SUPPORT. How the Crook serves a frame, said once for every type: a frame that stands first, is well formed and permitted is
carried out by its meaning, and its answer, or what it leaves, is what the command has done. -/

namespace Sys2Proof.Machine

/-- One turn of the Crook, of the 64 that a frame starts. -/
theorem serve_of_turn {c d : Chip} {hold : Bool} (hh : c.held = false) (h : c.crookTurn hold = some d) : c.crookServe hold 64 = d.crookServe hold 63 := by
  rw [Chip.crookServe, if_neg (by rw [hh]; exact Bool.false_ne_true), h]

/-- What it means that a frame stands first. -/
theorem frame_first {s : State} {type : Nat} {f : Frame} (h : s.firstFrame type f = true) :
   (s.framed type f).held = false ∧ (s.framed type f).crook.job = none ∧ (f.via = .mailbox → (s.framed type f).crook.mbox.length < 8) ∧
   ∃ g l, (s.framed type f).crook.frames = (f.via, g) :: l ∧ leAt g 0 1 = type ∧ BitVec.ofNat 16 (leAt g 2 2) = f.tag ∧ slice g 8 (leAt g 4 2) = f.payload ∧ frameHeaderOk g = true ∧ (f.via = .smbus → g.length = 8 + f.payload.length) := by
  unfold State.firstFrame at h
  simp only [Bool.and_eq_true, Bool.not_eq_true', Option.isNone_iff_eq_none] at h
  obtain ⟨⟨⟨h1, h2⟩, h3⟩, h4⟩ := h
  refine ⟨h1, h2, ?_, ?_⟩
  · intro hv; simpa [hv] using h3
  · split at h4
    · rename_i v g l he
      simp only [Bool.and_eq_true, beq_iff_eq, Bool.or_eq_true, bne_iff_ne, ne_eq] at h4
      obtain ⟨⟨⟨⟨⟨a, b⟩, c⟩, d⟩, e⟩, f1⟩ := h4
      subst a
      exact ⟨g, l, he, b, c, d, e, fun hv => by rcases f1 with f1 | f1; exact absurd hv f1; exact f1⟩
    · cases h4

/-- The turn that serves such a frame. -/
theorem frame_turn {s : State} {type : Nat} {f : Frame} (hold) (h : s.frameServed type f = true) (ht : type ≤ 0x13) :
   (s.framed type f).crookTurn hold = match (s.frameAt type f).serveType hold f.via type f.tag f.payload with
          | .reply d st l => some (d.frameReply f.via type f.tag st l)
          | .later d => some (d.frameDone type f.tag.toNat (viaClass f.via) stOK)
          | .wait d =>
            let e : Chip := { d with crook := { d.crook with frames := (s.framed type f).crook.frames, mboxHeld := (s.framed type f).crook.mboxHeld } }
            if e.crook.session = (s.framed type f).crook.session then none else some e := by
  unfold State.frameServed at h
  simp only [Bool.and_eq_true] at h
  obtain ⟨⟨h1, h2⟩, h3⟩ := h
  obtain ⟨a, b, c, g, l, hf, t1, t2, t3, t4, t5⟩ := frame_first h1
  unfold Chip.crookTurn
  simp only [b, hf]
  rw [if_neg (by rintro h; simp at h; have := c h.1; omega)]
  simp only [t1, t2, t3, t4, h2, h3]
  rw [if_neg (by omega), if_neg (by simp; intro h; rw [t5 h]), if_neg (by simp)]
  rfl

/-- A frame whose meaning answers at once. -/
theorem answers_of_serve {s : State} {i : Instr} {type : Nat} {f : Frame} {d : Chip} {st l} (hi : exec i s = s.runFrame (fun c => c.frameArrives type f)) (h : s.frameServed type f = true) (ht : type ≤ 0x13)
   (hs : (s.frameAt type f).serveType s.sled.stormHold f.via type f.tag f.payload = .reply d st l) : s.answers i type f d st l := by
  unfold State.answers State.takes
  refine ⟨_, ?_, rfl⟩
  rw [hi]; unfold State.runFrame State.runAny
  have h1 := frame_turn s.sled.stormHold h ht
  rw [hs] at h1
  have hh : (s.framed type f).held = false := by
    unfold State.frameServed at h; simp only [Bool.and_eq_true] at h; exact (frame_first h.1.1).1
  exact congrArg (fun x => Host.Outcome.next (s.settled x)) (serve_of_turn hh h1)

/-- A frame whose answer comes later. -/
theorem takes_of_later {s : State} {i : Instr} {type : Nat} {f : Frame} {d : Chip} (hi : exec i s = s.runFrame (fun c => c.frameArrives type f)) (h : s.frameServed type f = true) (ht : type ≤ 0x13)
   (hs : (s.frameAt type f).serveType s.sled.stormHold f.via type f.tag f.payload = .later d) : s.takes i (fun c => c = (d.frameDone type f.tag.toNat (viaClass f.via) stOK).crookServe s.sled.stormHold 63) := by
  refine ⟨_, ?_, rfl⟩
  rw [hi]; unfold State.runFrame State.runAny
  have h1 := frame_turn s.sled.stormHold h ht
  rw [hs] at h1
  have hh : (s.framed type f).held = false := by
    unfold State.frameServed at h; simp only [Bool.and_eq_true] at h; exact (frame_first h.1.1).1
  exact congrArg (fun x => Host.Outcome.next (s.settled x)) (serve_of_turn hh h1)

end Sys2Proof.Machine
end

