-- ==== Sys2Proof/Laws/Nv.lean ====
section
/-! SUPPORT. Pages of the NV store: the CRC-32C is a 32-bit value, what a run of bytes written reads back as, and when a page
passes its CRC. -/

namespace Sys2Proof.Machine

/-! ### CRC-32C -/

theorem crcBit_lt {c : Nat} (h : c < 2 ^ 32) : crcBit c < 2 ^ 32 := by
  unfold crcBit
  split
  · exact Nat.xor_lt_two_pow (by omega) (by omega)
  · omega

theorem iter_crcBit_lt (n : Nat) {c : Nat} (h : c < 2 ^ 32) : iter crcBit n c < 2 ^ 32 := by
  induction n generalizing c with
  | zero => exact h
  | succ n ih => exact ih (crcBit_lt h)

theorem crcBytes_lt (l : List Byte) {c : Nat} (h : c < 2 ^ 32) : crcBytes c l < 2 ^ 32 := by
  induction l generalizing c with
  | nil => exact h
  | cons b l ih =>
    exact ih (iter_crcBit_lt 8 (Nat.xor_lt_two_pow h (Nat.lt_trans b.isLt (by omega))))

/-- A CRC-32C fits 32 bits. -/
theorem crc32c_lt (l : List Byte) : crc32c l < 2 ^ 32 :=
  Nat.xor_lt_two_pow (crcBytes_lt l (by decide)) (by decide)

/-! ### Runs of bytes -/

@[simp] theorem length_memReadN (m : Memory) (a n : Nat) : (memReadN m a n).length = n := by
  induction n generalizing a with
  | zero => rfl
  | succ n ih => simp [memReadN, ih]

theorem getElem_memReadN (m : Memory) (a n i : Nat) (h : i < (memReadN m a n).length) : (memReadN m a n)[i] = memRead m (a + i) := by
  induction n generalizing a i with
  | zero => simp [memReadN] at h
  | succ n ih =>
    cases i with
    | zero => rfl
    | succ i =>
      have h2 : a + (i + 1) = a + 1 + i := by omega
      rw [h2]
      exact ih (a + 1) i (by simp at h ⊢; omega)

/-- A run of bytes written reads back whole. -/
theorem memReadN_memWriteN (m : Memory) (a : Nat) (l : List Byte) : memReadN (memWriteN m a l) a l.length = l := by
  apply List.ext_getElem (by simp)
  intro i h1 h2
  rw [getElem_memReadN, memRead_memWriteN_inside _ _ _ _ h2]

/-- A run of bytes written leaves a run beside it as it was. -/
theorem memReadN_memWriteN_beside (m : Memory) (a b n : Nat) (l : List Byte) (h : b + n ≤ a ∨ a + l.length ≤ b) :
    memReadN (memWriteN m a l) b n = memReadN m b n := by
  apply List.ext_getElem (by simp)
  intro i h1 h2
  simp only [length_memReadN] at h1
  rw [getElem_memReadN, getElem_memReadN]
  exact memRead_memWriteN_outside _ _ _ (by omega)

/-! ### Pages -/

/-- A page whose bytes are `l` and whose CRC is that of `l` passes. -/
theorem nvGood_of (c : Chip) (pg : Nat) (l : List Byte) (hd : c.nvData pg = l) (hm : (c.nvMeta pg).crc = BitVec.ofNat 32 (crc32c l)) :
    c.nvGood pg = true := by
  have h : (crc32c l) % 2 ^ 32 = crc32c l := Nat.mod_eq_of_lt (crc32c_lt l)
  simp only [Chip.nvGood, hd, hm, BitVec.toNat_ofNat, h, beq_self_eq_true]

end Sys2Proof.Machine
end

