-- ==== Sys2Proof/Laws/Orders.lean ====
section
/-! SUPPORT. A COMMAND at an idle tile: what the tile has become when its order is served (R152–R154). -/

namespace Sys2Proof.Machine

@[simp] theorem tile_updTile (c : Chip) (k : Nat) (f) : (c.updTile k f).tile k = f (c.tile k) := by
  simp [Chip.updTile, Chip.putTile, Chip.tile]

@[simp] theorem tile_wakeTile (c : Chip) (k j : Nat) : (c.wakeTile k).tile j = c.tile j := by
  unfold Chip.wakeTile; simp only; split <;> split <;> rfl

/-- What the order `o` that tile `k` has taken does (R153). -/
def Chip.orderRun (x : Chip) (k : Nat) (o : TileOrder) (w : OrderWorld) : Chip := 
  match ordTop o.words with
  | 0 => x.endOrder k o stOK
  | 1 =>
    if x.denseBarred k then x.endOrder k o stBUSY_PASTURE
    else x.chainOn k { desc := BitVec.ofNat 6 (ordArg o.words), waiting := false, entry := none, round := none, status := 0 }
  | 2 =>
    if x.liveTile k then x.endOrder k o stBUSY_PASTURE
    else
      let c := (x.orderFreed k).clearCore k (fun _ => true)
      if w.readBackFails then (c.clearFailed k).endOrder k o stFENCED else c.endOrder k o stOK
  | 3 =>
    if x.liveTile k then x.endOrder k o stBUSY_PASTURE
    else
      let ran := ordArg o.words
      let c := x.orderFreed k
      (c.testTile k ran w.fails).endOrder k o (if w.fails &&& ran = 0 then stOK else stFENCED)
  | _ =>
    if x.liveTile k then x.endOrder k o stBUSY_PASTURE
    else
      let c := x.orderFreed k
      ((c.clearCore k (fun _ => true)).resetTileRegs k).endOrder k o stOK

theorem serveOrders_one {c : Chip} {k : Nat} {l : List W64} {rest : List (List W64)} {w : OrderWorld} {f : Nat}
    (hq : (c.tile k).q.command = l :: rest) (ho : (c.tile k).orders.current = none) (ht : (c.tile k).tc.chain = none)
    (hb : ordBad (tileKind (k % 256)) (ordOf l).words = false) (hm : ordMet (c.tile k) (ordOf l) = true) :
    c.serveOrders k w (f + 1)
      = ((c.updTile k (fun t => { t with q := { t.q with command := rest } })).runOrder k (ordOf l) w).serveOrders k w f := by
  rw [Chip.serveOrders]
  simp only [ht, ho, hq, hb, hm, Option.isSome_none, Bool.false_eq_true, if_false, if_true]

theorem updTile_congr {c : Chip} {k : Nat} {f g : Tile → Tile} (h : f (c.tile k) = g (c.tile k)) : c.updTile k f = c.updTile k g := by
  unfold Chip.updTile; rw [h]

theorem runOrder_eq (c : Chip) (k : Nat) (o : TileOrder) (w : OrderWorld) :
    c.runOrder k o w = Chip.orderRun (c.updTile k (fun t => { t with orders := { t.orders with current := some o } })) k o w := by
  unfold Chip.runOrder Chip.orderRun
  rfl

theorem tileCommand_of_served {c : Chip} {k : Nat} {hdr : W64} {ws : List W64} (h : c.orderServed k hdr ws = true) (w : OrderWorld) :
   c.tileCommand k hdr ws w = (Chip.orderRun (c.orderTaken k hdr ws) k (ordOf (hdr :: ws)) w).serveOrders k w 2 := by
  unfold Chip.orderServed at h
  simp only [Bool.and_eq_true, Bool.not_eq_true', beq_iff_eq, Option.isNone_iff_eq_none, List.isEmpty_iff] at h
  obtain ⟨⟨⟨⟨⟨⟨⟨⟨⟨h0, h1⟩, h2⟩, h3⟩, h4⟩, h5⟩, h6⟩, h7⟩, h8⟩, h9⟩ := h
  unfold Chip.tileCommand
  simp only [h2, h4, h3, h5]
  simp only [Bool.not_true, Bool.false_eq_true, if_false, Bool.false_or]
  rw [if_neg (by simp)]
  rw [updTile_congr (g := fun t => { t with q := raiseHigh { t.q with command := t.q.command ++ [hdr :: ws] } 4 (t.q.command.length + 1) }) (by simp)]
  rw [show ((((c.wakeTile k).updTile k (fun t => { t with q := raiseHigh { t.q with command := t.q.command ++ [hdr :: ws] } 4 (t.q.command.length + 1) })).tile k).q.command.length + 2) = 2 + 1 by simp [raiseHigh, h5]]
  rw [serveOrders_one (l := hdr :: ws) (rest := []) (by simp [raiseHigh, h5]) (by simp [h6]) (by simp [h7]) h8
    (by simp only [tile_updTile, tile_wakeTile]; unfold ordMet at h9 ⊢; exact h9)]
  rw [runOrder_eq, updTile_congr (f := fun t => { t with q := { t.q with command := [] } }) (g := fun t => { t with q := { t.q with command := t.q.command.drop 1 } }) (by simp [raiseHigh, h5])]
  rfl

end Sys2Proof.Machine
end

