-- ==== Sys2Proof/Laws/Registers.lean ====
section
/-! SUPPORT. A register write that the checks let pass, said once: it is the write of the register's own bits. -/

set_option linter.unusedSimpArgs false

namespace Sys2Proof.Machine

theorem held_of_accepts {c : Chip} {n off : Nat} {o : Origin} (h : c.accepts n off o = true) : c.held = false := by
  unfold Chip.accepts Chip.opens at h
  simp only [Bool.and_eq_true, Bool.not_eq_true'] at h
  exact h.1.1.1

theorem wakeControl_of_opens {c : Chip} {n : Nat} {o : Origin} (h : c.opens n o = true) :
    (if inControl n then c.wakeControl else c) = c := by
  unfold Chip.opens at h
  simp only [Bool.and_eq_true, Bool.not_eq_true', Bool.or_eq_true] at h
  split
  · rename_i hc
    unfold Chip.wakeControl
    rw [if_pos (h.2.resolve_left (by simp [hc]))]
  · rfl

/-- The bits of the register at `off` of base-die page `n` that a write reaches. -/
def maskOf (n off : Nat) : Nat :=
  match (regsOf (baseCode n)).find? (fun r => r.off == off && r.acc != .ro) with
  | some r => r.mask
  | none => 0

/-- An accepted write of base-die page `n` reaches its register with the bits that may be written. -/
theorem regWrite_of_accepts {c : Chip} {n off : Nat} {o : Origin} (h : c.accepts n off o = true)
    (hp : regPlace (regAt n off) = .base n off) (hi : baseCode n ≠ codeIDENT) (ho : 256 ≤ off) (v : Nat) :
    c.regWrite o (regAt n off) v = c.writeReg n off (v &&& maskOf n off) (originNum o) none := by
  unfold maskOf
  unfold Chip.accepts at h
  cases hr : (regsOf (baseCode n)).find? (fun r => r.off == off && r.acc != .ro) with
  | none => rw [hr] at h; simp at h
  | some r =>
  rw [hr] at h
  simp only [Bool.and_eq_true, Bool.not_eq_true', Bool.and_eq_false_imp] at h
  obtain ⟨hopen, hperm, hlock⟩ := h
  have hw := wakeControl_of_opens hopen
  have hpo : c.pageOpen n (originNum o) = true := by
    unfold Chip.opens at hopen
    simp only [Bool.and_eq_true] at hopen
    exact hopen.1.2
  unfold Chip.regWrite Chip.writeAt
  rw [hp]
  simp only
  unfold Chip.writeBase
  rw [if_neg hi, hpo]
  simp only [Bool.not_true, Bool.false_eq_true, if_false]
  rw [hw, if_neg (by omega), hr]
  simp only [hperm, Bool.not_true, Bool.false_eq_true, if_false]
  rw [if_neg]
  intro hc
  simp only [Bool.and_eq_true, decide_eq_true_eq] at hc
  have := hlock (by simp [hc.1])
  simp [this] at hc

/-! ### The write of each page -/

theorem writeReg_shep (c : Chip) (off v cls : Nat) (f : Option Nat) (h : isCountClear codeSHEP off = false) :
    c.writeReg pgSHEP off v cls f = c.writeShep off v cls := by
  unfold Chip.writeReg
  simp only [show baseCode pgSHEP = codeSHEP from rfl, h]
  simp [codeSHEP, codeMUSTER, codePLACE, codeHEALTH, codeCOMMONS, codeGATE, codeNVS, codeLINK, codePOWER, codePADS, codeWAKE, codeRTC, codeTHERM, codeSTACK, codePROFILE, codeCROOK, codeAUTH]

theorem writeReg_muster (c : Chip) (off v cls : Nat) (f : Option Nat) (h : isCountClear codeMUSTER off = false) :
    c.writeReg pgMUSTER off v cls f = c.writeMuster off v := by
  unfold Chip.writeReg
  simp only [show baseCode pgMUSTER = codeMUSTER from rfl, h]
  simp [codeSHEP, codeMUSTER, codePLACE, codeHEALTH, codeCOMMONS, codeGATE, codeNVS, codeLINK, codePOWER, codePADS, codeWAKE, codeRTC, codeTHERM, codeSTACK, codePROFILE, codeCROOK, codeAUTH]

theorem writeReg_place (c : Chip) (off v cls : Nat) (f : Option Nat) (h : isCountClear codePLACE off = false) :
    c.writeReg pgPLACE off v cls f = c.writePlace off v cls := by
  unfold Chip.writeReg
  simp only [show baseCode pgPLACE = codePLACE from rfl, h]
  simp [codeSHEP, codeMUSTER, codePLACE, codeHEALTH, codeCOMMONS, codeGATE, codeNVS, codeLINK, codePOWER, codePADS, codeWAKE, codeRTC, codeTHERM, codeSTACK, codePROFILE, codeCROOK, codeAUTH]

theorem writeReg_health (c : Chip) (off v cls : Nat) (f : Option Nat) (h : isCountClear codeHEALTH off = false) :
    c.writeReg pgHEALTH off v cls f = c.writeHealth off v cls f := by
  unfold Chip.writeReg
  simp only [show baseCode pgHEALTH = codeHEALTH from rfl, h]
  simp [codeSHEP, codeMUSTER, codePLACE, codeHEALTH, codeCOMMONS, codeGATE, codeNVS, codeLINK, codePOWER, codePADS, codeWAKE, codeRTC, codeTHERM, codeSTACK, codePROFILE, codeCROOK, codeAUTH]

theorem writeReg_gate (c : Chip) (off v cls : Nat) (f : Option Nat) (h : isCountClear codeGATE off = false) :
    c.writeReg pgGATE off v cls f = c.writeGate off v cls := by
  unfold Chip.writeReg
  simp only [show baseCode pgGATE = codeGATE from rfl, h]
  simp [codeSHEP, codeMUSTER, codePLACE, codeHEALTH, codeCOMMONS, codeGATE, codeNVS, codeLINK, codePOWER, codePADS, codeWAKE, codeRTC, codeTHERM, codeSTACK, codePROFILE, codeCROOK, codeAUTH]

theorem writeReg_power (c : Chip) (off v cls : Nat) (f : Option Nat) (h : isCountClear codePOWER off = false) :
    c.writeReg pgPOWER off v cls f = c.writePower off v cls := by
  unfold Chip.writeReg
  simp only [show baseCode pgPOWER = codePOWER from rfl, h]
  simp [codeSHEP, codeMUSTER, codePLACE, codeHEALTH, codeCOMMONS, codeGATE, codeNVS, codeLINK, codePOWER, codePADS, codeWAKE, codeRTC, codeTHERM, codeSTACK, codePROFILE, codeCROOK, codeAUTH]

theorem writeReg_pads (c : Chip) (off v cls : Nat) (f : Option Nat) (h : isCountClear codePADS off = false) :
    c.writeReg pgPADS off v cls f = c.writePads off v cls := by
  unfold Chip.writeReg
  simp only [show baseCode pgPADS = codePADS from rfl, h]
  simp [codeSHEP, codeMUSTER, codePLACE, codeHEALTH, codeCOMMONS, codeGATE, codeNVS, codeLINK, codePOWER, codePADS, codeWAKE, codeRTC, codeTHERM, codeSTACK, codePROFILE, codeCROOK, codeAUTH]

theorem writeReg_wake (c : Chip) (off v cls : Nat) (f : Option Nat) (h : isCountClear codeWAKE off = false) :
    c.writeReg pgWAKE off v cls f = c.writeWake off v := by
  unfold Chip.writeReg
  simp only [show baseCode pgWAKE = codeWAKE from rfl, h]
  simp [codeSHEP, codeMUSTER, codePLACE, codeHEALTH, codeCOMMONS, codeGATE, codeNVS, codeLINK, codePOWER, codePADS, codeWAKE, codeRTC, codeTHERM, codeSTACK, codePROFILE, codeCROOK, codeAUTH]

theorem writeReg_rtc (c : Chip) (off v cls : Nat) (f : Option Nat) (h : isCountClear codeRTC off = false) :
    c.writeReg pgRTC off v cls f = c.writeRtc off v cls := by
  unfold Chip.writeReg
  simp only [show baseCode pgRTC = codeRTC from rfl, h]
  simp [codeSHEP, codeMUSTER, codePLACE, codeHEALTH, codeCOMMONS, codeGATE, codeNVS, codeLINK, codePOWER, codePADS, codeWAKE, codeRTC, codeTHERM, codeSTACK, codePROFILE, codeCROOK, codeAUTH]

theorem writeReg_therm (c : Chip) (off v cls : Nat) (f : Option Nat) (h : isCountClear codeTHERM off = false) :
    c.writeReg pgTHERM off v cls f = c.writeTherm off v cls := by
  unfold Chip.writeReg
  simp only [show baseCode pgTHERM = codeTHERM from rfl, h]
  simp [codeSHEP, codeMUSTER, codePLACE, codeHEALTH, codeCOMMONS, codeGATE, codeNVS, codeLINK, codePOWER, codePADS, codeWAKE, codeRTC, codeTHERM, codeSTACK, codePROFILE, codeCROOK, codeAUTH]

theorem writeReg_profile (c : Chip) (off v cls : Nat) (f : Option Nat) (h : isCountClear codePROFILE off = false) :
    c.writeReg pgPROFILE off v cls f = c.resetReq v cls := by
  unfold Chip.writeReg
  simp only [show baseCode pgPROFILE = codePROFILE from rfl, h]
  simp [codeSHEP, codeMUSTER, codePLACE, codeHEALTH, codeCOMMONS, codeGATE, codeNVS, codeLINK, codePOWER, codePADS, codeWAKE, codeRTC, codeTHERM, codeSTACK, codePROFILE, codeCROOK, codeAUTH]

theorem writeReg_auth (c : Chip) (off v cls : Nat) (f : Option Nat) (h : isCountClear codeAUTH off = false) :
    c.writeReg pgAUTH off v cls f = c.writeAuth off v cls := by
  unfold Chip.writeReg
  simp only [show baseCode pgAUTH = codeAUTH from rfl, h]
  simp [codeSHEP, codeMUSTER, codePLACE, codeHEALTH, codeCOMMONS, codeGATE, codeNVS, codeLINK, codePOWER, codePADS, codeWAKE, codeRTC, codeTHERM, codeSTACK, codePROFILE, codeCROOK, codeAUTH]

theorem writeReg_crook (c : Chip) (off v cls : Nat) (f : Option Nat) (h : isCountClear codeCROOK off = false) :
    c.writeReg pgCROOK off v cls f = c.writeCrook off v := by
  unfold Chip.writeReg
  simp only [show baseCode pgCROOK = codeCROOK from rfl, h]
  simp [codeSHEP, codeMUSTER, codePLACE, codeHEALTH, codeCOMMONS, codeGATE, codeNVS, codeLINK, codePOWER, codePADS, codeWAKE, codeRTC, codeTHERM, codeSTACK, codePROFILE, codeCROOK, codeAUTH]

theorem writeReg_nvs (c : Chip) (off v cls : Nat) (f : Option Nat) (h : isCountClear codeNVS off = false) :
    c.writeReg pgNVS off v cls f = (if off = 0x120 then (if bit v 0 then c.shelterStart else c) else c.updPage pgNVS (fun p => p.wr off v)) := by
  unfold Chip.writeReg
  simp only [show baseCode pgNVS = codeNVS from rfl, h]
  simp [codeSHEP, codeMUSTER, codePLACE, codeHEALTH, codeCOMMONS, codeGATE, codeNVS, codeLINK, codePOWER, codePADS, codeWAKE, codeRTC, codeTHERM, codeSTACK, codePROFILE, codeCROOK, codeAUTH]

end Sys2Proof.Machine
end

