-- ==== Sys2Proof/Tests/Slice0.lean ====
section
/-! SUPPORT. Tests: the smoke tests of WellFormed, and for each statement with hypotheses a concrete state and operands that meet them
together. The states are small changes of the state after reset; the expected words are laid out by hand from the tables of the
spec. -/

set_option Elab.async false

namespace Sys2Proof.Tests

open Sys2Proof.Machine

/-! ### Small states -/

/-- A package that runs: POR_N high, the boot at READY, CONTROL ON as after reset. -/
def up (c : Chip) : Chip :=
  { c with held := false, porLow := false
           pages := [(pgIDENT, { pageDefault pgIDENT with regs := [(0x120, 7)] })] }

def live : State := { State.reset with chip := up State.reset.chip }

/-- A command record of opcode `op`, pasture `p` and operand words 4–7 (bytes 32–63). -/
def record (op p : Nat) (w4 w5 w6 w7 : W64) : List W64 := [BitVec.ofNat 64 (op + p * 2 ^ 32), 0, 0, 0, w4, w5, w6, w7]

/-- A READY entry of context 0 with those words. -/
def readyEntry (ws : List W64) : SbEntry := { SbEntry.init with state := .ready, source := .ctx 0, words := ws }

/-- The live state with entry 0 READY. -/
def withCommand (s : State) (ws : List W64) : State := { s with chip := { s.chip with sb := [(0, readyEntry ws)] } }

/-- A tile of a pasture: image tile 0 of image die 0, placed on tile 0 of die 0. -/
def tile0 : PTile :=
  { imgPkg := 0, imgDie := 0, imgTile := 0, die := 0, tile := 0, core := true, slot := 0, foldKiB := 16, lapMax := 1, phase := .none
    integrated := false, busy := false }

/-- A resident pasture with that one tile. -/
def past0 : Past := { Past.init with presence := .resident, pkgMap := [0], tiles := [tile0], flags := 0x1F }

def withPast (s : State) (x : Past) : State := { s with chip := { s.chip with pasts := [(1, x)] } }

/-! ### The machine as a whole, the scoreboard -/

theorem wit_held_command : Instr.ofPackage (.nop 0) = true ∧ Instr.wf (.nop 0) = true ∧ State.reset.chip.held = true := by decide
theorem wit_parts : Instr.ofShelf .mainsLoss = true ∧ Instr.measures (.readVout none) = true ∧ Instr.ofTap .idcode = true
    ∧ Instr.ofShelf .idcode = false ∧ Instr.measures .idcode = false ∧ (Instr.idcode ≠ .reserve) ∧ (Instr.idcode ≠ .cutoff) := by decide
theorem wit_answers : (∃ t, exec .idcode State.reset = .next t) ∧ ∃ t, step State.reset = .next t := ⟨⟨_, rfl⟩, _, rfl⟩
theorem wit_reset_sound : State.reset.pending = [] ∧ State.reset.shelf.sound ∧ State.reset.padsSafe := by
  unfold Shelf.sound State.padsSafe; decide

def sNop : State := withPast (withCommand live (record 0x00 1 0 0 0 0)) past0
theorem wit_nop : sNop.chip.starts 0 0x00 = true ∧ sNop.chip.plain 0 = true
    ∧ (sNop.chip.past (sNop.chip.entry 0).pasture).presence ≠ .free := by decide
def sRunning : State := { sNop with chip := { sNop.chip with sb := [(0, { readyEntry (record 0x00 1 0 0 0 0) with state := .running })] } }
theorem wit_finish : (sRunning.chip.entry 0).state = .running ∧ sRunning.chip.plain 0 = true := by decide

/-- SYNC_CFG of object 7 as a COUNTER of value 5. -/
def sCfg : State := withCommand live (record 0x01 0 (BitVec.ofNat 64 (7 + 1 * 2 ^ 16 + 5 * 2 ^ 32)) 0 0 0)
theorem wit_syncCfg : sCfg.chip.starts 0 0x01 = true ∧ sCfg.chip.plain 0 = true ∧ bits ((sCfg.chip.entry 0).bytes 32 4) 13 0 = 7
    ∧ bits ((sCfg.chip.entry 0).bytes 32 4) 17 16 = 1 ∧ (sCfg.chip.entry 0).bytes 36 4 = 5 ∧ bit ((sCfg.chip.entry 0).bytes 32 4) 31 = false
    ∧ (sCfg.chip.started 0).waitersOf 7 = [] ∧ initOk 1 5 = true := by decide

/-- HOLD of pasture 1 for 9 µs, and its pasture between rounds or in one. -/
def sHold (x : Past) : State := withPast (withCommand live (record 0x02 1 9 0 0 0)) x
theorem wit_hold : (sHold past0).chip.starts 0 0x02 = true ∧ (sHold past0).chip.plain 0 = true ∧ ((sHold past0).chip.entry 0).pasture = 1
    ∧ ((sHold past0).chip.entry 0).bytes 32 4 = 9 ∧ bit (((sHold past0).chip.entry 0).bytes 36 4) 0 = false
    ∧ ((sHold past0).chip.past 1).presence ≠ .free ∧ ((sHold past0).chip.past 1).pendingHold = none
    ∧ ((sHold past0).chip.past 1).hold = none ∧ ((sHold past0).chip.past 1).between = true
    ∧ (sHold { past0 with phase := .spike }).chip.starts 0 0x02 = true
    ∧ ((sHold { past0 with phase := .spike }).chip.past 1).between = false := by decide

def sRelease : State := withPast (withCommand live (record 0x03 1 0 0 0 0)) past0
theorem wit_release : sRelease.chip.starts 0 0x03 = true ∧ sRelease.chip.plain 0 = true ∧ (sRelease.chip.past 1).presence ≠ .free
    ∧ (sRelease.chip.past 1).restoreFailed = false ∧ (sRelease.chip.past 1).pendingHold = none ∧ (sRelease.chip.past 1).hold = none := by decide

/-- ABORT of the command with sequence number 0, alone and with another READY command of that number. -/
def sAbort : State := withPast (withCommand live (record 0x04 1 5 0 0 0)) past0
def sAbort2 : State := { sAbort with chip := { sAbort.chip with
  sb := [(0, readyEntry (record 0x04 1 1 0 0 0)), (1, readyEntry (record 0x06 1 0 0 0 0 |>.set 0 (BitVec.ofNat 64 (0x06 + 2 ^ 16 + 2 ^ 32))))] } }
theorem wit_abort : sAbort.chip.starts 0 0x04 = true ∧ sAbort.chip.plain 0 = true ∧ (sAbort.chip.past 1).presence ≠ .free
    ∧ bit ((sAbort.chip.entry 0).bytes 32 4) 31 = false ∧ (sAbort.chip.started 0).abortHits 0 1 = [] := by decide
theorem wit_abort_one : sAbort2.chip.starts 0 0x04 = true ∧ bit ((sAbort2.chip.entry 0).bytes 32 4) 31 = false
    ∧ (sAbort2.chip.started 0).abortHits 0 1 = [1] ∧ (sAbort2.chip.entry 1).state = .ready ∧ (sAbort2.chip.entry 1).opcode = 0x06 := by decide

def sProfile : State := withCommand live (record 0x0A 0 2 0 0 0)
theorem wit_setProfile : sProfile.chip.starts 0 0x0A = true ∧ sProfile.chip.plain 0 = true ∧ bits ((sProfile.chip.entry 0).bytes 32 1) 1 0 = 2
    ∧ (sProfile.chip.entry 0).flag 20 = false
    ∧ ((sProfile.chip.started 0).audit 7 (sProfile.chip.entry 0).origin stOK (natLe 4 2 ++ natLe 4 0)).2 = true := by decide

/-- SET_DOMAIN of COMMONS to OFF, found OFF and found ON. -/
def onDom (n : Nat) : DomRec := { domDefault n with state := .on }
def sDomOff : State := withCommand live (record 0x08 0 (BitVec.ofNat 64 (domCOMMONS + 2 * 2 ^ 16)) 0 0 0)
def sDomOn : State := { sDomOff with chip := { sDomOff.chip with doms := [(domCOMMONS, onDom domCOMMONS)] } }
theorem wit_setDomain : sDomOff.chip.starts 0 0x08 = true ∧ sDomOff.chip.plain 0 = true ∧ bits ((sDomOff.chip.entry 0).bytes 32 4) 9 0 = domCOMMONS
    ∧ domOf (bits ((sDomOff.chip.entry 0).bytes 32 4) 17 16) = some .off ∧ (sDomOff.chip.dom domCOMMONS).current = none
    ∧ (sDomOff.chip.dom domCOMMONS).draining = false ∧ (sDomOff.chip.dom domCOMMONS).waking = false ∧ domKind domCOMMONS ≠ .nothing
    ∧ (sDomOff.chip.dom domCOMMONS).state = .off ∧ sDomOn.chip.starts 0 0x08 = true ∧ (sDomOn.chip.dom domCOMMONS).state = .on
    ∧ (sDomOn.chip.started 0).refusals domCOMMONS .off { target := .off, asker := .command 0, origin := (sDomOn.chip.entry 0).asOrigin } = [] := by decide

def sPoint : State := withCommand live (record 0x09 0 (BitVec.ofNat 64 (1 + 900 * 2 ^ 32)) 0 0 0)
theorem wit_setOpPoint : sPoint.chip.starts 0 0x09 = true ∧ bits ((sPoint.chip.entry 0).bytes 32 1) 1 0 = 1 ∧ (sPoint.chip.entry 0).bytes 36 2 = 900
    ∧ sPoint.chip.residents.any (fun p => (sPoint.chip.past p).touchesDie 1 && (sPoint.chip.past p).running) = false := by decide

/-- TEST_UNIT of the core of tile 0 of die 0, with its test named and with none. -/
def sTest (ran : Nat) : State := withCommand live (record 0x07 0 (BitVec.ofNat 64 (ran * 2 ^ 32)) 0 0 0)
theorem wit_testUnit : (sTest 1).chip.starts 0 0x07 = true ∧ ((sTest 1).chip.entry 0).testUnit = 0 ∧ bits (((sTest 1).chip.entry 0).bytes 36 4) 4 0 = 1
    ∧ bits (((sTest 1).chip.entry 0).bytes 32 4) 7 0 = (sTest 1).chip.pkg ∧ unitExists 0 = true ∧ 1 &&& unitTests 0 = 1
    ∧ ((sTest 1).chip.unit 0).applied ≠ .off ∧ unitKind 0 ≠ 4 ∧ ((sTest 1).chip.started 0).liveUnit 0 = false
    ∧ ((sTest 1).chip.started 0).heldFor 0 = none ∧ (sTest 0).chip.starts 0 0x07 = true
    ∧ bits (((sTest 0).chip.entry 0).bytes 36 4) 4 0 = 0 := by decide


/-! ### Moving, images and the engines -/

/-- The TILES section of image die 0 of image package 0 with core tile 252, a tensor tile. -/
def tilesSect : Sect := { type := 1, imgPkg := 0, imgDie := 0, count := 1, bytes := natLe 4 (252 + 2 ^ 8) }

/-- Image tile 252 on tile 16 of die 0: a tensor core without a fold. -/
def tile16 : PTile := { tile0 with imgTile := 252, tile := 16, foldKiB := 0, busy := true }

/-- A resident pasture of that one tile, SHIFTABLE. -/
def past16 : Past :=
  { Past.init with presence := .resident, kind := 2, flags := 1, pkgMap := [0], sections := [tilesSect], tiles := [tile16]
                   dies := [{ imgDie := 0, die := 0, dx := -12, dy := -14 }] }

/-- The live package with compute die 0 ON, the banks of its tiles 16 and 20 ON, and the gate's link up. -/
def dieUp (s : State) : State :=
  { s with chip := { s.chip with
      dies := listSet s.chip.dies 0 { DieRec.init with state := .on }
      doms := [(16, onDom 16), (20, onDom 20), (domGATE, onDom domGATE)]
      coreDoms := [(16, .on), (20, .on)]
      routerDoms := [(16, .on), (20, .on)]
      gate := { s.chip.gate with dlUp := true } } }

theorem wit_unload : (withPast (withCommand live (record 0x06 1 0 0 0 0)) past16).chip.starts 0 0x06 = true
    ∧ past16.running = false ∧ past16.pendingHold = none
    ∧ (((withPast (withCommand live (record 0x06 1 0 0 0 0)) past16).chip.started 0).live.filter (fun y =>
        y.1 != 0 && (y.2.state == .waiting || y.2.state == .ready) && !namesNone y.2.opcode && y.2.pasture == 1)) = [] := by decide

def sShift (x : Past) : State := withPast (withCommand (dieUp live) (record 0x05 1 0 0 0 0)) x

theorem wit_shift : (sShift past16).chip.starts 0 0x05 = true ∧ past16.flags.getLsbD flSHIFTABLE = true ∧ past16.between = true
    ∧ (((sShift past16).chip.started 0).shiftPast 1 0).2 = (stOK, 1)
    ∧ (sShift { past16 with phase := .spike }).chip.starts 0 0x05 = true
    ∧ ({ past16 with phase := .spike } : Past).between = false := by decide +kernel

def sRun : State := withPast (withCommand (dieUp live) (record 0x10 1 1000000 0 0 0)) past16
theorem wit_run : sRun.chip.starts 0 0x10 = true ∧ (sRun.chip.past 1).presence = .resident ∧ (sRun.chip.past 1).restoreFailed = false
    ∧ (sRun.chip.past 1).run = none ∧ (sRun.chip.entry 0).bytes 32 4 = 1000000 := by decide

def ladder1 : Ladder := { Ladder.init with valid := true, root := true, pasture := 1 }
def sLadder : State := withPast (withCommand { (dieUp live) with chip := { (dieUp live).chip with ladders := [(3, ladder1)] } }
  (record 0x30 1 0 0 0 0)) { past16 with kind := 1 }
theorem wit_ladder : sLadder.chip.starts 0 0x30 = true ∧ sLadder.chip.ladderOf 1 = some (3, ladder1) ∧ ladder1.root = true
    ∧ (sLadder.chip.past 1).presence = .resident ∧ (sLadder.chip.past 1).kind = 1 ∧ (sLadder.chip.past 1).restoreFailed = false
    ∧ (sLadder.chip.past 1).run = none ∧ (sLadder.chip.entry 0).bytes 48 4 ≤ 1000000 := by decide

/-- INJECT of one AXON word to image tile 252, from address 64. -/
def aRun : RunRec := { entry := none, ladder := false, period := 0, rounds := 0, advanced := 0, saturated := false, degraded := false }
def axonWord : Nat := { (Hdr.of 0) with kind := kAXON, x := 12, y := 15 }.word
def sInject (x : Past) : State :=
  let s := withPast (withCommand (dieUp live) (record 0x11 1 64 1 0 0)) x
  { s with chip := { s.chip with host := memWriteN [] 64 (natLe 8 axonWord) } }
theorem wit_inject : (sInject past16).chip.starts 0 0x11 = true ∧ ((sInject past16).chip.entry 0).bytes 32 8 = 64
    ∧ ((sInject past16).chip.entry 0).bytes 40 2 = 1 ∧ past16.held = false ∧ ((sInject past16).chip.started 0).hostStatus = none
    ∧ (fields 8 1 (memReadN (sInject past16).chip.host 64 8)).all (injectOk past16) = true ∧ past16.running = false
    ∧ (sInject { past16 with run := some aRun }).chip.starts 0 0x11 = true ∧ ({ past16 with run := some aRun } : Past).running = true
    ∧ (fields 8 1 (memReadN (sInject past16).chip.host 64 8)).all (injectOk { past16 with run := some aRun }) = true := by decide

def sPass : State := withPast (withCommand (dieUp live) (record 0x20 1 (BitVec.ofNat 64 (2 ^ 31 + 252)) 0 0 0)) past16
theorem wit_pass : sPass.chip.starts 0 0x20 = true ∧ (sPass.chip.entry 0).pasture = 1
    ∧ (sPass.chip.entry 0).targets = [(0, 0, 252)] ∧ (sPass.chip.past 1).imageTile 0 0 252 = some tile16 ∧ tileKind 252 = .tensor
    ∧ ((sPass.chip.past 1).img.tilesOf 0 0).any (fun u => u.tile == 252 && u.core) = true
    ∧ bit ((sPass.chip.entry 0).bytes 52 4) 31 = false := by decide

/-- COPY of 8 bytes from offset 0 of the bank of image tile 252 to address 64. -/
def sCopy : State := withPast (withCommand (dieUp live)
  (record 0x40 1 (BitVec.ofNat 64 (252 * 2 ^ 25)) 64 (BitVec.ofNat 64 (8 + 2 ^ 32)) 0)) past16
theorem wit_copy : sCopy.chip.starts 0 0x40 = true ∧ sCopy.chip.plain 0 = true ∧ (sCopy.chip.past 1).presence = .resident
    ∧ (sCopy.chip.started 0).copyOk (sCopy.chip.past 1) (sCopy.chip.entry 0) = true
    ∧ bits ((sCopy.chip.entry 0).bytes 52 1) 1 0 = 1 ∧ bits ((sCopy.chip.entry 0).bytes 52 1) 3 2 = 0
    ∧ bits ((sCopy.chip.entry 0).bytes 48 4) 24 0 = 8 ∧ (sCopy.chip.entry 0).done = 0
    ∧ (sCopy.chip.past 1).imageTile (copyTile ((sCopy.chip.entry 0).bytes 32 8)).1 (copyTile ((sCopy.chip.entry 0).bytes 32 8)).2.1
        (copyTile ((sCopy.chip.entry 0).bytes 32 8)).2.2.1 = some tile16
    ∧ (copyTile ((sCopy.chip.entry 0).bytes 32 8)).2.2.2 = 0
    ∧ ((sCopy.chip.started 0).tileRead 16 0 1).2 = ([0], false)
    ∧ sCopy.chip.bankOn 16 = true ∧ ((sCopy.chip.started 0).tileRead 16 0 1).1.hostStatus = none := by decide

/-- Host memory with `b` at address 64. -/
def withHost (s : State) (b : List Byte) : State := { s with chip := { s.chip with host := memWriteN [] 64 b } }

/-- The image of that pasture for LOAD, and its page image (TYPE 1) and checkpoint (TYPE 2). -/
def image0 : List Byte := imageBytes past16 0 0 [tilesSect]
def imageOf (type : Nat) : List Byte := ((dieUp live).chip.putPast 1 past16 |>.captureImage 1 type 0).2.getD []

def sLoad : State := withHost (withCommand (dieUp live) (record 0x41 1 64 (BitVec.ofNat 64 image0.length) 0 0)) image0
theorem wit_load : sLoad.chip.starts 0 0x41 = true ∧ (sLoad.chip.past 1).presence = .free ∧ bit ((sLoad.chip.entry 0).bytes 44 1) 0 = false
    ∧ (sLoad.chip.entry 0).bytes 32 8 = 64 ∧ (sLoad.chip.started 0).hostStatus = none ∧ (sLoad.chip.entry 0).source ≠ .share
    ∧ ((sLoad.chip.started 0).place false 1 (memReadN sLoad.chip.host 64 ((sLoad.chip.entry 0).bytes 40 4))).2 = stOK := by decide +kernel

def sPageOut : State := withPast (withCommand (dieUp live) (record 0x42 1 64 4096 0 0)) past16
theorem wit_pageOut : sPageOut.chip.starts 0 0x42 = true ∧ (sPageOut.chip.entry 0).bytes 32 8 = 64
    ∧ (sPageOut.chip.past 1).presence = .resident ∧ (sPageOut.chip.past 1).running = false
    ∧ ((sPageOut.chip.started 0).captureImage 1 1 0).2.map List.length = some 168 ∧ (sPageOut.chip.entry 0).bytes 40 4 = 4096
    ∧ (sPageOut.chip.started 0).hostStatus = none := by decide +kernel

def sPageIn : State := withPast (withHost (withCommand (dieUp live) (record 0x43 1 64 (BitVec.ofNat 64 (imageOf 1).length) 0 0)) (imageOf 1))
  { past16 with presence := .pagedOut, tiles := [] }
theorem wit_pageIn : sPageIn.chip.starts 0 0x43 = true ∧ (sPageIn.chip.entry 0).bytes 32 8 = 64 ∧ (sPageIn.chip.past 1).presence = .pagedOut
    ∧ (sPageIn.chip.started 0).hostStatus = none
    ∧ ((sPageIn.chip.started 0).pageInFrom 1 (memReadN sPageIn.chip.host 64 ((sPageIn.chip.entry 0).bytes 40 4))).2 = stOK := by decide +kernel

def sRestore : State := withPast (withHost (withCommand (dieUp live) (record 0x45 1 64 (BitVec.ofNat 64 (imageOf 2).length) 0 0)) (imageOf 2)) past16
theorem wit_restore : sRestore.chip.starts 0 0x45 = true ∧ (sRestore.chip.past 1).running = false
    ∧ (sRestore.chip.started 0).hostStatus = none ∧ (sRestore.chip.entry 0).bytes 32 8 = 64
    ∧ ((sRestore.chip.started 0).restoreFrom 1 (memReadN sRestore.chip.host 64 ((sRestore.chip.entry 0).bytes 40 4))).2 = stOK := by decide +kernel

def sCheckpoint (x : Past) : State := withPast (withCommand (dieUp live) (record 0x44 1 64 4096 0 0)) x
theorem wit_checkpoint : (sCheckpoint past16).chip.starts 0 0x44 = true ∧ ((sCheckpoint past16).chip.entry 0).bytes 32 8 = 64
    ∧ ((sCheckpoint past16).chip.entry 0).bytes 44 4 = 0 ∧ past16.between = true
    ∧ (((sCheckpoint past16).chip.started 0).captureTo 1 { addr := 64, len := 4096, slot := none }).2.1 = stOK
    ∧ (sCheckpoint { past16 with phase := .spike }).chip.starts 0 0x44 = true := by decide +kernel

/-- A pasture of a neuron tile whose NV area of 103 pages nothing has saved yet, and one whose area is written. -/
def nvArea (w : Bool) (n : Nat) : AreaRec :=
  { valid := true, first := 0, pages := n, activeB := false, gen := 0, written := w, owner := some 1, lag := [] }
def sNv (op : Nat) (a : AreaRec) : State :=
  let s := withPast (withCommand (dieUp live) (record op 1 0 0 0 0)) past16
  { s with chip := { s.chip with doms := [(16, onDom 16), (domNV, onDom domNV)], nv := { s.chip.nv with areas := [(0, a)] } } }
theorem wit_nvSave : (sNv 0x46 (nvArea false 1)).chip.starts 0 0x46 = true
    ∧ ((sNv 0x46 (nvArea false 1)).chip.started 0).areaOf 1 ≠ none
    ∧ (((sNv 0x46 (nvArea false 1)).chip.started 0).beginSave 1 false (some 0)).2 = stOK := by decide
theorem wit_nvLoad : (sNv 0x47 (nvArea true 0)).chip.starts 0 0x47 = true ∧ past16.running = false
    ∧ (((sNv 0x47 (nvArea true 0)).chip.started 0).nvLoad 1).2 = (stOK, 0, 0) := by decide

/-- A checkpoint whose round log of one round starts 192 bytes behind it. -/
def logged : List Byte :=
  let b := ((dieUp live).chip.putPast 1 past16 |>.captureImage 1 2 192).2.getD []
  b ++ List.replicate (192 - b.length) 0 ++ [0x4C4B4C47, 0, 64, 1, 0, 0].flatMap (natLe 4)
def sReplay : State := withPast (withHost (withCommand (dieUp live) (record 0x12 1 64 0 1 0)) logged) past16
theorem wit_replayCheck : sReplay.chip.starts 0 0x12 = true ∧ (sReplay.chip.entry 0).bytes 32 8 = 64
    ∧ (sReplay.chip.entry 0).bytes 48 4 = 1 ∧ (sReplay.chip.past 1).presence ≠ .free ∧ (sReplay.chip.past 1).spans = false
    ∧ sReplay.chip.ladderOf 1 = none ∧ (sReplay.chip.started 0).hostStatus = none := by decide
def replayImage : List Byte := memReadN sReplay.chip.host 64 (leAt (memReadN sReplay.chip.host 96 4) 0 4)
theorem wit_replayCheck_log : imgOk replayImage replayImage.length 2 = true ∧ (Img.read replayImage).owner = 1
    ∧ ((sReplay.chip.started 0).logAt 64 (Img.read replayImage)).map (fun g => (g.broken, g.logged)) = some (false, 1)
    ∧ ((sReplay.chip.started 0).searchAll (Img.read replayImage) (fun _ => false)).isSome = true := by decide +kernel

/-! ### Queue contexts, records and sync objects -/

def withCtx (s : State) (q : Nat) (x : Ctx) : State := { s with chip := { s.chip with ctxs := [(q, x)] } }
/-- The live state with BAR0 and BAR4 open. -/
def open0 : State := { live with chip := { live.chip with doms := [(domGATE, onDom domGATE)], gate := { live.chip.gate with dlUp := true, config := [(1, 2)] } } }
theorem wit_doorbells : open0.chip.held = false ∧ open0.chip.barOpen = true ∧ open0.chip.domOn domCONTROL = true
    ∧ (1 - (open0.chip.ctx 0).pi).toNat
        ≤ ((open0.chip.ctx 0).ci + BitVec.ofNat 32 (2 ^ (open0.chip.ctx 0).logSq.toNat) - (open0.chip.ctx 0).pi).toNat
    ∧ ((open0.chip.ctx 0).ci + BitVec.ofNat 32 (2 ^ (open0.chip.ctx 0).logSq.toNat) - (open0.chip.ctx 0).pi).toNat
        < ((2 : W32) - (open0.chip.ctx 0).pi).toNat
    ∧ (0 - (open0.chip.ctx 0).cqCi).toNat ≤ ((open0.chip.ctx 0).cqPi - (open0.chip.ctx 0).cqCi).toNat := by decide
/-- A base-die page with one register set. -/
def withReg (s : State) (n off v : Nat) : State := { s with chip := s.chip.updPage n (fun p => p.wr off v) }
theorem wit_remoteDb : (withReg live pgGATE 0x118 0x1007).chip.accepts pgGATE 0x11C .internal = true
    ∧ live.chip.domOn domCONTROL = true ∧ bit (((withReg live pgGATE 0x118 0x1007).chip.page pgGATE).rd 0x118) 12 = true := by decide

def ctx6 (st : CtxState) : State := withCtx live 0 { Ctx.init with state := st, logSq := 6, logCq := 16 }
theorem wit_context : (ctx6 .disabled).chip.accepts pgSHEP 0x108 .internal = true ∧ ((ctx6 .disabled).chip.ctxSel ≠ 4095 ∨ Origin.internal = .internal)
    ∧ ((ctx6 .disabled).chip.ctx (ctx6 .disabled).chip.ctxSel).state = .disabled
    ∧ ((ctx6 .disabled).chip.ctx (ctx6 .disabled).chip.ctxSel).logSq = 6 ∧ ((ctx6 .disabled).chip.ctx (ctx6 .disabled).chip.ctxSel).logCq = 16
    ∧ (ctx6 .active).chip.accepts pgSHEP 0x108 .internal = true ∧ ((ctx6 .active).chip.ctx (ctx6 .active).chip.ctxSel).state = .active
    ∧ (ctx6 .error).chip.accepts pgSHEP 0x108 .internal = true ∧ ((ctx6 .error).chip.ctx (ctx6 .error).chip.ctxSel).state = .error
    ∧ (ctx6 .error).chip.onBoard (ctx6 .error).chip.ctxSel = 0 ∧ ((ctx6 .stopped).chip.ctx (ctx6 .stopped).chip.ctxSel).state = .stopped
    ∧ (ctx6 .stopped).chip.accepts pgSHEP 0x108 .internal = true ∧ (ctx6 .stopped).chip.onBoard (ctx6 .stopped).chip.ctxSel = 0 := by decide

/-- Context 0 active with one record in its ring. -/
def sFetch : State := withCtx (dieUp live) 0 { Ctx.init with state := .active, logSq := 6, logCq := 6, pi := 1 }
theorem wit_fetch : sFetch.chip.held = false ∧ sFetch.chip.noteEligible.dmaOk = true
    ∧ (chooseCtx (sFetch.chip.noteEligible.ctxs.filter (fun y => sFetch.chip.noteEligible.eligible y.1))).map (fun y => y.1) = some 0
    ∧ sFetch.chip.noteEligible.freeSlot = some 0
    ∧ subMod 65536 (sFetch.chip.noteEligible.headEntry 0).seq (sFetch.chip.noteEligible.ctx 0).seqNext.toNat = 0 := by decide +kernel

def sDone : State :=
  let s := withCtx (dieUp live) 0 { Ctx.init with state := .active, logSq := 6, logCq := 6, counted := 1, modDelay := 3, irqEn := true }
  { s with chip := { s.chip with sb := [(0, { readyEntry (record 0 1 0 0 0 0) with state := .completing })] } }
theorem wit_completion : sDone.chip.held = false ∧ (sDone.chip.entry 0).source = .ctx 0 ∧ (sDone.chip.entry 0).state = .completing
    ∧ sDone.chip.firstDone 0 = true ∧ sDone.chip.discards 0 = false ∧ sDone.chip.gate.d3hot = false ∧ (sDone.chip.ctx 0).cqRoom = true := by decide
theorem wit_modDelay : (sDone.chip.ctx 0).counted ≠ 0 ∧ (sDone.chip.ctx 0).modDelay ≠ 0 ∧ (sDone.chip.ctx 0).irqEn = true := by decide

/-- A control message header to base page `n` by `o`. -/
def toPage (n kind o payload : Nat) : W64 := BitVec.ofNat 64 { (Hdr.of 0) with kind := kind, qclass := (kindClass kind).getD 0, origin := o, tag := baseTag n, payload := payload }.word
theorem wit_commandShare : live.chip.reaches (toPage pgSHEP kCOMMAND 0 0).toNat pgSHEP = true ∧ (Hdr.of (toPage pgSHEP kCOMMAND 0 0).toNat).origin = 0
    ∧ live.chip.freeSlot = some 0 ∧ (List.replicate 8 (0 : W64)).length = 8 := by decide +kernel

/-- An ADD or SET of object 5 by class HOST from outside. -/
def syncBy (o : Origin) (tile : Option (DieId × TileId)) : SyncOp := { object := 5, operand := 1, origin := o, tile := tile, sender := none }
def sObj (t : Nat) : State := { live with chip := live.chip.putObj 5 (objInit t 1 none) }
theorem wit_sync : (sObj 1).chip.held = false ∧ (sObj 1).chip.pkg < 256 ∧ ((sObj 1).chip.obj 5).owned = false
    ∧ ((sObj 1).chip.obj 5).poisoned = false ∧ (((sObj 1).chip.obj 5).apply 0 (sext 16 1)).isSome = true
    ∧ (((sObj 2).chip.obj 5).apply 1 (sext 16 1)).isSome = true ∧ ((sObj 0).chip.obj 5).apply 0 (sext 16 1) = none
    ∧ ((sObj 0).chip.obj 5).owned = false ∧ ((sObj 0).chip.obj 5).poisoned = false := by decide
theorem wit_localSync : (dieUp live).chip.routerServes 16 = true ∧ (dieUp live).chip.coreServes 16 = true ∧ tileKind 16 ≠ .port
    ∧ (syncBy .test (some (0, 16))).object.toNat < 16 := by decide
theorem wit_objects : live.chip.accepts pgMUSTER 0x104 .internal = true
    ∧ ({ used := 0, queue := [7] } : Pool).queue = 7 :: [] ∧ (0 : Nat) < poolSize 2 := by decide
theorem wit_barrier : (objInit 2 3 none).type = 2 ∧ (objInit 2 3 none).expected ≠ 0 ∧ (1 : Int) ≤ 3
    ∧ (objInit 1 3 none).type = 1 ∧ (objInit 0 0 none).type = 0 ∧ (objInit 3 0 none).type = 3 := by decide

/-! ### Orders, the mesh, data and control -/

/-- A message header to tile 16 of die 0, a tensor tile, or to tile 1, a neuron tile. -/
def toTile (x y kind o payload : Nat) : W64 :=
  BitVec.ofNat 64 { (Hdr.of 0) with kind := kind, x := x, y := y, qclass := (kindClass kind).getD 0, origin := o, payload := payload }.word
/-- The words of a tile order of opcode `top` and argument `arg`. -/
def order (top arg : Nat) : List W64 := BitVec.ofNat 64 (top + arg * 2 ^ 16) :: List.replicate 7 0
theorem wit_order : (upto 5).all (fun top => (dieUp live).chip.orderServed 16 (toTile 0 1 kCOMMAND 0 0) (order top 0)
      && ordTop (order top 0) == top && !((dieUp live).chip.orderTaken 16 (toTile 0 1 kCOMMAND 0 0) (order top 0)).liveTile 16)
    ∧ ((dieUp live).chip.orderTaken 16 (toTile 0 1 kCOMMAND 0 0) (order 1 0)).denseBarred 16 = false := by decide +kernel
theorem wit_order_live : (withPast (dieUp live) past16).chip.orderServed 16 (toTile 0 1 kCOMMAND 4 0) (order 2 0) = true
    ∧ ((withPast (dieUp live) past16).chip.orderTaken 16 (toTile 0 1 kCOMMAND 4 0) (order 2 0)).liveTile 16 = true := by decide
theorem wit_ended : (255 : Nat) < 256 := by decide

/-- The die with pasture 1 on the neuron tile 1. -/
def nTile : PTile := { tile0 with imgTile := 1, tile := 1, foldKiB := 0 }
def dieN : State :=
  let s := withPast (dieUp live) { past16 with kind := 0, tiles := [nTile] }
  { s with chip := { s.chip with doms := [(1, onDom 1)], coreDoms := [(1, .on)], routerDoms := [(1, .on)] } }
theorem wit_axon : dieN.chip.held = false ∧ dieN.chip.routerServes 1 = true
    ∧ deliverClass (dieN.chip.wakeTile 1).mesh.env 1 1 (Hdr.of (toTile 1 0 kAXON 0 0).toNat) = none
    ∧ (Hdr.of (toTile 1 0 kAXON 0 0).toNat).kind = kAXON
    ∧ deliverClass (dieN.chip.wakeTile 1).mesh.env 1 1 (Hdr.of (toTile 1 0 kTALLY 0 0).toNat) = none
    ∧ (Hdr.of (toTile 1 0 kTALLY 0 0).toNat).kind = kTALLY
    ∧ deliverClass (dieN.chip.wakeTile 1).mesh.env 1 0 (Hdr.of (toTile 1 0 kAXON 0 0).toNat) = some .fenced := by decide

/-- A router whose slot 0 carries input N to output E by the drove entry at 0, with a close at the head of the input. -/
def closing : State :=
  { live with chip := live.chip.updTile 1 (fun t => { t with rt := { t.rt with
      drove := [(0, mkFlit 0)], inputs := listSet t.rt.inputs 0 [.close]
      slots := listSet t.rt.slots 0 { Slot.empty with valid := true, running := true, pasture := 1, bindOut := 2, bindIn := 1, closeMask := [2, 0, 0, 0, 0, 0] }
      outs := listSet t.rt.outs 1 { OutPos.idle with slot := some 0 } } }) }
theorem wit_join : (closing.chip.mesh.join 1 0).isSome = true := by decide +kernel

theorem wit_bankWrite : bankShape (2 ^ 48) 1 = true ∧ hdrShape (Hdr.of (toTile 0 1 kDATA 0 0).toNat) = true
    ∧ (Hdr.of (toTile 0 1 kDATA 0 0).toNat).kind = kDATA ∧ (Hdr.of (toTile 0 1 kDATA 0 0).toNat).origin = 0
    ∧ (Hdr.of (toTile 0 1 kDATA 0 0).toNat).tag < 2048 ∧ (Hdr.of (toTile 0 1 kDATA 0 0).toNat).pkg = (dieUp live).chip.pkg
    ∧ tileKey (Hdr.of (toTile 0 1 kDATA 0 0).toNat).die (tileOf (Hdr.of (toTile 0 1 kDATA 0 0).toNat).x (Hdr.of (toTile 0 1 kDATA 0 0).toNat).y) = 16
    ∧ tileKind 16 ≠ .port ∧ inBank 0x0FFFF8 8 (tileWords 16) = true ∧ bankShape (2 ^ 48 + 0x0FFFF8) 1 = true
    ∧ (dieUp live).chip.routerServes 16 = true ∧ (dieUp live).chip.coreServes 16 = true ∧ (dieUp live).chip.bankOn 16 = true
    ∧ (dieUp live).chip.mayReach none 16 = true
    ∧ ({ (dieUp live).chip with doms := [] } : Chip).bankOn 16 = false := by decide
def comOn : State := { live with chip := { live.chip with doms := [(domCOMMONS, onDom domCOMMONS)] } }
theorem wit_commonsWrite : (Hdr.of (toPage pgCOMMONS kDATA 0 0).toNat).tag = 2048 + pgCOMMONS ∧ hdrShape (Hdr.of (toPage pgCOMMONS kDATA 0 0).toNat) = true
    ∧ comOn.chip.baseNames (Hdr.of (toPage pgCOMMONS kDATA 0 0).toNat) = true ∧ inBank 0xFFFFF8 8 2097152 = true
    ∧ comOn.chip.domOn domCOMMONS = true := by decide
theorem wit_readReq : readShape (Hdr.of (toTile 0 1 kREADREQ 0 0).toNat) (2 ^ 55) = true ∧ bit (2 ^ 55) 27 = false ∧ inBank 0 8 (tileWords 16) = true
    ∧ ((dieUp live).chip.die 0).state ≠ .dead ∧ ((dieUp live).chip.tile 16).bank.fenced = false
    ∧ ((dieUp live).chip.wakeTile 16 |>.tileRead 16 0 1).2 = ([0], false)
    ∧ (Hdr.of (toTile 0 1 kREADREQ 0 0).toNat).origin = 0 ∧ (Hdr.of (toTile 0 1 kREADREQ 0 0).toNat).tag < 2048 := by decide
/-- An answer of one register word to the request 5 of page SHEP. -/
def respWord : W64 := BitVec.ofNat 64 (5 * 2 ^ 52 + 2 ^ 39)
def sReads : State := { live with chip := { live.chip with reads := [{ rtag := 5, issuer := pgSHEP, count := 1, pkg := 0 }] } }
theorem wit_readResp : Sys2Proof.Machine.respShape (Hdr.of (toPage pgSHEP kREADRESP 0 0).toNat) respWord.toNat (nats [7]) = true
    ∧ (Instr.readResp (toPage pgSHEP kREADRESP 0 0) [respWord, 7]).wf = true ∧ (Hdr.of (toPage pgSHEP kREADRESP 0 0).toNat).tag = 2048 + pgSHEP
    ∧ sReads.chip.baseNames (Hdr.of (toPage pgSHEP kREADRESP 0 0).toNat) = true
    ∧ (sReads.chip.reads.find? (fun r => r.issuer == pgSHEP && r.rtag == bits respWord.toNat 63 52)).isSome = true
    ∧ live.chip.reads.find? (fun r => r.issuer == pgSHEP && r.rtag == bits respWord.toNat 63 52) = none := by decide

/-- The debug lock open for registers and banks. -/
def unlocked (s : State) : State := { s with chip := { s.chip with dbgLock := { s.chip.dbgLock with isOpen := true, scope := 3 } } }
theorem wit_ports : open0.chip.barOpen = true ∧ barShape 0x100 1 = true ∧ barShape 0x108 2 = true ∧ barShape 0x104 2 = false ∧ barShape 0 64 = false
    ∧ ((unlocked live).chip.dbgLock.isOpen && (unlocked live).chip.dbgLock.scope.getLsbD 0) = true
    ∧ (live.chip.dbgLock.isOpen && live.chip.dbgLock.scope.getLsbD 0) = false
    ∧ (open0.chip.readRun 2 0x100 1).2.2 = none ∧ ((unlocked live).chip.readRun 4 0x100 1).2.2 = none := by decide
theorem wit_regWrite : baseCode pgSHEP ≠ 0 ∧ baseCode pgSHEP ≠ codeIDENT ∧ live.chip.accepts pgSHEP 0x108 .internal = true
    ∧ ((regsOf (baseCode pgSHEP)).find? (fun x => x.off == 0x108 && x.acc != .ro)).isSome = true
    ∧ live.chip.opens pgTHERM .host = true
    ∧ ((regsOf (baseCode pgTHERM)).find? (fun x => x.off == 0x170 && x.acc != .ro)).map (fun r => r.cls.permits 2) = some false
    ∧ live.chip.opens pgLINK .operator = true
    ∧ ((regsOf (baseCode pgLINK)).find? (fun x => x.off == 0x180 && x.acc != .ro)).map (fun r => (r.acc, r.cls.permits 3)) = some (.rwl, true)
    ∧ ((live.chip.updPage pgLINK (fun p => { p with lock := true })).page pgLINK).lock = true := by decide
def mwin (q opt : Nat) : State := withReg (withReg open0 pgGATE 0x104 q) pgAUTH 0x104 opt
theorem wit_window : (mwin 0 0).chip.barOpen = true ∧ bit (((mwin 0 0).chip.page pgAUTH).rd 0x104) 2 = false
    ∧ bit (((mwin 0 4).chip.page pgAUTH).rd 0x104) 2 = true ∧ ((mwin 0 4).chip.page pgGATE).rd 0x104 % 256 = (mwin 0 4).chip.pkg := by decide +kernel
/-- Package 0 of a machine of two packages along x, with a path to package 1. -/
def twoPkg (s : State) : State :=
  { (withReg s pgLINK 0x180 0x112) with chip := { (withReg s pgLINK 0x180 0x112).chip with
      lsmap := [(0, 3), (1, 3)] } }
theorem wit_window_far : ((twoPkg (mwin 1 4)).chip.page pgGATE).rd 0x104 % 256 = 1 ∧ 1 ≠ (twoPkg (mwin 1 4)).chip.pkg
    ∧ 1 < (twoPkg (mwin 1 4)).chip.machineSize ∧ (twoPkg (mwin 1 4)).chip.hasPath 1 = true := by decide
theorem wit_aperture : (unlocked open0).chip.barOpen = true ∧ (unlocked open0).chip.dbgLock.scope.getLsbD 1 = true ∧ (0x2000000 : Nat) % 4 = 0
    ∧ ((unlocked open0).chip.apertureAt 0x2000000).2 % 8 = 0 := by decide
def sConfig (r : Bool) : State := { open0 with chip := { open0.chip with gate := { open0.chip.gate with ready := r } } }
theorem wit_config : (sConfig false).chip.domOn domGATE = true ∧ (sConfig false).chip.gate.dlUp = true ∧ (sConfig false).chip.gate.ready = false
    ∧ (sConfig true).chip.gate.ready = true ∧ (sConfig true).chip.cfgSpace.all (fun r => decide (r.off ≠ 0x0FC)) = true := by decide

/-! ### Control messages, rounds and their events -/

theorem wit_completionMsg : (dieUp live).chip.reaches (toPage pgSHEP kCOMPLETION 0 0).toNat pgSHEP = true
    ∧ (Hdr.of (toPage pgSHEP kCOMPLETION 0 0).toNat).origin = 0 ∧ (Hdr.of (toPage pgSHEP kCOMPLETION 0 0).toNat).payload = 0
    ∧ (Hdr.of (toPage pgSHEP kCOMPLETION 0 4095).toNat).payload = 4095
    ∧ ({ (dieUp live).chip with doms := [(domGATE, onDom domGATE)] } : Chip).domOn domCONTROL = true ∧ (dieUp live).chip.discards 0 = false
    ∧ ((dieUp live).chip.ctx 0).cqRoom = true ∧ (Ctx.cqRoom { Ctx.init with logCq := 6, cqPi := 64 }) = false := by decide
theorem wit_trace : live.chip.reaches (toPage pgHEALTH kTRACE 0 0).toNat pgHEALTH = true ∧ (Hdr.of (toPage pgHEALTH kTRACE 0 0).toNat).origin = 0
    ∧ live.chip.domOn domCONTROL = true ∧ bit ((live.chip.page pgHEALTH).rd 0x168) 31 = false := by decide
theorem wit_digest : ((withPast live past16).chip.past 1).presence ≠ .free ∧ ((withPast live past16).chip.past 1).imgPkg = 0
    ∧ (withPast live past16).chip.isRoot past16 = true ∧ past16.digestRound = 0 ∧ (1 : W32).toNat % 1024 = 1 ∧ Origin.host ≠ .internal := by decide

def rep (en : Int) : Replica := { energy := en, rung := 0, report := 0, reported := 0, cores := [16] }
def sExch (en : Int) : State :=
  { (withPast live past16) with chip := { (withPast live past16).chip with ladders := [(0, { ladder1 with replicas := [rep en] })] } }
/-- An energy difference of -1 for replica 0 of ladder 0 on rung 0. -/
def exchWord : W64 := BitVec.ofNat 64 ((2 ^ 32 - 1) * 2 ^ 32)
theorem wit_exchange : (sExch (1 - 2 ^ 47)).chip.reaches (toPage pgMUSTER kEXCHANGE 0 0).toNat pgMUSTER = true ∧ bits exchWord.toNat 9 0 = 0
    ∧ bits exchWord.toNat 31 18 = 0 ∧ bits exchWord.toNat 17 10 = 0 ∧ ((sExch (1 - 2 ^ 47)).chip.ladder 0).valid = true
    ∧ (Hdr.of (toPage pgMUSTER kEXCHANGE 0 0).toNat).payload = 0 ∧ (sExch (1 - 2 ^ 47)).chip.domOn domCONTROL = true
    ∧ -(2 ^ 47) ≤ (1 - 2 ^ 47 : Int) + sext 32 (exchWord.toNat / 2 ^ 32) ∧ (1 - 2 ^ 47 : Int) + sext 32 (exchWord.toNat / 2 ^ 32) ≤ 2 ^ 47 - 1
    ∧ (Hdr.of (toPage pgMUSTER kEXCHANGE 0 0).toNat).stamp = ((sExch 0).chip.past 1).round.toNat % 256
    ∧ (Hdr.of (toPage pgMUSTER kEXCHANGE 0 0).toNat).stamp ≠ ({ past16 with round := 1 } : Past).round.toNat % 256 := by decide

/-- Pasture 1 with port tile 34 of die 0, whose egress entry 0 sends to host ring 0. -/
def portPast : Past := { past16 with tiles := [{ tile16 with imgTile := 34, tile := 34, core := false }] }
def sEgress (o : Option PastureId) : State :=
  { (withPast live portPast) with chip := (withPast live portPast).chip.updTile 34 (fun t => { t with egress := [(0, { owner := o, word0 := 0, word1 := 1 })] }) }
theorem wit_egress : (((sEgress (some 1)).chip.past 1).tileAt 34).isSome = true
    ∧ (mapGet egressDefault ((sEgress (some 1)).chip.tile 34).egress 0).owner = some (1 : PastureId)
    ∧ bits (mapGet egressDefault ((sEgress (some 1)).chip.tile 34).egress 0).word1.toNat 1 0 = 1
    ∧ (mapGet egressDefault ((sEgress none).chip.tile 34).egress 0).owner ≠ some (1 : PastureId) := by decide

/-- A package whose configuration is ready and whose TIME is valid, with pasture 1. -/
def rounds (x : Past) : State :=
  let s := withPast (dieUp live) x
  { s with chip := { s.chip with rtc := { s.chip.rtc with valid := true } } }
def paced (a : Nat) : Past := { past16 with run := some aRun, paced := true, anchored := true, anchor := a, period := 10 }
theorem wit_pacer : (rounds (paced 0)).chip.roundsAllowed = true ∧ (paced 0).resident = true ∧ (paced 0).running = true ∧ (paced 0).inRound = false
    ∧ (paced 0).tickDue = false ∧ (paced 0).spans = false ∧ (paced 0).tickTime ≤ (rounds (paced 0)).chip.now ∧ (rounds (paced 0)).chip.skipOk 1 = false
    ∧ (rounds (paced 1)).chip.now < (paced 1).tickTime := by decide
def duePast : Past := { past16 with run := some aRun, tickDue := true }
def chainOf (e : Option EntryId) (r : Option W32) : Chain := { desc := 0, waiting := true, entry := e, round := r, status := 0 }
def withChain (s : State) (ch : Chain) : State := { s with chip := s.chip.updTile 16 (fun t => { t with tc := { chain := some ch } }) }
def stepping (s : State) : State := { s with chip := s.chip.updDie 0 (fun d => { d with step := some 900 }) }
theorem wit_roundStart : (rounds duePast).chip.maystart 1 = true ∧ (rounds duePast).chip.passRuns duePast = false ∧ (rounds duePast).chip.gapWork 1 = false
    ∧ (withChain (rounds duePast) (chainOf (some 0) none)).chip.maystart 1 = true
    ∧ (withChain (rounds duePast) (chainOf (some 0) none)).chip.passRuns duePast = true := by decide
theorem wit_roundStart_gap : (stepping (rounds duePast)).chip.maystart 1 = true ∧ (stepping (rounds duePast)).chip.passRuns duePast = false
    ∧ (stepping (rounds duePast)).chip.gapWork 1 = true ∧ duePast.gapWaited = false := by decide

/-- Pasture 1 in a round, its tile 16 in phase `f`. -/
def inPhase (f : Phase) : Past := { past16 with run := some aRun, phase := f, tiles := [{ tile16 with phase := f }] }
/-- Tile 16 with an output of the pasture's slot at its lap mark, or past it with its vote given. -/
def lapping (s : State) (atLap : Bool) : State :=
  { s with chip := s.chip.updTile 16 (fun t => { t with rt := { t.rt with
      slots := listSet t.rt.slots 0 { Slot.empty with valid := true, running := true, pasture := 1, lists := listSet Slot.empty.lists 1 { base := 0, len := 1 } }
      outs := listSet t.rt.outs 1 { OutPos.idle with slot := some 0, atLap := atLap, done := !atLap } } }) }
theorem wit_spike : (rounds (inPhase .inject)).chip.runsOn 1 = true ∧ (rounds (inPhase .inject)).chip.phaseAt 1 16 = .inject := by decide
theorem wit_lapStart : ((lapping (rounds (inPhase .spike)) true).chip.past 1).tileAt 16 = some { tile16 with phase := .spike }
    ∧ (lapping (rounds (inPhase .spike)) true).chip.runsOn 1 = true
    ∧ ((lapping (rounds (inPhase .spike)) true).chip.mesh.startLap 16 0 true).2 = true := by decide
def voting (f : Nat) : State :=
  let s := lapping (rounds (inPhase .spike)) false
  { s with chip := s.chip.updTile 16 (fun t => { t with q := { t.q with foldCount := f } }) }
theorem wit_lapVote : (inPhase .spike).spans = false ∧ (voting 0).chip.voteDecided 1 = true ∧ (voting 1).chip.voteDecided 1 = true
    ∧ (inPhase .spike).tiles.any (fun t => tilePending ((voting 1).chip.tile t.key) t.core 1) = true
    ∧ (inPhase .spike).tiles.any (fun t => tilePending ((voting 0).chip.tile t.key) t.core 1) = false
    ∧ (inPhase .spike).span.votes.any (fun v => v.2) = false
    ∧ (∀ t ∈ (inPhase .spike).cores, ((voting 0).chip.tile t.key).q.axon = []) := by decide

def nPast (f : Phase) : Past := { past16 with kind := 0, run := some aRun, phase := f, tiles := [{ nTile with phase := f }] }
theorem wit_phases : (nPast .integrate).tileAt 1 = some { nTile with phase := .integrate } ∧ (rounds (nPast .integrate)).chip.runsOn 1 = true
    ∧ nTile.core = true ∧ tileKind nTile.tile.val = .neuron ∧ nTile.integrated = false
    ∧ (nPast .learn).tileAt 1 = some { nTile with phase := .learn } ∧ (rounds (nPast .learn)).chip.runsOn 1 = true
    ∧ (nPast .muster).tileAt 1 = some { nTile with phase := .muster } ∧ (rounds (nPast .muster)).chip.runsOn 1 = true
    ∧ ((rounds (nPast .muster)).chip.tile 1).nc.recount = false := by decide

/-- Pasture 1 once its tile has arrived at the muster. -/
def arrived : Past := { inPhase .muster with tiles := [tile16] }
theorem wit_muster : arrived.spans = false ∧ (rounds arrived).chip.allArrived 1 = true ∧ (rounds (inPhase .spike)).chip.allArrived 1 = false
    ∧ (let a := ((((rounds arrived).chip.ringVectors 1).updPast 1 Past.keepInputs).digestRound 1).closeRound 1
       let b := ((((a.ladderMuster 1 0).ladderStop 1 0).latchTemps ((a.ladderMuster 1 0).past 1)).captures 1).shifts 1
       let d := b.countReached 1
       (d.past 1).nextRun = none ∧ (d.past 1).abortRun = false) := by decide

/-! ### Holds, ladders, waits and searches -/

def heldPast (t : Nat) : Past := { past16 with hold := some { duration := 5, stopStreams := true, endsAt := some t } }
theorem wit_hold_expiry : ((rounds (heldPast 0)).chip.past 1).hold = some { duration := 5, stopStreams := true, endsAt := some 0 }
    ∧ 0 ≤ (rounds (heldPast 0)).chip.now ∧ (rounds (heldPast 1)).chip.now < 1 := by decide
def late (s : State) : State := { s with chip := { s.chip with now := 10000 } }
theorem wit_stall : (late (rounds (inPhase .spike))).chip.runsOn 1 = true
    ∧ (inPhase .spike).progressAt + (inPhase .spike).stallMicros ≤ (late (rounds (inPhase .spike))).chip.now
    ∧ (rounds (inPhase .spike)).chip.runsOn 1 = true ∧ (rounds (inPhase .spike)).chip.now < (inPhase .spike).progressAt + (inPhase .spike).stallMicros := by decide

/-- A free ladder, not local, of two replicas, reported once or not at all. -/
def freeLadder (n stop : Nat) : Ladder :=
  { ladder1 with freeMode := true, running := true, colours := 2, exchSweeps := 1, replicas := [{ rep 0 with report := BitVec.ofNat 32 n, cores := [] }, { rep 0 with report := 1, rung := 1 }]
                 rungs := [{ temp := 1, replica := 0, tried := 0, swapped := 0 }, { temp := 2, replica := 1, tried := 0, swapped := 0 }]
                 roundLimit := BitVec.ofNat 32 stop }
def sFree (n stop : Nat) : State :=
  { (rounds past16) with chip := { (rounds past16).chip with ladders := [(0, freeLadder n stop)] } }
theorem wit_freeLadder : ((sFree 1 0).chip.ladder 0).valid = true ∧ (freeLadder 1 0).running = true ∧ (freeLadder 1 0).stopping = none
    ∧ (freeLadder 1 0).root = true ∧ (freeLadder 1 0).freeMode = true ∧ (freeLadder 1 0).local = false
    ∧ (∀ r ∈ (freeLadder 1 0).replicas, (freeLadder 1 0).exchIndex.toNat < r.report.toNat)
    ∧ (((sFree 1 0).chip.exchange 0).ladder 0).stopReason = none
    ∧ (((sFree 1 1).chip.exchange 0).ladder 0).stopReason = some 1 ∧ (((sFree 1 1).chip.exchange 0).past 1).between = true
    ∧ (∃ r ∈ (freeLadder 0 0).replicas, r.report.toNat ≤ (freeLadder 0 0).exchIndex.toNat) := by decide

def chained (w : Nat) (ch : Chain) : State :=
  let s := rounds past16
  let u := (Work.write { t := s.chip.tile 16 } (offDesc / 8 + 1) (w * 2 ^ 16)).t
  { s with chip := s.chip.putTile 16 { u with tc := { chain := some ch } } }
theorem wit_chainWait : Work.waitWindow { t := (chained 0 (chainOf (some 0) none)).chip.tile 16 } (chainOf (some 0) none) = (0, 0)
    ∧ Work.waitWindow { t := (chained 1 (chainOf (some 0) none)).chip.tile 16 } (chainOf (some 0) none) = (0, 1)
    ∧ ((chained 1 (chainOf (some 0) none)).chip.tile 16).pCore.rd 0x118 < 1 ∧ (chainOf (some 0) none).round = none
    ∧ (chainOf (some 0) none).entry = some 0 ∧ (chainOf none (some 3)).round ≠ none := by decide +kernel
def sRetry (op : Nat) : State :=
  { live with chip := { live.chip with sb := [(0, { readyEntry (record op 1 0 0 0 0) with state := .running, parts := 1 })] } }
theorem wit_retry : ((sRetry 0x41).chip.entry 0).state = .running ∧ ((sRetry 0x41).chip.entry 0).parts = 1 ∧ ((sRetry 0x41).chip.entry 0).opcode = 0x41
    ∧ ((sRetry 0x43).chip.entry 0).state = .running ∧ ((sRetry 0x43).chip.entry 0).opcode = 0x43 := by decide

/-! ### Register actions and power -/

theorem wit_tilePage : (dieUp live).chip.tileOpens 16 .host = true ∧ (((dieUp live).chip.routerAwake 16).tile 16).pQdbg.code = codeQDBG
    ∧ ((dieUp live).chip.routerAwake 16).shownPast 16 = none := by decide
theorem wit_time : live.chip.opens pgRTC .host = true := by decide
theorem wit_countClear : live.chip.accepts pgMUSTER 0x17C .internal = true
    ∧ ((regsOf (baseCode pgMUSTER)).find? (fun x => x.off == 0x17C && x.acc != .ro)).isSome = true
    ∧ baseCode pgMUSTER ≠ codeIDENT ∧ isCountClear (baseCode pgMUSTER) 0x17C = true ∧ (0x17C : Nat) % 4 = 0
    ∧ (countClearBase (baseCode pgMUSTER) 0x17C).isSome = true := by decide
theorem wit_header : baseCode pgLINK ≠ 0 ∧ baseCode pgLINK ≠ codeIDENT ∧ (∀ d ∈ live.chip.disagree, d = none)
    ∧ live.chip.opens pgLINK .operator = true ∧ live.chip.opens pgLINK .test = true ∧ live.chip.opens pgLINK .host = true := by decide

def reqOf (t : DomState) : DomReq := { target := t, asker := .register, origin := .internal }
def sDom (n : Nat) (d : DomRec) : State :=
  let s := withReg live pgPOWER 0x100 n
  { s with chip := { s.chip with doms := [(n, d)] } }
theorem wit_domReq : (sDom domCOMMONS (domDefault domCOMMONS)).chip.accepts pgPOWER 0x108 .internal = true
    ∧ ((sDom domCOMMONS (domDefault domCOMMONS)).chip.page pgPOWER).rd 0x100 % 1024 = domCOMMONS ∧ domKind domCOMMONS ≠ .nothing
    ∧ domOf 0 = some .on ∧ domOf 2 = some .off ∧ (originOf (originNum .internal)).getD .internal = .internal
    ∧ (sDom domCOMMONS { domDefault domCOMMONS with draining := true }).chip.accepts pgPOWER 0x108 .internal = true
    ∧ (domDefault domCOMMONS).state = .off ∧ (domDefault domCOMMONS).current = none ∧ (domDefault domCOMMONS).draining = false
    ∧ (domDefault domCOMMONS).waking = false ∧ (sDom domCOMMONS (domDefault domCOMMONS)).chip.refusals domCOMMONS .on (reqOf .on) = []
    ∧ (sDom domCOMMONS (onDom domCOMMONS)).chip.refusals domCOMMONS .off (reqOf .off) = []
    ∧ (sDom domCOMMONS (onDom domCOMMONS)).chip.accepts pgPOWER 0x108 .internal = true
    ∧ ((sDom domAON (onDom domAON)).chip.refusals domAON .off (reqOf .off)).head? = some stBAD_OPERAND
    ∧ (sDom 16 (domDefault 16)).chip.refusals 16 .on (reqOf .on) = [stBAD_OPERAND]
    ∧ (sDom 16 (domDefault 16)).chip.accepts pgPOWER 0x108 .internal = true := by decide +kernel
def draining : DomRec := { onDom domCOMMONS with draining := true, current := some (reqOf .off), prev := .on }
def busyDom : State :=
  let s := sDom domCOMMONS draining
  { s with chip := { s.chip with sb := [(0, { readyEntry (record 0x20 1 0 0 0 0) with state := .running })] } }
theorem wit_drain : ((sDom domCOMMONS draining).chip.dom domCOMMONS).current = some (reqOf .off) ∧ draining.draining = true
    ∧ (sDom domCOMMONS draining).chip.domBusy domCOMMONS = false
    ∧ (sDom domCOMMONS draining).chip.now - draining.drainFrom < (sDom domCOMMONS draining).chip.drainLimit
    ∧ (withReg (sDom domCOMMONS draining) pgPOWER 0x10C 0).chip.drainLimit ≤ 0
    ∧ ((withReg (sDom domCOMMONS draining) pgPOWER 0x10C 0).chip.dom domCOMMONS).current = some (reqOf .off)
    ∧ groupOf domCOMMONS = none ∧ ({ draining with waking := true, draining := false } : DomRec).waking = true := by decide
theorem wit_drain_busy : (busyDom.chip.dom domCOMMONS).current = some (reqOf .off) ∧ busyDom.chip.domBusy domCOMMONS = true := by decide +kernel
def idleTile : State := withReg (dieUp live) pgPOWER 0x110 3
theorem wit_idle : idleTile.chip.coreEn = true ∧ idleTile.chip.routerEn = true ∧ tileKind 16 ≠ .port ∧ idleTile.chip.coreDom 16 = .on
    ∧ idleTile.chip.routerDom 16 = .on ∧ (idleTile.chip.tile 16).q.axon = [] ∧ (idleTile.chip.tile 16).q.data = []
    ∧ (idleTile.chip.tile 16).q.command = [] ∧ (idleTile.chip.tile 16).q.sync = [] ∧ (idleTile.chip.tile 16).tc.chain = none
    ∧ (idleTile.chip.tile 16).orders.current = none ∧ idleTile.chip.residents = []
    ∧ (∀ l ∈ (idleTile.chip.tile 16).rt.inputs, l = []) ∧ (∀ o ∈ (idleTile.chip.tile 16).rt.outs, o.slot = none) := by decide
def busyTile : State := { live with chip := live.chip.updTile 16 (fun t => { t with
  q := { t.q with axon := [mkFlit 0] }, rt := { t.rt with inputs := listSet t.rt.inputs 0 [.close] } }) }
theorem wit_busyTile : (busyTile.chip.tile 16).q.axon ≠ [] ∧ (∃ l ∈ (busyTile.chip.tile 16).rt.inputs, l ≠ []) := by decide
theorem wit_pads : live.chip.accepts pgPADS 0x100 .internal = true := by decide
def sWake (w : List WakeRun) : State :=
  let s := withReg live pgWAKE 0x100 1
  { s with chip := { s.chip with wakes := w, routes := [(0, BitVec.ofNat 32 (domCONTROL + 2 ^ 10)), (1, BitVec.ofNat 32 (domCOMMONS + 2 ^ 10))] } }
theorem wit_wake : bit (((sWake [{ src := 0, slot := 0 }]).chip.page pgWAKE).rd 0x100) 0 = true
    ∧ (sWake [{ src := 0, slot := 0 }]).chip.wakes.any (fun w => w.src == 0) = true ∧ bit ((live.chip.page pgWAKE).rd 0x100) 15 = false
    ∧ State.reset.chip.held = true
    ∧ (sWake [{ src := 0, slot := 0 }]).chip.wakes.find? (fun w => w.src == 0) = some { src := 0, slot := 0 }
    ∧ (sWake [{ src := 0, slot := 0 }]).chip.slotDone { src := 0, slot := 0 } = true
    ∧ (sWake [{ src := 0, slot := 0 }]).chip.usedSlot 0 1 = some 1
    ∧ (sWake [{ src := 0, slot := 1 }]).chip.wakes.find? (fun w => w.src == 0) = some { src := 0, slot := 1 }
    ∧ (sWake [{ src := 0, slot := 1 }]).chip.slotDone { src := 0, slot := 1 } = false := by decide
def sAlarm (a : Nat) : State :=
  let s := withReg (withReg live pgRTC 0x130 0x103) pgRTC 0x134 1
  { s with chip := { s.chip with rtc := { s.chip.rtc with alarm0 := BitVec.ofNat 64 a } } }
theorem wit_alarm : (sAlarm 0).chip.alarmEn 0 = true ∧ (sAlarm 0).chip.alarmEn 1 = true ∧ (sAlarm 0).chip.rtc.fired0 = false
    ∧ (sAlarm 0).chip.rtc.fired1 = false ∧ (sAlarm 0).chip.rtc.alarm0.toNat ≤ (sAlarm 0).chip.rtc.time.toNat
    ∧ (sAlarm 0).chip.rtc.alarm1.toNat ≤ (sAlarm 0).chip.rtc.time.toNat
    ∧ (((sAlarm 0).chip.raise pgRTC 0).page pgRTC).rd 0x134 = 1 ∧ bit ((((sAlarm 0).chip.raise pgRTC 0).page pgRTC).rd 0x130) 8 = true
    ∧ (sAlarm 1).chip.rtc.time.toNat < (sAlarm 1).chip.rtc.alarm0.toNat := by decide
theorem wit_rtc : live.chip.accepts pgRTC 0x118 .operator = true ∧ live.chip.residents = [] ∧ live.chip.rtc.valid = false
    ∧ (live.chip.audit 10 (originNum .operator) stOK (natLe 8 0 ++ natLe 8 0)).2 = true := by decide +kernel

/-! ### The die stack, resets and the gate -/

theorem wit_ceiling : (550 : Nat) ≤ 860 ∧ (860 : Nat) ≤ 900 ∧ (279 : Int) < 4 * (70 : Nat) ∧ (280 : Int) = 4 * (((70 : Nat) : Int) + ((0 : Nat) : Int))
    ∧ ceilingOf 70 860 280 = 860 ∧ ceilingOf 70 860 279 = 900
    ∧ (dieUp live).chip.dies.length = 4 ∧ ((dieUp live).chip.die 0).state = .on := by decide
theorem wit_samples : (List.replicate 32 ({ temp := 0, valid := false } : SensorReading)).length = 32
    ∧ ((dieUp live).chip.page pgPOWER).fld 0x120 8 0 = 0
    ∧ ((withReg (dieUp live) pgPOWER 0x120 1).chip.page pgPOWER).fld 0x120 8 0 = 1 ∧ 1000 * 1 < (1001 : W32).toNat + (0 + (0 + 0))
    ∧ 550 < ((dieUp live).chip.die 0).capVolt := by decide
theorem wit_step : ((stepping (dieUp live)).chip.die 0).step ≠ none ∧ (stepping (dieUp live)).chip.gapOf ((stepping (dieUp live)).chip.dieSet 0) = true
    ∧ (∀ i, i < 16 → (stepping (dieUp live)).chip.checkDue 0 i = false)
    ∧ (stepping (rounds (inPhase .spike))).chip.gapOf ((stepping (rounds (inPhase .spike))).chip.dieSet 0) = false := by decide
def regUp (d : DomRec) : State := { (dieUp live) with chip := (dieUp live).chip.putDom (domREG 0) d }
def tripped : State :=
  { live with chip := live.chip.updDie 0 (fun d => { d with state := .tripped, temp := some 0 }) }
theorem wit_dies : ((dieUp live).chip.die 0).state = .on ∧ ((dieUp live).chip.die 1).state ≠ .on ∧ (regUp (onDom (domREG 0))).chip.domOn (domREG 0) = true
    ∧ ((regUp { domDefault (domREG 0) with waking := true }).chip.dom (domREG 0)).waking = true
    ∧ ((regUp { domDefault (domREG 0) with waking := true }).chip.dom (domREG 0)).current = none
    ∧ tripped.chip.accepts pgTHERM 0x170 .operator = true ∧ (1 : W32).toNat &&& 15 = 1 ∧ (tripped.chip.die 0).state = .tripped
    ∧ (tripped.chip.die 0).temp = some 0 ∧ (0 : Int) < 4 * (tripped.chip.resumeTemp : Int)
    ∧ (∀ i, i < 4 → bit ((tripped.chip.page pgDIE).rd (0x120 + 4 * i)) 15 = true → sext 12 ((tripped.chip.page pgDIE).rd (0x120 + 4 * i)) < 440) := by decide
def sLane (s : State) : State := { s with chip := s.chip.putVlink 0 0 { vlinkDefault 0 with due := true } }
theorem wit_lanes : bit (((withReg (dieUp live) pgSTACK 0x108 1).chip.page pgSTACK).rd 0x108) 0 = true
    ∧ (sLane (dieUp live)).chip.checkDue 0 0 = true ∧ (sLane (dieUp live)).chip.gapOf ((sLane (dieUp live)).chip.linkSet 0 0) = true
    ∧ ((sLane (dieUp live)).chip.vlink 0 0).tests = [] ∧ ((sLane (dieUp live)).chip.unit (vlinkUnit (tileKey 0 (portTile 0)))).due = false
    ∧ (checkDir false VDir.init 1 0).2 = false ∧ (checkDir false VDir.init 1 0).1.halved = false ∧ (checkDir false VDir.init 1 0).1.fenced = false
    ∧ (checkDir true VDir.init 1 0).2 = false ∧ (checkDir true VDir.init 1 0).1.halved = false ∧ (checkDir true VDir.init 1 0).1.fenced = false := by decide
def inLink : State := sLane (rounds { inPhase .spike with tiles := [{ tile16 with imgTile := 34, tile := 34, core := false, phase := .spike }] })
theorem wit_lanes_busy : inLink.chip.checkDue 0 0 = true ∧ inLink.chip.linkSet 0 0 = [1] ∧ inLink.chip.gapOf (inLink.chip.linkSet 0 0) = false := by decide
theorem wit_spares : (71 : Nat) < 72 ∧ ({ VDir.init with failed := 1 } : VDir).failed.getLsbD 0 = true ∧ VDir.init.failed.getLsbD 71 = false
    ∧ ({ VDir.init with half := true } : VDir).half = true ∧ VDir.init.half = false ∧ (∀ x ∈ VDir.init.spares, x.toNat ≠ 71)
    ∧ ({ VDir.init with failed := 1 } : VDir).freeSpare = some 0 ∧ ({ VDir.init with spares := [0, 1, 2, 3] } : VDir).freeSpare = none
    ∧ (∀ x ∈ ([0, 1, 2, 3] : List (BitVec 7)), x.toNat ≠ 71) := by decide

theorem wit_resets : mapWf unitDefault live.chip.units = true ∧ (live.chip.packageReset 1).held = true ∧ live.chip.porLow = false
    ∧ State.reset.chip.porLow = true ∧ State.reset.chip.railsOut = false ∧ live.chip.railsOut = false
    ∧ ({ live.chip with railsOut := true } : Chip).railsOut = true := by decide
theorem wit_resetReq : live.chip.accepts pgPROFILE 0x130 .operator = true ∧ ((0 : W32) ||| 0x40000).toNat &&& 0x70000 = 0x40000
    ∧ ((0 : W32) ||| 0x10000).toNat &&& 0x70000 = 0x10000 ∧ ((0 : W32) ||| 0x20000).toNat &&& 0x70000 = 0x20000
    ∧ (0x30000 : W32).toNat &&& 0x70000 = 0x30000 ∧ (live.chip.audit 11 3 stOK (natLe 4 0x40000)).2 = true
    ∧ (live.chip.audit 11 3 stOK (natLe 4 0x10000)).2 = true ∧ (live.chip.audit 11 3 stOK (natLe 4 0x20000)).2 = true
    ∧ ((withPast live past16).chip.audit 11 3 stOK (natLe 4 (0x20000 + 16 * 4))).2 = true
    ∧ (((withPast live past16).chip.audit 11 3 stOK (natLe 4 (0x20000 + 16 * 4))).1.touching 16) ≠ [] := by decide

theorem wit_gateLink : (dieUp live).chip.gate.dlUp = true ∧ (dieUp live).chip.homePkg = (dieUp live).chip.pkg ∧ (dieUp live).chip.hostCopies = []
    ∧ (∀ x ∈ (dieUp live).chip.ctxs, x.1 ≠ 4095 → x.2.state ≠ .active)
    ∧ (withReg (dieUp live) pgGATE 0x10C 1).chip.homePkg ≠ (withReg (dieUp live) pgGATE 0x10C 1).chip.pkg
    ∧ (dieUp live).chip.domOn domGATE = true ∧ ({ (dieUp live).chip with gate := Gate.init } : Chip).gate.dlUp = false
    ∧ (dieUp live).chip.residents = [] := by decide
/-- A COPY of 4,104 bytes from host memory to the commons bank that waits for its last bytes of the first 4 KiB. -/
def sDma : State :=
  let r := readyEntry (record 0x40 1 64 0 (BitVec.ofNat 64 (4104 + 8 * 2 ^ 32)) 0)
  { comOn with chip := { comOn.chip with sb := [(0, { r with state := .running, done := 4088 })] } }
theorem wit_dma : sDma.chip.waitsHost 0 = true ∧ bits ((sDma.chip.entry 0).bytes 48 4) 24 0 = 4104 ∧ min (4096 - 4088 % 4096) (4104 - 4088) = 8
    ∧ (sDma.chip.copyTake 0 (fields 8 1 (memReadN sDma.chip.host (64 + 4088) 8)) false).2 = true
    ∧ live.chip.waitsHost 0 = false ∧ (live.chip.entry 0).opcode = 0 := by decide
def sRing (x : ERing) : State := { open0 with chip := { open0.chip with gate := { open0.chip.gate with rings := [(0, x)] } } }
def ring6 (n : Nat) : ERing := { ERing.init with logSize := 6, en := true, pi := BitVec.ofNat 32 n, waiting := [(1, List.replicate 16 0)] }
theorem wit_rings : ((sRing (ring6 63)).chip.ering 0).waiting = (1, List.replicate 16 0) :: [] ∧ (ring6 63).en = true
    ∧ (ring6 63).fill < 2 ^ (ring6 63).logSize.toNat ∧ 2 ^ (ring6 64).logSize.toNat ≤ (ring6 64).fill
    ∧ ((sRing (ring6 64)).chip.ering 0).waiting = (1, List.replicate 16 0) :: []
    ∧ (sRing (ring6 5)).chip.accepts pgGATE 0x134 .host = true ∧ ((sRing (ring6 5)).chip.page pgGATE).rd 0x120 % 64 = 0
    ∧ ((5 : W32) - ((sRing (ring6 5)).chip.ering 0).ci).toNat ≤ (((sRing (ring6 5)).chip.ering 0).pi - ((sRing (ring6 5)).chip.ering 0).ci).toNat
    ∧ (((sRing (ring6 5)).chip.ering 0).pi - ((sRing (ring6 5)).chip.ering 0).ci).toNat < ((6 : W32) - ((sRing (ring6 5)).chip.ering 0).ci).toNat := by decide
theorem wit_traceCi : live.chip.accepts pgHEALTH 0x170 .host = true
    ∧ subMod (2 ^ 32) 0 ((live.chip.page pgHEALTH).rd 0x170) ≤ subMod (2 ^ 32) ((live.chip.page pgHEALTH).rd 0x16C) ((live.chip.page pgHEALTH).rd 0x170)
    ∧ subMod (2 ^ 32) ((live.chip.page pgHEALTH).rd 0x16C) ((live.chip.page pgHEALTH).rd 0x170) < subMod (2 ^ 32) 1 ((live.chip.page pgHEALTH).rd 0x170) := by decide

/-! ### Sensor ports and rack links -/

/-- Receiver 0 ON with HS sync, stream context 0 bound to its virtual channel 3. -/
def info (enc : Bool) : StreamRec :=
  { StreamRec.init with port := 0, vc := 3, encoder := enc, adrMode := false, width := 4, height := 2, patchW := 4, patchH := 2, mapCount := 1, fifoKib := 1 }
def sCsi (x : StreamCtx) : State :=
  let s := withReg live (pgCSI + 0) 0x104 1
  { s with chip := { s.chip with doms := [(domCSI 0, onDom (domCSI 0))], streams := listSet s.chip.streams 0 x } }
def ctxOf (enc : Bool) : StreamCtx := { StreamCtx.init with bound := some (1, 0), info := info enc }
theorem wit_packets : (sCsi (ctxOf false)).chip.csiLive 0 = true ∧ (sCsi (ctxOf false)).chip.ctxOn 0 3 = some 0
    ∧ ((sCsi (ctxOf false)).chip.stream 0).info.encoder = false ∧ 4 ≤ 8192 ∧ 8192 % 8 = 0 ∧ (4 : Nat) % 4 = 0
    ∧ ((sCsi (ctxOf false)).chip.stream 0).info.adrMode = ((0x31 : Nat) == 0x32)
    ∧ (sCsi (ctxOf true)).chip.csiLive 0 = true ∧ (sCsi (ctxOf true)).chip.ctxOn 0 3 = some 0
    ∧ ((sCsi (ctxOf true)).chip.stream 0).info.encoder = true := by decide
theorem wit_frames : ({ ctxOf true with inFrame := true } : StreamCtx).inFrame = true ∧ (ctxOf true).inFrame = false ∧ (ctxOf true).skipFrame = false
    ∧ (ctxOf true).line < (ctxOf true).info.height ∧ (List.replicate 4 (0 : Byte)).length = (ctxOf true).info.width
    ∧ 4 * (List.replicate 5 (0 : Byte)).length = 5 * (ctxOf true).info.width
    ∧ ((sCsi { ctxOf true with inFrame := true }).chip.ctxOn 0 3) = some 0 ∧ (sCsi { ctxOf true with inFrame := true }).chip.csiLive 0 = true := by decide
def pixel (r : Option Nat) : Pixel := { l := 100, ref := r }
theorem wit_pixels : (pixel none).ref = none ∧ (pixel (some 90)).ref = some 90 ∧ ((10 : Nat) : Int) ≤ (100 : Nat) - (90 : Nat)
    ∧ (((100 : Nat) : Int) - (110 : Nat) < (10 : Nat)) ∧ ((10 : Nat) : Int) ≤ (110 : Nat) - (100 : Nat)
    ∧ (((100 : Nat) : Int) - (100 : Nat) < (10 : Nat)) ∧ (((100 : Nat) : Int) - (100 : Nat) < (10 : Nat)) ∧ (1023 : Nat) < 1024 := by decide
def sAer (a : Aer) : State :=
  { live with chip := { live.chip with doms := [(domAER 0, onDom (domAER 0))], aers := [a, Aer.init]
                                       streams := listSet live.chip.streams 0 { ctxOf false with info := { info false with port := 4, adrMode := true } } } }
theorem wit_aer : (sCsi (ctxOf false)).chip.domOn (domCSI 0) = true ∧ 8 ≤ (150 : Byte).toNat ∧ (150 : Byte).toNat ≤ 150 ∧ (250 : Byte).toNat ≤ 250
    ∧ (sAer Aer.init).chip.domOn (domAER 0) = true ∧ (sAer Aer.init).chip.aers.length = 2 ∧ Aer.init.req = false ∧ Aer.init.ack = false
    ∧ (sAer Aer.init).chip.ctxOn 4 0 = some 0
    ∧ (nth Aer.init (sAer { Aer.init with req := true, ack := true }).chip.aers 0).req = true
    ∧ (nth Aer.init (sAer { Aer.init with req := true, ack := true }).chip.aers 0).ack = true := by decide

def sLink (l : Link) : State := { live with chip := { live.chip with links := listSet live.chip.links 0 l, doms := [(domLINK 0, onDom (domLINK 0))] } }
def linkAt (p : LinkPhase) : Link := { Link.init with phase := p }
/-- A frame of type `t` and sequence number `n`, without content; and a LINK frame of subtype `u`. -/
def frameOf (t n : Nat) : List Byte := frameBytes { type := t, seq := n } (List.replicate 244 0)
def linkFrame (u : Nat) : List Byte := frameBytes { type := 2 } ({ subtype := u } : LinkHello).body
theorem wit_dataFrame : (frameOf 0 0).length = 256 ∧ ((sLink (linkAt .up)).chip.link 0).phase.sends = true ∧ frameOk (frameOf 0 0) = true
    ∧ (FrameHdr.of (frameOf 0 0)).type = 0
    ∧ BitVec.ofNat 12 (FrameHdr.of (frameOf 0 0)).seq = ((((sLink (linkAt .up)).chip.fec 0 0 0).takeHeader 0 (FrameHdr.of (frameOf 0 0))).link 0).rxSeq
    := by decide +kernel
theorem wit_badFrame : (List.replicate 256 (0 : Byte)).length = 256 ∧ frameOk (List.replicate 256 0) = false ∧ frameOk (frameOf 0 4095) = true
    ∧ (FrameHdr.of (frameOf 0 4095)).type = 0
    ∧ BitVec.ofNat 12 (FrameHdr.of (frameOf 0 4095)).seq ≠ ((((sLink (linkAt .up)).chip.fec 0 0 0).takeHeader 0 (FrameHdr.of (frameOf 0 4095))).link 0).rxSeq
    ∧ frameOk (frameOf 1 0) = true ∧ (FrameHdr.of (frameOf 1 0)).type = 1 ∧ (frameOf 1 0).length = 256 := by decide +kernel
theorem wit_hello : ((sLink (linkAt .hello)).chip.link 0).phase ≠ .off ∧ ((sLink (linkAt .hello)).chip.link 0).phase ≠ .whistle
    ∧ (linkFrame 0).length = 256 ∧ frameOk (linkFrame 0) = true ∧ (FrameHdr.of (linkFrame 0)).type = 2
    ∧ (LinkHello.of (linkFrame 0)).map (fun g => g.subtype) = some 0 ∧ frameOk (linkFrame 1) = true ∧ (FrameHdr.of (linkFrame 1)).type = 2
    ∧ (LinkHello.of (linkFrame 1)).map (fun g => g.subtype) = some 1 ∧ (linkFrame 1).length = 256
    ∧ ((sLink (linkAt .off)).chip.link 0).phase = .off := by decide +kernel
theorem wit_linkTimers : ((sLink (linkAt .up)).chip.link 0).phase = .up
    ∧ ((sLink { linkAt .up with replay := [(7, 0, [])] }).chip.link 0).replay = [(7, 0, [])]
    ∧ ((sLink { linkAt .up with replay := [(7, 0, [])] }).chip.link 0).phase.sends = true
    ∧ ({ linkAt .holding with resumable := true } : Link).phase = .holding ∧ ({ linkAt .holding with resumable := true } : Link).resumable = true
    ∧ (linkAt .whistle).phase = .whistle ∧ (linkAt .hello).phase = .hello ∧ (linkAt .up).resumable = false
    ∧ (withReg (sLink (linkAt .whistle)) (lkPage 0) 0x100 1).chip.domOn (domLINK 0) = true
    ∧ bit (((withReg (sLink (linkAt .whistle)) (lkPage 0) 0x100 1).chip.page (lkPage 0)).rd 0x100) 0 = true := by decide
theorem wit_whistle : (withReg (sLink (linkAt .whistle)) (lkPage 0) 0x10C 0xA00).chip.accepts (lkPage 0) 0x10C .operator = true
    ∧ ((withReg (sLink (linkAt .whistle)) (lkPage 0) 0x10C 0xA00).chip.page (lkPage 0)).rd 0x10C = 0xA00
    ∧ 10 ≤ bits 0xA00 15 8 ∧ (0xA00 : Nat) < 2 ^ 16 ∧ (0xA00 : Nat) % 256 = 0 := by decide
theorem wit_replayBuffer : ({ linkAt .up with replay := [(7, 0, []), (8, 0, [])] } : Link).replay = (7, 0, []) :: [(8, 0, [])]
    ∧ ((9 : BitVec 12) - 7).toNat ≤ 2 ∧ 2 < ((10 : BitVec 12) - 7).toNat := by decide

/-! ### The shelf, the sled controller and the TAP -/

def shelfIn (st : ShelfState) (testing : Bool) : State := { live with shelf := { live.shelf with state := st, testing := testing } }
theorem wit_shelf : live.shelf.state = .mains ∧ (shelfIn .handover true).shelf.state = .handover ∧ (shelfIn .battery false).shelf.testing = false
    ∧ (shelfIn .battery true).shelf.testing = true ∧ (shelfIn .ramp true).shelf.state = .ramp ∧ (shelfIn .off false).shelf.state = .off := by decide
/-- Qualification about to end, the third return of the last three 60 s before; and LOCKOUT set with 60 s in MAINS or not yet. -/
def qualifying : Shelf := { live.shelf with state := .battery, qualifying := true, returns := [5, 0], now := 60000000 }
def locked (now : Nat) : Shelf := { live.shelf with lockout := true, now := now }
theorem wit_qualify : qualifying.adequate = true ∧ qualifying.qualifying = true ∧ qualifying.testing = false ∧ qualifying.state = .battery
    ∧ qualifying.returns = 5 :: 0 :: [] ∧ qualifying.now ≤ 0 + 60000000 ∧ live.shelf.returns.length ≤ 1
    ∧ (locked 0).state = .mains ∧ (locked 0).lockout = true ∧ (locked 60000000).mainsSince + 60000000 ≤ (locked 60000000).now
    ∧ (locked 59999999).now < (locked 59999999).mainsSince + 60000000 := by decide
theorem wit_bus : (shelfIn .battery false).shelf.state = .battery ∧ (shelfIn .battery false).sled.standalone = false
    ∧ (shelfIn .battery false).sled.shutdown = 0 ∧ ({ Sled.reset with standalone := true } : Sled).standalone = true
    ∧ ({ Sled.reset with shutdown := 1 } : Sled).shutdown ≠ 0 ∧ live.shelf.state ≠ .battery ∧ live.chip.held = false ∧ live.chip.recovery = false
    ∧ State.reset.chip.held = true := by decide
theorem wit_shelf_pages : live.shelf.page = 0 ∧ ({ live.shelf with page := 8 } : Shelf).page ≠ 0 ∧ 1 ≤ (8 : Byte).toNat ∧ (8 : Byte).toNat ≤ 8
    ∧ ({ live.shelf with page := 8 } : Shelf).page.toNat = (7 : Fin 8).val + 1 ∧ (9 : Byte).toNat ≤ 9 ∧ 9 < (10 : Byte).toNat
    ∧ Instr.readVin none ∈ [Instr.readVin none, .readIin none] ∧ Instr.statusVout none ∈ [Instr.statusVout none, .statusIout none] := by decide
theorem wit_shelf_ranges : 3000 ≤ (3000 : W16).toNat ∧ (30000 : W16).toNat ≤ 30000 ∧ (2999 : W16).toNat < 3000 ∧ 30000 < (30001 : W16).toNat
    ∧ 150 ≤ (150 : W16).toNat ∧ (500 : W16).toNat ≤ 500 ∧ 500 < (501 : W16).toNat ∧ 20 ≤ (20 : W16).toNat ∧ (100 : W16).toNat ≤ 100
    ∧ (100 : W16).toNat < live.shelf.reserveLevel.toNat ∧ (19 : W16).toNat < 20 ∧ 100 < (101 : W16).toNat := by decide
theorem wit_handover_test : live.shelf.state = .mains ∧ live.shelf.reserve = false ∧ ({ live.shelf with reserve := true } : Shelf).reserve = true := by decide

def sledWith (x : Sled) : State := { live with sled := x }
theorem wit_datagrams : live.fresh 5 = true ∧ live.sled.slot = 0 ∧ (1 : DieId) ≠ live.sled.slot ∧ live.sled.noticed ≠ some true
    ∧ (sledWith { live.sled with noticed := some true }).sled.noticed = some true ∧ live.chip.held = false ∧ live.chip.crook.smbus.length < 8
    ∧ State.reset.chip.held = true ∧ State.reset.sled.noticed ≠ some true ∧ State.reset.fresh 5 = true
    ∧ (sledWith (live.sled.answered 5 [1])).sled.answers.find? (fun e => e.1 == 5) = some (5, [1])
    ∧ Instr.bridgeRetry 5 ∈ [Instr.bridgeRetry 5, .stateGet 5] := by decide
theorem wit_slots : live.sled.slots.length = 4 ∧ State.reset.chip.porLow = true ∧ live.chip.porLow = false ∧ (shelfIn .off false).shelf.state ≠ .mains
    ∧ live.sled.powered < 16 ∧ ({ live.sled with powered := 16 } : Sled).powered = 16 ∧ live.sled.powered = live.sled.place.toNat
    ∧ ({ live.sled with powered := 1 } : Sled).powered ≠ live.sled.place.toNat ∧ live.chip.recovery = false := by decide
/-- Sled 15 of rack 3 of four. -/
def lastSled : Sled := { live.sled with racks := 4, rack := 3, place := 15, slot := 3 }
theorem wit_enumeration : lastSled.standalone = false ∧ 1 ≤ lastSled.racks.toNat ∧ lastSled.racks.toNat ≤ 4 ∧ lastSled.rack.toNat < lastSled.racks.toNat
    ∧ 16 * lastSled.rack.toNat + lastSled.place.toNat = 63 ∧ ({ lastSled with standalone := true } : Sled).standalone = true
    ∧ ((withReg (withReg live pgLINK 0x180 lastSled.torus.1) pgLINK 0x184 lastSled.torus.2.1).chip.page pgLINK).rd 0x180 = lastSled.torus.1
    ∧ ((withReg (withReg live pgLINK 0x180 lastSled.torus.1) pgLINK 0x184 lastSled.torus.2.1).chip.page pgLINK).rd 0x184 = lastSled.torus.2.1 := by decide
theorem wit_tap : State.reset.chip.porLow = true ∧ live.chip.porLow = false ∧ live.chip.fuses.baseGen = 1
    ∧ ({ live.tap with ir := 0xFF, bypass := true } : Tap).ir = 0xFF ∧ live.tap.ir ≠ 0xFF
    ∧ outCells.all (fun i => ((BitVec.allOnes 73).getLsbD (i + 1)) && !((0 : BitVec 73).getLsbD (i + 1))) = true
    ∧ (72 ∉ outCells ∨ 72 ∈ outCells) := by decide

/-! ### The invariants -/

theorem wit_shelf_sound : live.shelf.sound := by unfold Shelf.sound; decide
theorem wit_pads_safe : live.padsSafe := by unfold State.padsSafe; decide

/-! ### Banks, the NV store and the field tests -/

def nvOn (s : State) : State := { s with chip := { s.chip with doms := [(domNV, onDom domNV)] } }
theorem wit_shelter : (nvOn live).chip.accepts pgNVS 0x120 .operator = true ∧ (nvOn live).chip.nv.shelter = none ∧ (nvOn live).chip.domOn domNV = true
    ∧ live.chip.domOn domNV = false ∧ live.chip.accepts pgNVS 0x120 .operator = true := by decide
def nvJob : NvWrite := { page := 0, data := some (List.replicate 4096 1), gen := 5, why := .firmware }
def sNvq : State := { live with chip := { live.chip with nv := { live.chip.nv with queue := [nvJob] } } }
theorem wit_nvPage : sNvq.chip.held = false ∧ sNvq.chip.nv.queue = nvJob :: [] ∧ nvJob.data = some (List.replicate 4096 1) ∧ nvJob.why = .firmware
    ∧ live.chip.nv.queue = [] ∧ mapWf memDefault live.chip.nv.data = true := ⟨rfl, rfl, rfl, rfl, rfl, by decide +kernel⟩
theorem wit_nvPage_length : (List.replicate 4096 (1 : Byte)).length = 4096 := List.length_replicate ..
/-- Tile 1 of die 0 with scrub and shear on at word and region 1, the raw word there `d` with check bits `k`. -/
def scrubbing (d k : Nat) : State :=
  let s := { dieN with chip := { dieN.chip with pages := mapSet (fun n => pageDefault n) dieN.chip.pages pgMUSTER (dieN.chip.page pgMUSTER) } }
  { s with chip := s.chip.updTile 1 (fun t => { t with pBank := ((((t.pBank.wr 0x104 1).wr 0x108 1).wr 0x10C 1).wr 0x110 1)
                                                       bank := { t.bank with mem := wordPut t.bank.mem (t.bankCtx.phys 1) d k } }) }
theorem wit_scrub : ((scrubbing 0 0).chip.bankOfKey (.tile 0 1)).2 = true
    ∧ (let k := ((scrubbing 0 0).chip.bankOfKey (.tile 0 1)).1
       k.b.fenced = false ∧ k.plain = false ∧ bit (k.pg.rd (0x104 + k.off)) 0 = true ∧ k.pg.rd (0x108 + k.off) = 1 ∧ 1 + 1 < k.words
       ∧ bit (k.pg.rd (0x10C + k.off)) 0 = true ∧ k.b.urgent = none ∧ k.pg.rd (0x110 + k.off) = 1 ∧ 1 + 1 < k.words / 128
       ∧ freeSpare k.b.spares 0 = some 0 ∧ spareFor k.b.spares 0 1 = none
       ∧ eccClass (wordRaw k.b.mem (k.phys 1)).1 (wordRaw k.b.mem (k.phys 1)).2 = .clean) := by decide +kernel
theorem wit_scrub_bad : (let k := ((scrubbing 1 0).chip.bankOfKey (.tile 0 1)).1
       eccClass (wordRaw k.b.mem (k.phys 1)).1 (wordRaw k.b.mem (k.phys 1)).2 = .data 0)
    ∧ (let k := ((scrubbing 3 0).chip.bankOfKey (.tile 0 1)).1
       eccClass (wordRaw k.b.mem (k.phys 1)).1 (wordRaw k.b.mem (k.phys 1)).2 = .uncorrectable) := by decide
theorem wit_mustered : (scrubbing 0 0).chip.mustered = true := by decide

/-- The core unit of tile 16 of die 0, and vertical link 0. -/
def uCore : Nat := coreUnit 16
def uLink : Nat := vlinkUnit (tileKey 0 (portTile 0))
def setU (s : State) (u : Nat) (x : UnitRec) : State := { s with chip := { s.chip with units := mapSet unitDefault s.chip.units u x } }
theorem wit_testDue : unitExists uCore = true ∧ (live.chip.unit uCore).applied ≠ .fenced ∧ (live.chip.unit uCore).applied ≠ .off ∧ unitKind uCore ≠ 4
    ∧ live.chip.heldFor uCore = none ∧ live.chip.liveUnit uCore = false ∧ unitExists uLink = true ∧ unitKind uLink = 4
    ∧ (live.chip.unit uLink).applied ≠ .fenced ∧ (live.chip.unit uLink).applied ≠ .off
    ∧ (withPast live (inPhase .spike)).chip.liveUnit uCore = true ∧ (withPast live (inPhase .spike)).chip.heldFor uCore = none
    ∧ (∀ p ∈ (withPast live (inPhase .spike)).chip.unitPastures uCore, ((withPast live (inPhase .spike)).chip.past p).between = false)
    ∧ ((setU live uCore { unitDefault uCore with crook := .fenced, shepherd := .fenced }).chip.unit uCore).applied = .fenced := by decide
def deferredU (forced : Bool) : UnitRec := { unitDefault uCore with due := true, deferred := true, forced := forced }
def inMaint : Past := { past16 with maintenance := true, boundary := some (0, []) }
theorem wit_defer : ((setU live uCore (deferredU false)).chip.unit uCore).deferred = true ∧ ((setU live uCore (deferredU false)).chip.unit uCore).forced = false
    ∧ (live.chip.unit uCore).deferred = false ∧ ((setU live uCore (deferredU true)).chip.unit uCore).forced = true
    ∧ ((setU live uCore (deferredU true)).chip.forceCapture uCore).heldFor uCore = none
    ∧ ((setU (withPast live inMaint) uCore (deferredU true)).chip.unit uCore).deferred = true
    ∧ ((setU (withPast live inMaint) uCore (deferredU true)).chip.forceCapture uCore).heldFor uCore = some 1 := by decide
def selU (s : State) (u : Nat) : State := withReg s pgHEALTH 0x100 u
theorem wit_unitReturn : (selU live uCore).chip.accepts pgHEALTH 0x110 .operator = true ∧ ((selU live uCore).chip.page pgHEALTH).rd 0x100 % 8192 = uCore
    ∧ ((selU live uCore).chip.unit uCore).applied ≠ .fenced
    ∧ ((selU (setU live uLink { unitDefault uLink with crook := .fenced, shepherd := .fenced }) uLink).chip.page pgHEALTH).rd 0x100 % 8192 = uLink
    ∧ ((selU (setU live uLink { unitDefault uLink with crook := .fenced, shepherd := .fenced }) uLink).chip.unit uLink).applied = .fenced
    ∧ (selU (setU live uLink { unitDefault uLink with crook := .fenced, shepherd := .fenced }) uLink).chip.accepts pgHEALTH 0x110 .operator = true
    ∧ 0 &&& unitTests uLink = 0 ∧ unitTests uLink &&& unitTests uLink ≠ 0 := by decide
def differing : State := setU live uCore { unitDefault uCore with shepherd := .watch }
theorem wit_views : (∀ u ∈ live.chip.units, (live.chip.unit u.1).crook = (live.chip.unit u.1).shepherd)
    ∧ (differing.chip.unit uCore).crook ≠ (differing.chip.unit uCore).shepherd ∧ (∀ d ∈ differing.chip.disagree, d = none)
    ∧ (upto 16).find? (fun i => (nth (none : Option Disagree) differing.chip.disagree i).isNone) = some 0
    ∧ (∀ i, i < 16 → (nth (none : Option Disagree) (List.replicate 16 (some { unit := uLink, crook := 0, shepherd := 1, time := 0 })) i).isSome = true) := by decide

/-! ### Restarts and logs -/

/-- Pasture 1 held STALLED with a checkpoint ring of one slot at address 64, and its auto-restart on. -/
def stuck : Past :=
  { past16 with faultHold := some (BitVec.ofNat 8 stSTALLED), autoRestart := true
                ring := some { base := 64, slotLen := 4096, slots := 1, next := 0, newest := none } }
def sStuck (b : List Byte) : State := withPast (withHost (dieUp live) b) stuck
def stuckNow (b : List Byte) : Chip := (sStuck b).chip.updPast 1 (fun x => { x with restarts := (sStuck b).chip.now :: x.restarts.take 3 })
theorem wit_restart : live.chip.mayRestart 1 = false ∧ (sStuck []).chip.mayRestart 1 = true ∧ ((stuckNow []).past 1).ring.isSome = true
    ∧ (stuckNow []).hostStatus = none ∧ (stuckNow []).newestSlot 1 { base := 64, slotLen := 4096, slots := 1, next := 0, newest := none } = none := by decide
theorem wit_restart_slot : ((stuckNow (imageOf 2)).newestSlot 1 { base := 64, slotLen := 4096, slots := 1, next := 0, newest := none }).map (fun e => e.1) = some 64
    ∧ (sStuck (imageOf 2)).chip.mayRestart 1 = true
    ∧ ((stuckNow (imageOf 2)).restoreFrom 1 (imageOf 2)).2 = stOK
    ∧ (((stuckNow (imageOf 2)).restoreFrom 1 (imageOf 2)).1.logAt 64 (Img.read (imageOf 2))).isNone = true := by decide +kernel
def aLog : RoundLog := { addr := 64, room := 4096, cap := 64, first := 3, logged := 0, inputUsed := 0, full := false, broken := false }
theorem wit_log : ({ past16 with log := some aLog, digests := [(3, 7)] } : Past).log = some aLog
    ∧ ({ past16 with log := some aLog, digests := [(3, 7)] } : Past).digests = (3, 7) :: [] ∧ ((3 : W32) - aLog.first).toNat < 2 ^ 31
    ∧ past16.log = none := by decide

/-! ### Profiles and firmware -/

/-- Byte `i` of the middle part of a list that is given by a function. -/
theorem leAt_mid (hd tl : List Byte) (f : Nat → Byte) (n i : Nat) (h : i < n) :
    leAt (hd ++ (upto n).map f ++ tl) (hd.length + i) 1 = (f i).toNat := by
  have h1 : slice (hd ++ (upto n).map f ++ tl) (hd.length + i) 1 = [f i] := by
    unfold slice upto
    rw [List.append_assoc, List.drop_append, List.drop_eq_nil_of_le (by omega), Nat.add_sub_cancel_left, List.nil_append,
      List.drop_append_of_le_length (by simp; omega), List.drop_eq_getElem_cons (by simpa using h)]
    simp
  rw [leAt, h1]
  simp [leNat]

/-- Profile 1 with the domains of profile 0 (R628, R634). -/
def profHead : List Byte :=
  natLe 4 0x4C4B5046 ++ natLe 2 1 ++ natLe 2 1 ++ (List.replicate 4 (natLe 2 750)).flatten ++ natLe 2 0
    ++ natLe 4 (95 + 105 * 256 + 100 * 65536 + 2 * 16777216) ++ natLe 1 0x72 ++ natLe 6 0 ++ natLe 1 3 ++ natLe 2 0
    ++ natLe 4 0x00640064 ++ natLe 4 1000 ++ natLe 4 5 ++ List.replicate 724 0
def profDomByte (i : Nat) : Byte :=
  BitVec.ofNat 8 (profile0Dom (4 * i) + 4 * profile0Dom (4 * i + 1) + 16 * profile0Dom (4 * i + 2) + 64 * profile0Dom (4 * i + 3))
def profBytes : List Byte := profHead ++ (upto 256).map profDomByte ++ List.replicate 3072 0

theorem profHead_length : profHead.length = 768 := by decide +kernel

theorem profBytes_length : profBytes.length = 4096 := by
  simp only [profBytes, List.length_append, List.length_map, List.length_replicate, upto, List.length_range, profHead_length]

theorem profDom_profBytes (n : Nat) (h : n < 1024) : profDom profBytes n = bits (profDomByte (n / 4)).toNat (2 * (n % 4) + 1) (2 * (n % 4)) := by
  have h1 := profHead_length
  have h2 := leAt_mid profHead (List.replicate 3072 0) profDomByte 256 (n / 4) (by omega)
  rw [h1] at h2
  rw [profDom, profBytes, h2]

theorem profDomOk_profBytes : (upto 1024).all (profDomOk profBytes) = true := by
  have h : (upto 1024).all (fun n => match domKind n with
      | .bank => bits (profDomByte (n / 4)).toNat (2 * (n % 4) + 1) (2 * (n % 4)) < 3
      | .base d => if d ≤ 2 then bits (profDomByte (n / 4)).toNat (2 * (n % 4) + 1) (2 * (n % 4)) = 0
          else (match domOf (bits (profDomByte (n / 4)).toNat (2 * (n % 4) + 1) (2 * (n % 4))) with | some s => baseDomHas d s | none => false)
      | .nothing => bits (profDomByte (n / 4)).toNat (2 * (n % 4) + 1) (2 * (n % 4)) = 2) = true := by decide +kernel
  rw [List.all_eq_true] at h ⊢
  intro n hn
  have hlt : n < 1024 := by simpa [upto] using hn
  have h3 := h n hn
  simp only [profDomOk, profDom_profBytes n hlt]
  exact h3

theorem profOk_profBytes : profOk 1 profBytes = true := by
  unfold profOk
  rw [Bool.and_eq_true]
  exact ⟨by decide +kernel, profDomOk_profBytes⟩

/-! ### The management frames -/

/-- A frame by the SMBus. -/
def fr (l : List Byte) : Frame := { via := .smbus, tag := 9, payload := l }
def withChip (s : State) (f : Chip → Chip) : State := { s with chip := f s.chip }
/-- A payload of each type that its layout admits. -/
def payloads : List (Nat × List Byte) :=
  [(0x01, []), (0x02, natLe 4 0x1000 ++ [1]), (0x03, natLe 4 0x108 ++ [1, 0, 0, 0] ++ natLe 4 0), (0x04, List.replicate 64 0),
   (0x05, natLe 4 1 ++ natLe 4 0 ++ natLe 2 4), (0x06, natLe 4 0 ++ natLe 4 7), (0x07, [1]), (0x08, natLe 4 257), (0x09, natLe 4 0 ++ natLe 4 1),
   (0x0A, []), (0x0B, []), (0x0C, []), (0x0D, List.replicate 96 0), (0x0E, []), (0x0F, natLe 4 0 ++ [1]), (0x10, natLe 4 1), (0x11, [0, 0, 1, 0, 0, 0]),
   (0x12, [1])]
theorem wit_served : payloads.all (fun e => live.frameServed e.1 (fr e.2)) = true := by decide +kernel
theorem wit_unserved : payloads.all (fun e => live.firstFrame e.1 (fr (e.2 ++ [0])) && !framePayloadOk e.1 (e.2 ++ [0])) = true := by decide +kernel
/-- A package in RECOVERY. -/
def recovering : State := withReg live pgIDENT 0x120 8
theorem wit_refused : recovering.firstFrame 0x04 (fr (List.replicate 64 0)) = true ∧ framePayloadOk 0x04 (List.replicate 64 0) = true
    ∧ (recovering.framed 0x04 (fr (List.replicate 64 0))).frameAllowed 0x04 3 (List.replicate 64 0) = false
    ∧ live.frameServed 0x02 (fr (natLe 4 0x2001000 ++ [1])) = true ∧ (twoPkg (mwin 1 4)).frameServed 0x02 (fr (natLe 4 0x2001000 ++ [1])) = true
    ∧ ((twoPkg (mwin 1 4)).frameAt 0x02 (fr (natLe 4 0x2001000 ++ [1]))).frameTarget 0x2001000 = (1, 0x1000)
    ∧ (((twoPkg (mwin 1 4)).frameAt 0x02 (fr (natLe 4 0x2001000 ++ [1]))).count pgGATE 0x158 1).windowFails 1 = none
    ∧ ((mwin 1 4).frameAt 0x02 (fr (natLe 4 0x2001000 ++ [1]))).frameTarget 0x2001000 = (1, 0x1000)
    ∧ (((mwin 1 4).frameAt 0x02 (fr (natLe 4 0x2001000 ++ [1]))).count pgGATE 0x158 1).windowFails 1 = some stBAD_OPERAND := by decide +kernel
/-- An audit log of one entry; pasture 1 stalled with tile 0 frozen; the operator context with a ring of 64 entries, full or not. -/
def oneEntry (s : State) : State := withChip s (fun c => { c with crook := { c.crook with auditHead := 1 } })
def frozenOne (s : State) : State :=
  withChip (withPast s { past0 with stalled := true }) (fun c => c.updTile 0 (fun t => { t with dbg := { t.dbg with frozen := true } }))
def opRing (n : W32) : State := withCtx live 4095 { open0.chip.ctx 0 with logSq := 0, pi := n }
theorem wit_reading : (live.frameAt 0x0F (fr (natLe 4 0 ++ [1]))).crook.auditHead.toNat < 0 + 1
    ∧ (oneEntry live).frameServed 0x0F (fr (natLe 4 0 ++ [1])) = true
    ∧ ((oneEntry live).frameAt 0x0F (fr (natLe 4 0 ++ [1]))).auditOldest ≤ 0 ∧ 0 + 1 ≤ ((oneEntry live).frameAt 0x0F (fr (natLe 4 0 ++ [1]))).crook.auditHead.toNat
    ∧ (frozenOne live).frameServed 0x11 (fr [0, 0, 1, 0, 0, 0]) = true
    ∧ (((frozenOne live).frameAt 0x11 (fr [0, 0, 1, 0, 0, 0])).frozenTiles 1)[0]? = some 0
    ∧ live.frameServed 0x11 (fr [1, 0, 0, 0, 146, 0]) = true ∧ (live.frameAt 0x05 (fr (natLe 4 1 ++ natLe 4 0 ++ natLe 2 4))).nv.shelter = none := by decide +kernel
theorem wit_writing : (live.frameAt 0x03 (fr (natLe 4 0x108 ++ [1, 0, 0, 0] ++ natLe 4 0))).frameTarget 0x108 = (live.chip.pkg, 0x108)
    ∧ (twoPkg (mwin 1 4)).frameServed 0x03 (fr (natLe 4 0x2001108 ++ [1, 0, 0, 0] ++ natLe 4 0)) = true
    ∧ (mwin 1 4).frameServed 0x03 (fr (natLe 4 0x2001108 ++ [1, 0, 0, 0] ++ natLe 4 0)) = true
    ∧ (opRing 0).frameServed 0x04 (fr (List.replicate 64 0)) = true ∧ (opRing 1).frameServed 0x04 (fr (List.replicate 64 0)) = true
    ∧ (let x := ((opRing 0).frameAt 0x04 (fr (List.replicate 64 0))).ctx 4095; (x.pi - x.ci).toNat < 2 ^ x.logSq.toNat)
    ∧ (let x := ((opRing 1).frameAt 0x04 (fr (List.replicate 64 0))).ctx 4095; 2 ^ x.logSq.toNat ≤ (x.pi - x.ci).toNat)
    ∧ live.frameServed 0x12 (fr [2]) = true ∧ live.frameServed 0x05 (fr (natLe 4 1 ++ natLe 4 0 ++ natLe 2 4)) = true := by decide +kernel

/-! ### Profiles, firmware, the debug lock and the audit log -/

def withNv (n : Nv) : State := withChip live (fun c => { c with nv := n })
def withCrook (f : Crook → Crook) : State := withChip live (fun c => { c with crook := f c.crook })
def f5 : Frame := fr (natLe 4 1 ++ natLe 4 0 ++ natLe 2 4)
theorem profOk_magic (n : Nat) (b : List Byte) (h : leAt b 0 4 ≠ 0x4C4B5046) : profOk n b = false := by
  unfold profOk
  simp [h]
/-- A store whose copy 0 of profile 1 holds `profBytes`, with CRC `x`. -/
def profNv (x : W32) : Nv :=
  { live.chip.nv with data := memWriteN [] (4096 * profPage 1 0) profBytes
                      info := [(profPage 1 0, { crc := x, gen := 1, writes := 1, suspect := false, worn := false })] }
theorem nv_frameAt (n : Nv) : ((withNv n).frameAt 0x05 f5).nv = n := rfl
theorem served_nv (n : Nv) : (withNv n).frameServed 0x05 f5 = true := rfl
theorem profRead_of {d : Chip} {x : W32} (hx : x = BitVec.ofNat 32 (crc32c profBytes)) (hn : d.nv = profNv x) : d.profRead 1 = some profBytes := by
  have hd : d.nvData (profPage 1 0) = profBytes := by
    have h := memReadN_memWriteN [] (4096 * profPage 1 0) profBytes
    rw [profBytes_length] at h
    have h0 : d.nv.data = memWriteN [] (4096 * profPage 1 0) profBytes := by rw [hn, profNv]
    rw [Chip.nvData, h0, h]
  have h0 : d.nvMeta (profPage 1 0) = { crc := x, gen := 1, writes := 1, suspect := false, worn := false } := by
    rw [Chip.nvMeta, hn]
    rfl
  have h1 : d.nvMeta (profPage 1 1) = nvInfoDefault (profPage 1 1) := by
    rw [Chip.nvMeta, hn]
    rfl
  have hg : d.nvGood (profPage 1 0) = true := nvGood_of d _ _ hd (by rw [h0]; exact hx)
  rw [Chip.profRead]
  simp [hg, hd, h0, h1, profOk_profBytes, nvInfoDefault]
theorem wit_profileRead : ∃ x : W32, ((withNv (profNv x)).frameAt 0x05 f5).profRead (leAt f5.payload 0 1) = some profBytes := by
  refine ⟨BitVec.ofNat 32 (crc32c profBytes), ?_⟩
  rw [show leAt f5.payload 0 1 = 1 from by decide]
  exact profRead_of rfl (nv_frameAt _)
theorem wit_profileRead_none : ((withNv { live.chip.nv with data := [] }).frameAt 0x05 f5).profRead (leAt f5.payload 0 1) = none := by
  have hn := nv_frameAt { live.chip.nv with data := [] }
  generalize (withNv { live.chip.nv with data := [] }).frameAt 0x05 f5 = d at hn ⊢
  have hp : leAt f5.payload 0 1 = 1 := by decide
  have h (k : Nat) : profOk 1 (d.nvData (profPage 1 k)) = false :=
    profOk_magic _ _ (by rw [Chip.nvData, hn]; exact (by decide : (0 : Nat) ≠ 0x4C4B5046))
  rw [hp, Chip.profRead]
  simp [h]
/-- A staging page, and an audit log with or without room. -/
def staged (m : Memory) (full : Bool) : State :=
  withChip live (fun c => { c with crook := { c.crook with staging := m, auditHead := if full then 257 else 0 }
                                   nv := { c.nv with audit := if full then [(1, List.replicate 64 1)] else [] } })
theorem wit_stage (m : Memory) (full : Bool) : (staged m full).frameServed 0x07 (fr [1]) = true
    ∧ ((staged m full).frameAt 0x07 (fr [1])).nv.shelter = none ∧ ((staged m full).frameAt 0x07 (fr [1])).crook.staging = m := by
  cases full <;> exact ⟨rfl, rfl, rfl⟩
theorem wit_room : ((staged [] false).frameAt 0x07 (fr [1])).auditRoom = true ∧ ((staged [] true).frameAt 0x07 (fr [1])).auditRoom = false := by decide +kernel
theorem wit_profileCommit : profOk 1 (memReadN (memWriteN [] 0 profBytes) 0 4096) = true ∧ profOk 1 (memReadN [] 0 4096) = false := by
  refine ⟨?_, profOk_magic _ _ (by decide +kernel)⟩
  have h := memReadN_memWriteN [] 0 profBytes
  rw [profBytes_length] at h
  rw [h]
  exact profOk_profBytes

def aSession (b ending : Bool) : FwSession := { copyB := b, length := 300, bytes := [], seen := [], pages := [], failed := false, ending := ending }
def inSession (b ending : Bool) : State := withCrook (fun k => { k with session := some (aSession b ending) })
theorem wit_session : (inSession true false).frameServed 0x08 (fr (natLe 4 257)) = true ∧ ((inSession true false).frameAt 0x08 (fr (natLe 4 257))).crook.session.isSome = true
    ∧ (live.frameAt 0x08 (fr (natLe 4 257))).crook.session = none ∧ (live.frameAt 0x08 (fr (natLe 4 257))).auditRoom = true
    ∧ (inSession true false).frameServed 0x09 (fr (natLe 4 0 ++ natLe 4 7)) = true
    ∧ ((inSession true false).frameAt 0x09 (fr (natLe 4 0 ++ natLe 4 7))).crook.session = some (aSession true false)
    ∧ (inSession true false).frameServed 0x09 (fr (natLe 4 300 ++ natLe 4 7)) = true
    ∧ 300 < leAt (natLe 4 300 ++ natLe 4 7) 0 4 + ((natLe 4 300 ++ natLe 4 7).drop 4).length
    ∧ (inSession true false).frameServed 0x0A (fr []) = true ∧ ((inSession true false).frameAt 0x0A (fr [])).auditRoom = true
    ∧ (inSession true true).frameServed 0x0A (fr []) = true ∧ ((inSession true true).frameAt 0x0A (fr [])).fwWriting = false
    ∧ (inSession true false).chip.held = false := by decide +kernel

theorem fwBytes_one {c : Chip} {n : Nat} (h1 : 1 ≤ n) (h2 : n ≤ 4096) (hg : c.nvGood (sysPage 0) = true) :
    c.fwBytes false n = some (memReadN c.nv.data (4096 * sysPage 0) n) := by
  have h : ceilDiv n 4096 = 1 := by unfold ceilDiv; omega
  unfold Chip.fwBytes
  simp [h, upto, hg]
/-- The store with the factory's copy A alone, the CRC of its page `x`. -/
def signed (x : W32) : Nv :=
  { live.chip.nv with data := cellsOf (4096 * sysPage 0) firmware0Bytes
                      info := [(sysPage 0, { crc := x, gen := 1, writes := 1, suspect := false, worn := false })] }
def signedCrc : W32 := BitVec.ofNat 32 (crc32c (memReadN (cellsOf (4096 * sysPage 0) firmware0Bytes) (4096 * sysPage 0) 4096))
theorem signed_good {c : Chip} {x : W32} (hx : x = signedCrc) (h : c.nv = signed x) : c.nvGood (sysPage 0) = true :=
  have hd : c.nv.data = cellsOf (4096 * sysPage 0) firmware0Bytes := by rw [h, signed]
  nvGood_of c _ _ (by rw [Chip.nvData, hd]) (by rw [Chip.nvMeta, h]; exact hx)
/-- What verification asks of a copy whose first 256 bytes are `l` and whose bytes are `m`. -/
theorem fwVerify_of {c : Chip} {b : Bool} {l m : List Byte} (h1 : c.fwBytes b 256 = some l) (h2 : c.fwBytes b (256 + leAt l 16 4) = some m)
    (hg : c.fwHeaderGood l = true) (hd : (sha512 (slice m 256 (leAt l 16 4)) == slice l 32 64) = true) :
    c.fwVerify b = some (leAt l 8 4, leAt l 12 2) := by
  simp only [Chip.fwVerify, h1, Option.bind_some, hg, h2, hd, Bool.not_true, Bool.false_eq_true, if_false, if_true]
theorem readHead : memReadN (cellsOf (4096 * sysPage 0) firmware0Bytes) (4096 * sysPage 0) 256 = firmware0Bytes.take 256 := by decide +kernel
theorem readBody : memReadN (cellsOf (4096 * sysPage 0) firmware0Bytes) (4096 * sysPage 0) 257 = firmware0Bytes := by decide +kernel
theorem wit_verify {c : Chip} {x : W32} (hx : x = signedCrc) (hn : c.nv = signed x) (hf : c.fuses = Fuses.init) : c.fwVerify false = some (1, 0) := by
  have hd : c.nv.data = cellsOf (4096 * sysPage 0) firmware0Bytes := by rw [hn, signed]
  have hr : c.rollbacks = 0 := by rw [Chip.rollbacks, hf]; decide
  have hg : c.fwHeaderGood (firmware0Bytes.take 256) = true := by
    rw [Chip.fwHeaderGood, Chip.fwKey, hr, hf]
    decide +kernel
  have h1 := fwBytes_one (n := 256) (by omega) (by omega) (signed_good hx hn)
  have h2 := fwBytes_one (n := 257) (by omega) (by omega) (signed_good hx hn)
  rw [hd, readHead] at h1
  rw [hd, readBody] at h2
  have hb : leAt (firmware0Bytes.take 256) 16 4 = 1 := by decide +kernel
  have hv : leAt (firmware0Bytes.take 256) 8 4 = 1 ∧ leAt (firmware0Bytes.take 256) 12 2 = 0 := by decide +kernel
  have h := fwVerify_of h1 (by rw [hb]; exact h2) hg (by rw [hb]; decide +kernel)
  rw [h, hv.1, hv.2]
theorem wit_verify_none {c : Chip} {x : W32} (hn : c.nv = signed x) : c.fwVerify true = none := by
  have hd : c.nv.data = cellsOf (4096 * sysPage 0) firmware0Bytes := by rw [hn, signed]
  have hz : leAt (memReadN (cellsOf (4096 * sysPage 0) firmware0Bytes) (4096 * sysPage 384) 256) 0 4 = 0 := by decide +kernel
  have h : ∀ l, c.fwBytes true 256 = some l → c.fwHeaderGood l = false := by
    intro l h
    have hl : leAt l 0 4 = 0 := by
      simp only [Chip.fwBytes, if_true, hd] at h
      generalize List.all _ _ = g at h
      cases g
      · cases h
      · rw [if_pos rfl] at h
        rw [← Option.some.inj h]
        exact hz
    rw [Chip.fwHeaderGood, fwHeaderOk, hl]
    rfl
  cases g : c.fwBytes true 256 with
  | none => simp only [Chip.fwVerify, g, Option.bind_none]
  | some l => simp only [Chip.fwVerify, g, Option.bind_some, h l g, Bool.not_false, if_true]
def ended (x : W32) (b : Bool) : State := withChip (inSession b true) (fun c => { c with nv := signed x })
theorem nv_ended (x : W32) (b : Bool) : ((ended x b).frameAt 0x0A (fr [])).nv = signed x ∧ ((ended x b).frameAt 0x0A (fr [])).fuses = Fuses.init
    ∧ (ended x b).frameServed 0x0A (fr []) = true := by cases b <;> exact ⟨rfl, rfl, rfl⟩
theorem wit_fwEnd : ∃ x : W32, ((ended x false).frameAt 0x0A (fr [])).fwVerify false = some (1, 0)
    ∧ ((ended x true).frameAt 0x0A (fr [])).fwVerify true = none :=
  ⟨_, wit_verify rfl (nv_ended _ false).1 (nv_ended _ false).2.1, wit_verify_none (nv_ended _ true).1⟩
/-- A package whose counter stands at 1 above the image of copy A. -/
def burnt (x : W32) : Chip := { live.chip with nv := signed x, fuses := { Fuses.init with rollback := 1 } }
theorem wit_rollback : ∃ x h, (burnt x).fwBytes false 256 = some h ∧ leAt h 12 2 < (burnt x).rollbacks := by
  refine ⟨_, _, fwBytes_one (by omega) (by omega) (signed_good rfl rfl), ?_⟩
  generalize signedCrc = x
  have h : leAt (memReadN (cellsOf (4096 * sysPage 0) firmware0Bytes) (4096 * sysPage 0) 256) 12 2 = 0 := by decide +kernel
  have h2 : (burnt x).rollbacks = popcount 64 (1 : W64).toNat := rfl
  rw [h2, show (burnt x).nv.data = cellsOf (4096 * sysPage 0) firmware0Bytes from rfl, h]
  decide
def newer : State := withCrook (fun k => { k with fwRollback := 1 })
theorem wit_fwCommit : newer.frameServed 0x0B (fr []) = true
    ∧ (newer.frameAt 0x0B (fr [])).rollbacks < (newer.frameAt 0x0B (fr [])).crook.fwRollback.toNat
    ∧ bit (((newer.frameAt 0x0B (fr [])).page pgIDENT).rd 0x120) 10 = false ∧ bit (((newer.frameAt 0x0B (fr [])).page pgIDENT).rd 0x120) 11 = false
    ∧ (newer.frameAt 0x0B (fr [])).recovery = false ∧ (newer.frameAt 0x0B (fr [])).auditRoom = true
    ∧ (live.frameAt 0x0B (fr [])).crook.fwRollback.toNat ≤ (live.frameAt 0x0B (fr [])).rollbacks
    ∧ popcount 64 (0 : W64).toNat + 64 ≤ 64 ∧ (1 : W64).getLsbD 0 = true := by decide +kernel

/-- The neutral point as a key, and a token for CHALLENGE 5 that its signature opens. -/
def zeroKey : List Byte := 1 :: List.replicate 31 0
def token : List Byte := natLe 4 0x4C4B4454 ++ natLe 2 1 ++ natLe 2 7 ++ natLe 8 1 ++ natLe 8 5 ++ natLe 4 60 ++ natLe 4 0 ++ zeroKey ++ List.replicate 32 0
def locked5 : State := withChip live (fun c => { c with fuses := { c.fuses with dbgKey := zeroKey }, dbgLock := { c.dbgLock with challenge := 5 } })
theorem wit_unlock : locked5.frameServed 0x0D (fr token) = true ∧ (locked5.frameAt 0x0D (fr token)).nv.shelter = none
    ∧ (locked5.frameAt 0x0D (fr token)).auditRoom = true ∧ bit (leAt token 6 2) 2 = true ∧ (locked5.frameAt 0x0D (fr token)).residents = []
    ∧ (locked5.frameAt 0x0D (fr token)).placing = false
    ∧ locked5.frameServed 0x0D (fr (List.replicate 96 0)) = true ∧ (locked5.frameAt 0x0D (fr (List.replicate 96 0))).tokenOk (List.replicate 96 0) = false := by decide +kernel
theorem wit_token : (locked5.frameAt 0x0D (fr token)).tokenOk token = true := by decide +kernel
theorem wit_dbgLock : (unlocked live).frameServed 0x0E (fr []) = true ∧ ((unlocked live).frameAt 0x0E (fr [])).auditRoom = true
    ∧ (live.frameAt 0x0E (fr [])).dbgLock.isOpen = false ∧ live.chip.accepts pgAUTH 0x124 .operator = true
    ∧ (unlocked live).chip.dbgLock.isOpen = true ∧ (unlocked live).chip.dbgLock.endsAt ≤ (unlocked live).chip.now
    ∧ (withChip live (fun c => { c with dbgLock := { c.dbgLock with endsAt := 1 } })).chip.now < 1 := by decide +kernel
theorem wit_auditAck : live.frameServed 0x10 (fr (natLe 4 0)) = true ∧ (live.frameAt 0x10 (fr (natLe 4 1))).crook.auditAck.toNat < 1
    ∧ (live.frameAt 0x10 (fr (natLe 4 1))).crook.auditHead.toNat ≤ 1
    ∧ (withCrook (fun k => { k with auditHead := 2 })).frameServed 0x10 (fr (natLe 4 1)) = true
    ∧ ((withCrook (fun k => { k with auditHead := 2 })).frameAt 0x10 (fr (natLe 4 1))).auditOldest ≤ 1
    ∧ 1 < ((withCrook (fun k => { k with auditHead := 2 })).frameAt 0x10 (fr (natLe 4 1))).crook.auditHead.toNat := by decide +kernel
theorem wit_responses : (withCrook (fun k => { k with smbus := [[1, 2]] })).chip.crook.smbus = [1, 2] :: [] ∧ live.chip.crook.smbus = []
    ∧ State.reset.chip.held = true ∧ live.chip.accepts pgCROOK 0x120 .operator = true := by decide

/-! ### Well-formedness -/

/-- Words of a message, and an ill-formed term of each row whose list operand has a shape. -/
def illFormed : List Instr :=
  [.commandShare 0 [1], .torderNop 0 0 0 [], .runChain 0 0 0 [1], .clear 0 0 0 [1] false, .test 0 0 0 [1] 0, .torderReset 0 0 0 [1],
   .bankWrite none 0 [0], .bankWrite none 0 [], .readResp 0 [], .readResp 0 [BitVec.ofNat 64 (2 ^ 38), 1], .readResp 0 [BitVec.ofNat 64 (2 ^ 39)],
   .readResp 0 [0], .registerWrite .bar0 .host 0x100 [], .machineWindowAccess true 0 [], .throttleSample [], .dataFrame 0 [1] 0 0, .idleFrame 0 [] 0 0,
   .hello 0 [1] 0 0, .leave 0 [1] 0 0, .debugApertureAccess false 0 []]
theorem test_illFormed : illFormed.all (fun i => !i.wf) = true := by decide
theorem test_illFormed_stops : illFormed.all (fun i => match exec i live with | .fault .illFormed => true | _ => false) = true := by decide
theorem test_wellFormed : (Instr.commandShare 0 (record 0 0 0 0 0 0)).wf = true ∧ (Instr.bankWrite none 0 [BitVec.ofNat 64 (2 ^ 48), 7]).wf = true
    ∧ (Instr.readResp 0 [BitVec.ofNat 64 (2 ^ 38)]).wf = true ∧ (Instr.readResp 0 [BitVec.ofNat 64 (2 ^ 39 + 2 ^ 48), 7]).wf = true
    ∧ (Instr.registerWrite .bar0 .host 0x100 (List.replicate 65 0)).wf = false := by decide

/-! ### The queue, and numbers worked out by hand -/

theorem test_idle (s : State) (h : s.pending = []) : step s = .next (tick s) := by
  unfold step
  rw [h]
theorem test_step (i : Instr) (s : State) (l : List Instr) : step { s with pending := i :: l } = exec i { s with pending := l } := rfl
theorem test_noWord (n w : Nat) : decodeTableWord n w = none := rfl
/-- The check value of CRC-32C (R523): the digits 1 to 9. -/
theorem test_crc32c : crc32c [0x31, 0x32, 0x33, 0x34, 0x35, 0x36, 0x37, 0x38, 0x39] = 0xE3069283 := by decide +kernel
/-- The worked digest after R838. -/
theorem test_digest : rotl64 0x8A310C5E 0 + rotl64 0x1F0077A2 1 + rotl64 0xC0000003 (65 % 64) = 0x24831FBA8 := by decide +kernel

end Sys2Proof.Tests
end

/-! The slots of a sled, SLED_POWER_UP and ENUMERATION (chapter 19): what each does to the boards and the package, and the place in
the torus that enumeration gives. -/

namespace Sys2Proof.Machine

/-! ### Lists and bit fields as the library has them -/

theorem listSet_eq_set {α : Type} (l : List α) (i : Nat) (v : α) : listSet l i v = l.set i v := by
  induction l generalizing i with
  | nil => rfl
  | cons a l ih =>
    cases i with
    | zero => rfl
    | succ i => exact congrArg (a :: ·) (ih i)

theorem nth_eq_getD {α : Type} (d : α) (l : List α) (i : Nat) : nth d l i = l.getD i d := by
  induction l generalizing i with
  | nil => rfl
  | cons a l ih =>
    cases i with
    | zero => rfl
    | succ i => exact ih i

theorem nth_listSet_same {α : Type} (d : α) (l : List α) (v : α) {i : Nat} (h : i < l.length) : nth d (listSet l i v) i = v := by
  rw [nth_eq_getD, listSet_eq_set, List.getD_eq_getElem?_getD, List.getElem?_set_self h, Option.getD_some]

theorem bits_eq_div_mod (n hi lo : Nat) : bits n hi lo = n / 2 ^ lo % 2 ^ (hi + 1 - lo) := by
  rw [bits, Nat.shiftRight_eq_div_pow]

/-- The three fields of TORUS_DIM, of four bits each. -/
theorem bits_dimWord {a b c : Nat} (ha : a < 16) (hb : b < 16) (hc : c < 16) :
    bits (a + 16 * b + 256 * c) 3 0 = a ∧ bits (a + 16 * b + 256 * c) 7 4 = b ∧ bits (a + 16 * b + 256 * c) 11 8 = c := by
  rw [bits_eq_div_mod, bits_eq_div_mod, bits_eq_div_mod]
  omega

/-- The three fields of TORUS_POS, of three bits at every fourth place (R731). -/
theorem bits_posWord {a b c : Nat} (ha : a < 8) (hb : b < 8) (hc : c < 8) :
    bits (a + 16 * b + 256 * c) 2 0 = a ∧ bits (a + 16 * b + 256 * c) 6 4 = b ∧ bits (a + 16 * b + 256 * c) 10 8 = c := by
  rw [bits_eq_div_mod, bits_eq_div_mod, bits_eq_div_mod]
  omega

/-- The fields of the TORUS_POS that holds a slot alone. -/
theorem bits_slotWord {c : Nat} (hc : c < 16) : bits (256 * c) 7 0 = 0 ∧ bits (256 * c) 11 8 = c := by
  rw [bits_eq_div_mod, bits_eq_div_mod]
  omega

/-! ### Slots go up and down (R621–R624, R760) -/

@[simp] theorem Sled.slot_setSlot (x : Sled) (k : DieId) (f : SledSlot → SledSlot) : (x.setSlot k f).slot = x.slot := rfl

theorem Sled.slotAt_setSlot_same {x : Sled} (h : x.slots.length = 4) (k : DieId) (f : SledSlot → SledSlot) :
    (x.setSlot k f).slotAt k = f (x.slotAt k) :=
  nth_listSet_same _ _ _ (by omega)

/-- A package held by POR_N boots once its rails are there and POR_N goes high. -/
theorem Chip.powerUp_of_porLow {c : Chip} (h : c.porLow = true) (pins : BitVec 2) :
    c.powerUp pins = ({ c with railsOut := false, porLow := false } : Chip).boot pins := by
  simp [Chip.powerUp, Chip.porRelease, h]

/-- A package that runs is reset as POR_N goes low, and then loses its rails. -/
theorem Chip.powerDown_of_porHigh {c : Chip} (h : c.porLow = false) :
    c.powerDown = { ({ c with porLow := true } : Chip).packageReset 1 with railsOut := true } := by
  simp [Chip.powerDown, Chip.porAssert, h]

theorem State.slots_slotOn (s : State) (k : DieId) :
    (s.slotOn k).sled.slots = (s.sled.setSlot k (fun e => { e with rails := true, porLow := false })).slots := by
  unfold State.slotOn
  dsimp only
  split <;> rfl

theorem State.slots_slotOff (s : State) (k : DieId) :
    (s.slotOff k).sled.slots = (s.sled.setSlot k (fun e => { e with rails := false, porLow := true })).slots := by
  unfold State.slotOff
  dsimp only
  split <;> rfl

theorem State.slotAt_slotOn (s : State) (k : DieId) (h : s.sled.slots.length = 4) :
    (s.slotOn k).sled.slotAt k = { s.sled.slotAt k with rails := true, porLow := false } := by
  rw [Sled.slotAt, s.slots_slotOn]
  exact Sled.slotAt_setSlot_same h k _

theorem State.slotAt_slotOff (s : State) (k : DieId) (h : s.sled.slots.length = 4) :
    (s.slotOff k).sled.slotAt k = { s.sled.slotAt k with rails := false, porLow := true } := by
  rw [Sled.slotAt, s.slots_slotOff]
  exact Sled.slotAt_setSlot_same h k _

theorem State.chip_slotOn (s : State) (k : DieId) :
    (s.slotOn k).chip = if k = s.sled.slot then s.chip.powerUp (s.sled.slotAt k).pins else s.chip := by
  by_cases h : k = s.sled.slot <;> simp [State.slotOn, h]

theorem State.chip_slotOff (s : State) (k : DieId) :
    (s.slotOff k).chip = if k = s.sled.slot then s.chip.powerDown else s.chip := by
  by_cases h : k = s.sled.slot <;> simp [State.slotOff, h]

/-! ### SLED_POWER_UP (R795) -/

theorem exec_sledPowerUp (s : State) : exec .sledPowerUp s = .next (s.settledTo s.sledPowerUp) := rfl

theorem State.sledPowerUp_stays {s : State} (h : s.shelf.state ≠ .mains ∨ 16 ≤ s.sled.powered) : s.sledPowerUp = s := by
  simp [State.sledPowerUp, h]

/-- The next sled's turn has come, and the shelf lets it. -/
theorem State.sledPowerUp_next {s : State} (hm : s.shelf.state = .mains) (hp : s.sled.powered < 16) {t : State}
    (ht : t = { s with sled := { s.sled with powered := s.sled.powered + 1 } }) :
    s.sledPowerUp = if s.sled.powered = s.sled.place.toNat then (((t.slotOn 0).slotOn 1).slotOn 2).slotOn 3 else t := by
  subst ht
  simp [State.sledPowerUp, hm, Nat.not_le.mpr hp]

/-! ### ENUMERATION (R765–R767) -/

theorem exec_enumeration (s : State) : exec .enumeration s = .next (s.settledTo s.enumerate) := rfl

theorem State.enumerate_stays {s : State} (h : s.chip.held = true ∨ s.chip.recovery = true) : s.enumerate = s := by
  simp [State.enumerate, h]

/-- The registers that the sled controller writes with OPERATOR authority, in its order: TORUS_DIM, TORUS_POS, HOME_PKG and the lock. -/
def Chip.enumerated (c : Chip) (t : Nat × Nat × Nat) : Chip :=
  let x := (c.writeAt (pgLINK * 4096 + 0x180) t.1 3 none).1
  let y := (x.writeAt (pgLINK * 4096 + 0x184) t.2.1 3 none).1
  let z := (y.writeAt (pgGATE * 4096 + 0x10C) t.2.2 3 none).1
  (z.writeAt (pgLINK * 4096 + 0x00C) 1 3 none).1

theorem State.enumerate_runs {s : State} (hh : s.chip.held = false) (hr : s.chip.recovery = false) :
    s.enumerate = { s with chip := s.chip.enumerated s.sled.torus } := by
  simp only [State.enumerate, hh, hr, Bool.or_self, Bool.false_eq_true, if_false]
  rfl

/-! ### Places in the torus (R765, R766, R731) -/

/-- The number of a sled in its machine, i = 16·r + s (R766). -/
def Sled.index (x : Sled) : Nat := 16 * x.rack.toNat + x.place.toNat

theorem Sled.index_lt {x : Sled} {n : Nat} (h : x.rack.toNat < n) : x.index < 16 * n := by
  have := x.place.isLt
  simp only [Sled.index]
  omega

theorem Sled.index_injective {x y : Sled} (h : x.index = y.index) : x.rack = y.rack ∧ x.place = y.place := by
  have hx := x.place.isLt
  have hy := y.place.isLt
  simp only [Sled.index] at h
  exact ⟨BitVec.eq_of_toNat_eq (by omega), BitVec.eq_of_toNat_eq (by omega)⟩

/-- The dimensions fit in their fields, and a layer of the torus has one place for each sled of the machine. -/
theorem rackDims_bounds {n : Nat} (h1 : 1 ≤ n) (h4 : n ≤ 4) :
    0 < (rackDims n).1 ∧ (rackDims n).1 ≤ 8 ∧ (rackDims n).2 ≤ 8 ∧ (rackDims n).1 * (rackDims n).2 = 16 * n := by
  obtain rfl | rfl | rfl | rfl : n = 1 ∨ n = 2 ∨ n = 3 ∨ n = 4 := by omega
  all_goals decide

theorem rackDims_of_pos {n : Nat} (h : 1 ≤ n) :
    rackDims n = if n = 1 then (4, 4) else if n = 2 then (8, 4) else if n = 3 then (8, 6) else (8, 8) := by
  simp only [rackDims, show n ≤ 1 ↔ n = 1 by omega]

/-- DX and DY of the machine of racks that the sled stands in (R765). -/
def Sled.layer (x : Sled) : Nat × Nat := rackDims x.racks.toNat

/-- TORUS_DIM of a machine of racks. -/
theorem Sled.torusDim_of_racks {x : Sled} (h : x.standalone = false) :
    x.torus.1 = x.layer.1 + 16 * x.layer.2 + 256 * 4 := by
  simp [Sled.torus, Sled.layer, h]

/-- TORUS_POS in a machine of racks. -/
theorem Sled.torusPos_of_racks {x : Sled} (h : x.standalone = false) :
    x.torus.2.1 = x.index % x.layer.1 + 16 * (x.index / x.layer.1) + 256 * x.slot.val := by
  simp [Sled.torus, Sled.layer, Sled.index, h]

theorem Sled.layer_bounds {x : Sled} (h1 : 1 ≤ x.racks.toNat) (h4 : x.racks.toNat ≤ 4) :
    0 < x.layer.1 ∧ x.layer.1 ≤ 8 ∧ x.layer.2 ≤ 8 ∧ x.layer.1 * x.layer.2 = 16 * x.racks.toNat :=
  rackDims_bounds h1 h4

/-- The fields of TORUS_DIM are the dimensions, with DZ = 4. -/
theorem Sled.torusDim_fields {x : Sled} (h : x.standalone = false) (h1 : 1 ≤ x.racks.toNat) (h4 : x.racks.toNat ≤ 4) :
    bits x.torus.1 3 0 = x.layer.1 ∧ bits x.torus.1 7 4 = x.layer.2 ∧ bits x.torus.1 11 8 = 4 := by
  obtain ⟨_, hcols, hrows, _⟩ := Sled.layer_bounds h1 h4
  rw [Sled.torusDim_of_racks h]
  exact bits_dimWord (by omega) (by omega) (by omega)

theorem Sled.torus_of_standalone {x : Sled} (h : x.standalone = true) : x.torus.1 = 1 + 16 * 1 + 256 * 4 ∧ x.torus.2.1 = 256 * x.slot.val := by
  simp [Sled.torus, h]

section
/-! A sled of a machine of one to four racks. -/
variable {x : Sled} (h1 : 1 ≤ x.racks.toNat) (h4 : x.racks.toNat ≤ 4) (hr : x.rack.toNat < x.racks.toNat)
include h1 h4 hr

theorem Sled.row_lt : x.index / x.layer.1 < x.layer.2 := by
  obtain ⟨_, _, _, hplaces⟩ := Sled.layer_bounds h1 h4
  exact Nat.div_lt_of_lt_mul (hplaces ▸ Sled.index_lt hr)

/-- Both coordinates in the layer fit in three bits. -/
theorem Sled.coords_lt : x.index % x.layer.1 < 8 ∧ x.index / x.layer.1 < 8 := by
  obtain ⟨hpos, hcols, hrows, _⟩ := Sled.layer_bounds h1 h4
  exact ⟨Nat.lt_of_lt_of_le (Nat.mod_lt _ hpos) hcols, Nat.lt_of_lt_of_le (Sled.row_lt h1 h4 hr) hrows⟩

/-- The fields of TORUS_POS are the column, the row and the slot. -/
theorem Sled.torusPos_fields (h : x.standalone = false) :
    bits x.torus.2.1 3 0 = x.index % x.layer.1 ∧ bits x.torus.2.1 7 4 = x.index / x.layer.1 ∧ bits x.torus.2.1 11 8 = x.slot.val := by
  obtain ⟨hcol, hrow⟩ := Sled.coords_lt h1 h4 hr
  rw [Sled.torusPos_of_racks h]
  exact bits_dimWord (by omega) (by omega) (by omega)

/-- The package number that follows from the two registers (R731). -/
theorem Sled.pkg_of_torus (h : x.standalone = false) {c : Chip} (hd : (c.page pgLINK).rd 0x180 = x.torus.1)
    (hp : (c.page pgLINK).rd 0x184 = x.torus.2.1) :
    c.pkg = x.index % x.layer.1 + x.layer.1 * (x.index / x.layer.1) + x.layer.1 * x.layer.2 * x.slot.val := by
  obtain ⟨hcol, hrow⟩ := Sled.coords_lt h1 h4 hr
  obtain ⟨dx, dy, _⟩ := Sled.torusDim_fields h h1 h4
  obtain ⟨px, py, pz⟩ := bits_posWord hcol hrow (c := x.slot.val) (by omega)
  simp only [Chip.pkg, Chip.posOf, Chip.dimOf, Chip.torusDim, Chip.torusPos, hd, hp, Sled.torusPos_of_racks h, Nat.reduceMul, Nat.reduceAdd,
    dx, dy, px, py, pz]

end

/-- Sleds of one machine at the same position are the same slot of the same sled of the same rack. -/
theorem Sled.torusPos_injective {x y : Sled} (hx : x.standalone = false) (hy : y.standalone = false) (hn : x.racks = y.racks)
    (h1 : 1 ≤ x.racks.toNat) (h4 : x.racks.toNat ≤ 4) (hrx : x.rack.toNat < x.racks.toNat) (hry : y.rack.toNat < y.racks.toNat)
    (h : x.torus.2.1 = y.torus.2.1) : x.rack = y.rack ∧ x.place = y.place ∧ x.slot = y.slot := by
  obtain ⟨cx, rx, zx⟩ := Sled.torusPos_fields h1 h4 hrx hx
  obtain ⟨cy, ry, zy⟩ := Sled.torusPos_fields (hn ▸ h1) (hn ▸ h4) hry hy
  have hl : x.layer = y.layer := by rw [Sled.layer, hn, Sled.layer]
  have hcol : x.index % x.layer.1 = y.index % x.layer.1 := by rw [← cx, h, cy, hl]
  have hrow : x.index / x.layer.1 = y.index / x.layer.1 := by rw [← rx, h, ry, hl]
  have hslot : x.slot = y.slot := Fin.ext (by rw [← zx, h, zy])
  have hindex : x.index = y.index := by
    rw [← Nat.div_add_mod x.index x.layer.1, hrow, hcol, Nat.div_add_mod]
  obtain ⟨hrack, hplace⟩ := Sled.index_injective hindex
  exact ⟨hrack, hplace, hslot⟩

/-! ### The statement -/

/-- A slot that is powered on or off, and the package in it. -/
theorem slots_power (s : State) (k : DieId) (h : s.sled.slots.length = 4) :
    ((s.slotOn k).sled.slotAt k).rails = true ∧ ((s.slotOn k).sled.slotAt k).porLow = false ∧ ((s.slotOn k).sled.slotAt k).pins = (s.sled.slotAt k).pins
    ∧ ((s.slotOff k).sled.slotAt k).rails = false ∧ ((s.slotOff k).sled.slotAt k).porLow = true
    ∧ (k ≠ s.sled.slot → (s.slotOn k).chip = s.chip ∧ (s.slotOff k).chip = s.chip)
    ∧ (k = s.sled.slot → s.chip.porLow = true →
        (s.slotOn k).chip = ({ s.chip with railsOut := false, porLow := false } : Chip).boot (s.sled.slotAt k).pins)
    ∧ (k = s.sled.slot → s.chip.porLow = false →
        (s.slotOff k).chip = { ({ s.chip with porLow := true } : Chip).packageReset 1 with railsOut := true }) := by
  rw [s.slotAt_slotOn k h, s.slotAt_slotOff k h, s.chip_slotOn, s.chip_slotOff]
  refine ⟨rfl, rfl, rfl, rfl, rfl, fun hk => ?_, fun hk hp => ?_, fun hk hp => ?_⟩
  · rw [if_neg hk, if_neg hk]
    exact ⟨rfl, rfl⟩
  · rw [if_pos hk, Chip.powerUp_of_porLow hp]
  · rw [if_pos hk, Chip.powerDown_of_porHigh hp]

/-- Settles O59: each slot by what powering it does to its record and to the package, each command by its cases, and the places of
enumeration by reading back the fields of the two torus words. -/
theorem sledsPowerUpAndEnumerate : Obligations.SledsPowerUpAndEnumerate := by
  unfold Obligations.SledsPowerUpAndEnumerate
  refine ⟨⟨slots_power, fun s => ⟨fun h => ?_, fun hm hp => ⟨_, rfl, fun hn => ?_, fun hn => ?_⟩⟩,
    fun s => ⟨fun h => ?_, fun hh hr => ⟨s.chip.enumerated s.sled.torus, ?_, _, _, _, rfl, rfl, rfl, rfl⟩⟩⟩,
    ?_, fun x h => ?_, fun x y => Sled.torusPos_injective⟩
  · rw [exec_sledPowerUp, State.sledPowerUp_stays h]
  · rw [exec_sledPowerUp, State.sledPowerUp_next hm hp rfl, if_neg hn]
  · rw [exec_sledPowerUp, State.sledPowerUp_next hm hp rfl, if_pos hn]
  · rw [exec_enumeration, State.enumerate_stays h]
  · rw [exec_enumeration, State.enumerate_runs hh hr, State.settled]
  · intro x i d h h1 h4 hr hi hd
    obtain rfl : i = x.index := hi
    obtain rfl : d = x.layer := hd.trans (rackDims_of_pos h1).symm
    obtain ⟨dx, dy, dz⟩ := Sled.torusDim_fields h h1 h4
    obtain ⟨px, py, pz⟩ := Sled.torusPos_fields h1 h4 hr h
    exact ⟨dx, dy, dz, px, py, pz, Sled.row_lt h1 h4 hr, fun c => Sled.pkg_of_torus h1 h4 hr h⟩
  · obtain ⟨hdim, hpos⟩ := Sled.torus_of_standalone h
    obtain ⟨dx, dy, _⟩ := hdim ▸ bits_dimWord (a := 1) (b := 1) (c := 4) (by decide) (by decide) (by decide)
    obtain ⟨pxy, pz⟩ := hpos ▸ bits_slotWord (c := x.slot.val) (by omega)
    exact ⟨dx, dy, pxy, pz⟩

end Sys2Proof.Machine

/-! The firmware session, FW_COMMIT and the rollback counter (R796, R807–R809, R822). -/

namespace Sys2Proof.Machine

/-! ### Rollback bits (R796) -/

theorem bit_eq_testBit (n i : Nat) : bit n i = n.testBit i := by
  rw [bit, Nat.shiftRight_eq_div_pow, Nat.testBit_eq_decide_div_mod_eq, Bool.beq_eq_decide_eq]

theorem bit_toNat (w : W64) (i : Nat) : bit w.toNat i = w.getLsbD i := bit_eq_testBit w.toNat i

/-- The count of a word's bits. -/
theorem popcount_toNat (w : W64) : popcount 64 w.toNat = (upto 64).countP w.getLsbD := by
  rw [popcount, List.countP_eq_length_filter, funext (bit_toNat w)]

/-- One more place counted, of the places below `n`. -/
theorem countP_upto_or {p : Nat → Bool} {i : Nat} (hp : p i = false) (n : Nat) :
    (upto n).countP (fun j => p j || decide (j = i)) = (upto n).countP p + if i < n then 1 else 0 := by
  induction n with
  | zero => rfl
  | succ n ih =>
    rw [upto] at ih
    rw [upto, List.range_succ, List.countP_append, List.countP_append, ih, List.countP_singleton, List.countP_singleton]
    by_cases hn : n = i
    · subst hn
      rw [hp, decide_eq_true rfl, Bool.false_or, if_pos rfl, if_neg Bool.false_ne_true, if_neg (Nat.lt_irrefl n), if_pos (Nat.lt_succ_self n)]
    · have hlt : i < n + 1 ↔ i < n := by omega
      simp only [hlt, decide_eq_false hn, Bool.or_false]
      exact Nat.add_right_comm _ _ _

theorem getLsbD_setBit (w : W64) {i : Nat} (hi : i < 64) (j : Nat) :
    (w ||| BitVec.ofNat 64 (2 ^ i)).getLsbD j = (w.getLsbD j || decide (j = i)) := by
  rw [BitVec.getLsbD_or, BitVec.getLsbD_ofNat, Nat.testBit_two_pow]
  by_cases h : j = i
  · subst h
    simp [hi]
  · simp [h, Ne.symm h]

/-- A clear bit set raises the count by one. -/
theorem popcount_setBit {w : W64} {i : Nat} (hi : i < 64) (hw : w.getLsbD i = false) :
    popcount 64 (w ||| BitVec.ofNat 64 (2 ^ i)).toNat = popcount 64 w.toNat + 1 := by
  rw [popcount_toNat, popcount_toNat, funext (getLsbD_setBit w hi), countP_upto_or hw, if_pos hi]

/-- A word in which the search finds no clear bit has all 64 set. -/
theorem popcount_full {w : W64} (h : (upto 64).find? (fun i => !w.getLsbD i) = none) : popcount 64 w.toNat = 64 := by
  have hall : ∀ i ∈ upto 64, w.getLsbD i = true := fun i hi => by
    simpa only [Bool.not_eq_true, Bool.not_eq_false'] using List.find?_eq_none.1 h i hi
  rw [popcount_toNat, List.countP_eq_length.2 hall, upto, List.length_range]

/-- The place that the search gives holds a clear bit of the word. -/
theorem clear_of_find {w : W64} {i : Nat} (h : (upto 64).find? (fun i => !w.getLsbD i) = some i) : i < 64 ∧ w.getLsbD i = false :=
  ⟨List.mem_range.1 (List.mem_of_find?_eq_some h), by simpa using List.find?_some h⟩

/-- Setting rollback bits clears none. -/
theorem getLsbD_setRollback {n : Nat} {w : W64} {j : Nat} (h : w.getLsbD j = true) : (setRollback n w).getLsbD j = true := by
  induction n generalizing w with
  | zero => exact h
  | succ n ih =>
    unfold setRollback
    split
    next i hi =>
      apply ih
      rw [getLsbD_setBit w (clear_of_find hi).1, h, Bool.true_or]
    next => exact h

/-- Setting `n` rollback bits raises the counter by `n`, as long as that many are clear. -/
theorem popcount_setRollback {n : Nat} {w : W64} (h : popcount 64 w.toNat + n ≤ 64) :
    popcount 64 (setRollback n w).toNat = popcount 64 w.toNat + n := by
  induction n generalizing w with
  | zero => rfl
  | succ n ih =>
    unfold setRollback
    split
    next i hi =>
      obtain ⟨hlt, hclear⟩ := clear_of_find hi
      have hone := popcount_setBit hlt hclear
      rw [ih (by omega), hone]
      omega
    next hnone =>
      have hfull := popcount_full hnone
      omega

/-! ### Audit entries of the session (R815) -/

section
variable (c : Chip) (event cls st : Nat) (l : List Byte)

theorem Chip.audit_of_room (h : c.auditRoom = true) : c.audit event cls st l = (c.auditPut event cls st l, true) := by
  rw [Chip.audit, if_pos h]

@[simp] theorem Chip.auditPut_session : (c.auditPut event cls st l).crook.session = c.crook.session := rfl
@[simp] theorem Chip.auditPut_fwRollback : (c.auditPut event cls st l).crook.fwRollback = c.crook.fwRollback := rfl
@[simp] theorem Chip.auditPut_fuses : (c.auditPut event cls st l).fuses = c.fuses := rfl
@[simp] theorem Chip.auditPut_queue : (c.auditPut event cls st l).nv.queue = c.nv.queue := rfl
@[simp] theorem Chip.auditPut_nvMeta (pg : Nat) : (c.auditPut event cls st l).nvMeta pg = c.nvMeta pg := rfl

@[simp] theorem Chip.audit_session : (c.audit event cls st l).1.crook.session = c.crook.session := by
  unfold Chip.audit
  split <;> rfl

end

/-! ### What each operation of the session does (R808, R809, R822) -/

section
variable {c : Chip} {x : FwSession}

theorem Chip.fwBegin_busy (h : c.crook.session.isSome = true) (n : Nat) : c.fwBegin n = (c, stNO_PLACE, []) := by
  rw [Chip.fwBegin, if_pos h]

/-- FW_BEGIN opens the session on the copy not in use, and queues zeros for its first page. -/
theorem Chip.fwBegin_opens (h : c.crook.session = none) (hr : c.auditRoom = true) {b : Bool} (hb : b = (!c.recovery && !c.crook.fwCopyB)) (n : Nat) :
    ∃ t : Chip, c.fwBegin n = (t, stOK, natLe 1 (b2n b))
      ∧ t.crook.session = some { copyB := b, length := n, bytes := [], seen := [], pages := [], failed := false, ending := false }
      ∧ t.nv.queue = c.nv.queue ++ [c.fwWrite b 0 (List.replicate 4096 0)] := by
  subst hb
  simp only [Chip.fwBegin, h, Option.isSome_none, c.audit_of_room _ _ _ _ hr, Bool.not_true, Bool.false_eq_true, if_false]
  exact ⟨_, rfl, rfl, rfl⟩

theorem Chip.fwData_outside (h : c.crook.session = some x) (hf : x.failed = false) {off : Nat} {l : List Byte} (hl : x.length < off + l.length) :
    c.fwData off l = (c, stBAD_OPERAND) := by
  simp only [Chip.fwData, h, hf, hl, Bool.false_eq_true, if_false, if_true]

/-- FW_DATA keeps bytes that lie in the image. -/
theorem Chip.fwData_inside (h : c.crook.session = some x) (hf : x.failed = false) {off : Nat} {l : List Byte} (hl : off + l.length ≤ x.length) :
    ∃ (t : Chip) (y : FwSession), c.fwData off l = (t, stOK) ∧ t.crook.session = some y
      ∧ y.bytes = memWriteN x.bytes off l ∧ y.length = x.length ∧ y.copyB = x.copyB := by
  simp only [Chip.fwData, h, hf, Nat.not_lt.mpr hl, Bool.false_eq_true, if_false]
  exact ⟨_, _, rfl, rfl, rfl, rfl, rfl⟩

theorem Chip.fwEnding_session (c : Chip) (x : FwSession) : (c.fwEnding x).crook.session = some { x with ending := true } := rfl

/-- FW_END's end closes the session, whatever the copy is. -/
theorem Chip.fwEnded_session (c : Chip) (x : FwSession) : (c.fwEnded x).1.crook.session = none := by
  unfold Chip.fwEnded
  dsimp only
  generalize (if x.failed then none else c.fwVerify x.copyB) = v
  cases v <;> exact Chip.audit_session _ _ _ _ _

theorem Chip.fwEnded_verified (hf : x.failed = false) {ver rb : Nat} (hv : c.fwVerify x.copyB = some (ver, rb)) :
    (c.fwEnded x).2 = (stOK, natLe 4 ver ++ natLe 2 rb) := by
  simp only [Chip.fwEnded, hf, hv, Bool.false_eq_true, if_false, Option.elim_some]

theorem Chip.fwEnded_unverified (hf : x.failed = false) (hv : c.fwVerify x.copyB = none) : (c.fwEnded x).2 = (stBAD_OPERAND, []) := by
  simp only [Chip.fwEnded, hf, hv, Bool.false_eq_true, if_false, Option.elim_none, Option.isSome_none]

theorem Chip.fwCommit_refused {boot : Nat} (hb : boot = (c.page pgIDENT).rd 0x120)
    (h : c.crook.fwRollback.toNat ≤ c.rollbacks ∨ bit boot 10 = true ∨ bit boot 11 = true ∨ c.recovery = true) :
    c.fwCommit = (c, stBAD_OPERAND, []) := by
  subst hb
  have hcond : (decide (c.crook.fwRollback.toNat ≤ c.rollbacks) || bit ((c.page pgIDENT).rd 0x120) 10
      || bit ((c.page pgIDENT).rd 0x120) 11 || c.recovery) = true := by
    simpa only [Bool.or_eq_true, decide_eq_true_eq, or_assoc] using h
  exact if_pos hcond

/-- FW_COMMIT sets the rollback bits that bring the counter up to that of the running image. -/
theorem Chip.fwCommit_sets {boot : Nat} (hb : boot = (c.page pgIDENT).rd 0x120) (hlt : c.rollbacks < c.crook.fwRollback.toNat)
    (h10 : bit boot 10 = false) (h11 : bit boot 11 = false) (hrec : c.recovery = false) (hr : c.auditRoom = true) :
    ∃ t : Chip, c.fwCommit = (t, stOK, natLe 1 t.rollbacks)
      ∧ t.fuses.rollback = setRollback (c.crook.fwRollback.toNat - c.rollbacks) c.fuses.rollback := by
  subst hb
  simp only [Chip.fwCommit, Nat.not_le.mpr hlt, h10, h11, hrec, c.audit_of_room _ _ _ _ hr, Bool.or_self, Bool.not_true,
    decide_false, Bool.false_eq_true, if_false]
  exact ⟨_, rfl, rfl⟩

/-- The counter that those bits give. -/
theorem Chip.rollbacks_of_set {c t : Chip} {n : Nat} (h : t.fuses.rollback = setRollback (n - c.rollbacks) c.fuses.rollback)
    (hlt : c.rollbacks < n) (hn : n ≤ 64) : t.rollbacks = n := by
  have hc : popcount 64 c.fuses.rollback.toNat = c.rollbacks := rfl
  rw [Chip.rollbacks, h, popcount_setRollback (by omega)]
  omega

/-- A copy whose ROLLBACK is below the counter does not verify. -/
theorem Chip.fwVerify_below {b : Bool} {h : List Byte} (hb : c.fwBytes b 256 = some h) (hlt : leAt h 12 2 < c.rollbacks) : c.fwVerify b = none := by
  have hle : Nat.ble c.rollbacks (leAt h 12 2) = false := by
    rw [Bool.eq_false_iff, ne_eq, Nat.ble_eq]
    omega
  have hbad : c.fwHeaderGood h = false := by
    simp only [Chip.fwHeaderGood, hle, Bool.and_false, Bool.false_and]
  simp only [Chip.fwVerify, hb, Option.bind_some, hbad, Bool.not_false, if_true]

theorem Chip.sessionIdle_open (h : c.crook.session = some x) (he : x.ending = false) : c.sessionIdle = c.fwDrop := by
  simp only [Chip.sessionIdle, h, he, Bool.false_eq_true, if_false]

theorem Chip.sessionIdle_none (h : c.crook.session = none) : c.sessionIdle = c := by
  simp only [Chip.sessionIdle, h]

end

/-! ### Serving the frames of the session -/

section
variable {c : Chip} (hsh : c.nv.shelter = none) (hold : Bool) (via : Transport) (tag : W16) (b : List Byte)
include hsh

theorem Chip.serveType_fwBegin :
    c.serveType hold via 0x08 tag b = .reply (c.fwBegin (leAt b 0 4)).1 (c.fwBegin (leAt b 0 4)).2.1 (c.fwBegin (leAt b 0 4)).2.2 := by
  simp only [Chip.serveType, hsh, Option.isSome_none, Bool.and_false, Bool.false_eq_true, if_false]

theorem Chip.serveType_fwData :
    c.serveType hold via 0x09 tag b = .reply (c.fwData (leAt b 0 4) (b.drop 4)).1 (c.fwData (leAt b 0 4) (b.drop 4)).2 [] := by
  simp only [Chip.serveType, hsh, Option.isSome_none, Bool.and_false, Bool.false_eq_true, if_false]

theorem Chip.serveType_fwEnd_begins {x : FwSession} (h : c.crook.session = some x) (he : x.ending = false) (hr : c.auditRoom = true) :
    c.serveType hold via 0x0A tag b = .wait (c.fwEnding x) := by
  simp only [Chip.serveType, hsh, h, he, hr, Option.isSome_none, Bool.and_false, Bool.not_true, Bool.not_false, Bool.false_eq_true, if_false, if_true]

theorem Chip.serveType_fwEnd_ends {x : FwSession} (h : c.crook.session = some x) (he : x.ending = true) (hw : c.fwWriting = false) :
    c.serveType hold via 0x0A tag b = .reply (c.fwEnded x).1 (c.fwEnded x).2.1 (c.fwEnded x).2.2 := by
  simp only [Chip.serveType, hsh, h, he, hw, Option.isSome_none, Bool.and_false, Bool.not_true, Bool.false_eq_true, if_false]

theorem Chip.serveType_fwCommit : c.serveType hold via 0x0B tag b = .reply c.fwCommit.1 c.fwCommit.2.1 c.fwCommit.2.2 := by
  simp only [Chip.serveType, hsh, Option.isSome_none, Bool.and_false, Bool.false_eq_true, if_false]

end

/-- A frame that waits, having changed the session: it stays at the head of its queue, and the Crook goes on. -/
theorem takes_of_wait {s : State} {i : Instr} {type : Nat} {f : Frame} {d : Chip} (hi : exec i s = s.runFrame (fun c => c.frameArrives type f))
    (h : s.frameServed type f = true) (ht : type ≤ 0x13) (hs : (s.frameAt type f).serveType s.sled.stormHold f.via type f.tag f.payload = .wait d)
    (hne : d.crook.session ≠ (s.frameAt type f).crook.session) :
    s.takes i (fun c => c = ({ d with crook := { d.crook with
      frames := (s.framed type f).crook.frames, mboxHeld := (s.framed type f).crook.mboxHeld } } : Chip).crookServe s.sled.stormHold 63) := by
  have hturn := frame_turn s.sled.stormHold h ht
  rw [hs] at hturn
  have hheld : (s.framed type f).held = false := by
    unfold State.frameServed at h
    simp only [Bool.and_eq_true] at h
    obtain ⟨⟨hfirst, _⟩, _⟩ := h
    exact (frame_first hfirst).1
  refine ⟨_, ?_, rfl⟩
  rw [hi]
  exact congrArg (fun x => Host.Outcome.next (s.settled x)) (serve_of_turn hheld (hturn.trans (if_neg hne)))

/-- A command of a package that runs. -/
theorem State.run_of_running {s : State} (h : s.chip.held = false) (f : Chip → Chip) : s.run f = .next (s.settled (f s.chip)) := by
  rw [State.run, if_neg (by rw [h]; exact Bool.false_ne_true)]

section
/-! A frame of the session that the Crook serves while no shelter save runs. -/
variable {s : State} {f : Frame}

theorem answers_fwBegin (h : s.frameServed 0x08 f = true) (hsh : (s.frameAt 0x08 f).nv.shelter = none) {t : Chip} {st : Nat} {l : List Byte}
    (hr : (s.frameAt 0x08 f).fwBegin (leAt f.payload 0 4) = (t, st, l)) : s.answers (.fwBegin f) 0x08 f t st l :=
  answers_of_serve rfl h (by decide) (by rw [Chip.serveType_fwBegin hsh, hr])

theorem answers_fwData (h : s.frameServed 0x09 f = true) (hsh : (s.frameAt 0x09 f).nv.shelter = none) {t : Chip} {st : Nat}
    (hr : (s.frameAt 0x09 f).fwData (leAt f.payload 0 4) (f.payload.drop 4) = (t, st)) : s.answers (.fwData f) 0x09 f t st [] :=
  answers_of_serve rfl h (by decide) (by rw [Chip.serveType_fwData hsh, hr])

theorem answers_fwCommit (h : s.frameServed 0x0B f = true) (hsh : (s.frameAt 0x0B f).nv.shelter = none) {t : Chip} {st : Nat} {l : List Byte}
    (hr : (s.frameAt 0x0B f).fwCommit = (t, st, l)) : s.answers (.fwCommit f) 0x0B f t st l :=
  answers_of_serve rfl h (by decide) (by rw [Chip.serveType_fwCommit hsh, hr])

theorem takes_fwEnd_begins (h : s.frameServed 0x0A f = true) (hsh : (s.frameAt 0x0A f).nv.shelter = none) {x : FwSession}
    (hx : (s.frameAt 0x0A f).crook.session = some x) (he : x.ending = false) (hr : (s.frameAt 0x0A f).auditRoom = true) :
    s.takes (.fwEnd f) (fun c => c = ({ (s.frameAt 0x0A f).fwEnding x with crook := { ((s.frameAt 0x0A f).fwEnding x).crook with
      frames := (s.framed 0x0A f).crook.frames, mboxHeld := (s.framed 0x0A f).crook.mboxHeld } } : Chip).crookServe s.sled.stormHold 63) := by
  refine takes_of_wait rfl h (by decide) (Chip.serveType_fwEnd_begins hsh _ _ _ _ hx he hr) ?_
  rw [Chip.fwEnding_session, hx]
  intro heq
  have hend : true = x.ending := congrArg FwSession.ending (Option.some.inj heq)
  exact Bool.false_ne_true (he.symm.trans hend.symm)

theorem answers_fwEnd_ends (h : s.frameServed 0x0A f = true) (hsh : (s.frameAt 0x0A f).nv.shelter = none) {x : FwSession}
    (hx : (s.frameAt 0x0A f).crook.session = some x) (he : x.ending = true) (hw : (s.frameAt 0x0A f).fwWriting = false) :
    s.answers (.fwEnd f) 0x0A f ((s.frameAt 0x0A f).fwEnded x).1 ((s.frameAt 0x0A f).fwEnded x).2.1 ((s.frameAt 0x0A f).fwEnded x).2.2 :=
  answers_of_serve rfl h (by decide) (Chip.serveType_fwEnd_ends hsh _ _ _ _ hx he hw)

end

/-! ### The statement -/

/-- Settles O55: each frame by what serving its type does to the session, and the counter by induction on the number of bits set. -/
theorem firmwareFramesTakeEffect : Obligations.FirmwareFramesTakeEffect := by
  unfold Obligations.FirmwareFramesTakeEffect
  refine ⟨⟨?fwBegin, ?fwData, ?fwEnd, ?fwCommit, fun c b h => Chip.fwVerify_below, ?idle⟩,
    fun n w => ⟨fun i => getLsbD_setRollback, popcount_setRollback⟩⟩
  case fwBegin =>
    rintro s f d b rfl h hsh hb
    refine ⟨fun hx => answers_fwBegin h hsh (Chip.fwBegin_busy hx _), fun hx hr => ?_⟩
    obtain ⟨t, ht, hsession, hqueue⟩ := Chip.fwBegin_opens hx hr hb (leAt f.payload 0 4)
    exact ⟨t, answers_fwBegin h hsh ht, hsession, hqueue⟩
  case fwData =>
    rintro s f d x off rfl h hsh hx hf rfl
    refine ⟨fun hl => answers_fwData h hsh (Chip.fwData_outside hx hf hl), fun hl => ?_⟩
    obtain ⟨t, y, ht, hy⟩ := Chip.fwData_inside hx hf hl
    exact ⟨t, y, answers_fwData h hsh ht, hy⟩
  case fwEnd =>
    rintro s f d x rfl h hsh hx
    refine ⟨fun he hr => ?_, fun he hw => ⟨_, _, _, answers_fwEnd_ends h hsh hx he hw, Chip.fwEnded_session _ _, fun hf ver rb hv => ?_, fun hf hv => ?_⟩⟩
    · obtain ⟨c, hc, hpost⟩ := takes_fwEnd_begins h hsh hx he hr
      exact ⟨c, hc, _, rfl, hpost⟩
    · exact Prod.mk.inj (Chip.fwEnded_verified hf hv)
    · exact Prod.mk.inj (Chip.fwEnded_unverified hf hv)
  case fwCommit =>
    rintro s f d boot rfl h hsh hboot
    refine ⟨fun hno => answers_fwCommit h hsh (Chip.fwCommit_refused hboot hno), fun hlt h10 h11 hrec hr => ?_⟩
    obtain ⟨t, ht, hfuses⟩ := Chip.fwCommit_sets hboot hlt h10 h11 hrec hr
    exact ⟨t, answers_fwCommit h hsh ht, hfuses, Chip.rollbacks_of_set hfuses hlt⟩
  case idle =>
    intro s hheld
    refine ⟨fun x hx he => ⟨s.chip.fwDrop, ?_, rfl⟩, fun hx => ⟨s.chip, ?_, rfl⟩⟩
    · exact (State.run_of_running hheld _).trans (by rw [Chip.sessionIdle_open hx he])
    · exact (State.run_of_running hheld _).trans (by rw [Chip.sessionIdle_none hx])

end Sys2Proof.Machine

/-! The boundary scan port (R937–R939, R946): which pads a boundary value drives, the identification word, the bypass register, and
what each public instruction does to the port. -/

namespace Sys2Proof.Machine

/-! ### The pads that a boundary value drives (R939) -/

/-- What an enabled output cell adds to the driven word: its enable, at the next place, and its value. -/
def cellWord (b : BitVec 73) (i : Nat) : Nat := 2 ^ (i + 1) + b2n (b.getLsbD i) * 2 ^ i

theorem drivenOf_eq_sum (b : BitVec 73) :
    drivenOf b = BitVec.ofNat 73 ((outCells.filter (fun i => b.getLsbD (i + 1))).map (cellWord b)).sum := rfl

theorem b2n_le_one (v : Bool) : b2n v ≤ 1 := by
  cases v with
  | false => exact Nat.zero_le 1
  | true => exact Nat.le_refl 1

theorem two_pow_dvd_cellWord (b : BitVec 73) (i : Nat) : 2 ^ i ∣ cellWord b i :=
  Nat.dvd_add (Nat.pow_dvd_pow 2 (Nat.le_succ i)) (Nat.dvd_mul_left _ _)

theorem value_lt_enable (v : Bool) (i : Nat) : b2n v * 2 ^ i < 2 ^ (i + 1) :=
  calc b2n v * 2 ^ i ≤ 1 * 2 ^ i := Nat.mul_le_mul_right _ (b2n_le_one v)
    _ = 2 ^ i := Nat.one_mul _
    _ < 2 ^ (i + 1) := Nat.pow_lt_pow_succ Nat.one_lt_two

theorem cellWord_lt (b : BitVec 73) (i : Nat) : cellWord b i < 2 ^ (i + 2) :=
  calc cellWord b i < 2 ^ (i + 1) + 2 ^ (i + 1) := Nat.add_lt_add_left (value_lt_enable _ i) _
    _ = 2 ^ (i + 2) := (Nat.two_pow_succ (i + 1)).symm

theorem testBit_value {v : Bool} {i k : Nat} : (b2n v * 2 ^ i).testBit k = true ↔ k = i ∧ v = true := by
  cases v with
  | false =>
    rw [b2n, if_neg Bool.false_ne_true, Nat.zero_mul, Nat.zero_testBit]
    exact ⟨fun h => absurd h Bool.false_ne_true, fun ⟨_, h⟩ => absurd h Bool.false_ne_true⟩
  | true => rw [b2n, if_pos rfl, Nat.one_mul, Nat.testBit_two_pow, decide_eq_true_iff, and_iff_left rfl, eq_comm]

theorem testBit_cellWord {b : BitVec 73} {i k : Nat} :
    (cellWord b i).testBit k = true ↔ k = i + 1 ∨ k = i ∧ b.getLsbD i = true := by
  have hor : cellWord b i = 2 ^ (i + 1) ||| b2n (b.getLsbD i) * 2 ^ i := by
    have h := Nat.two_pow_add_eq_or_of_lt (value_lt_enable (b.getLsbD i) i) 1
    rwa [Nat.mul_one] at h
  rw [hor, Nat.testBit_or, Bool.or_eq_true, Nat.testBit_two_pow, decide_eq_true_iff, eq_comm, testBit_value]

theorem two_pow_dvd_sum_cellWord (b : BitVec 73) {n : Nat} {l : List Nat} (hl : ∀ i ∈ l, n ≤ i) :
    2 ^ n ∣ (l.map (cellWord b)).sum := by
  induction l with
  | nil => exact Nat.dvd_zero _
  | cons i l ih =>
    obtain ⟨hi, hl⟩ := List.forall_mem_cons.mp hl
    rw [List.map_cons, List.sum_cons]
    exact Nat.dvd_add (Nat.dvd_trans (Nat.pow_dvd_pow 2 hi) (two_pow_dvd_cellWord b i)) (ih hl)

/-- Words of cells at least two places apart do not carry into one another: their sum has the bits of each. -/
theorem testBit_sum_cellWord (b : BitVec 73) {l : List Nat} (hl : l.Pairwise (fun i j => i + 2 ≤ j)) (k : Nat) :
    ((l.map (cellWord b)).sum).testBit k = true ↔ ∃ i ∈ l, (cellWord b i).testBit k = true := by
  induction l with
  | nil => simp only [List.map_nil, List.sum_nil, Nat.zero_testBit, Bool.false_eq_true, List.not_mem_nil, false_and, exists_false]
  | cons i l ih =>
    obtain ⟨hi, hl⟩ := List.pairwise_cons.mp hl
    obtain ⟨r, hr⟩ := two_pow_dvd_sum_cellWord b hi
    have hor : ((i :: l).map (cellWord b)).sum = (l.map (cellWord b)).sum ||| cellWord b i := by
      rw [List.map_cons, List.sum_cons, Nat.add_comm, hr, Nat.two_pow_add_eq_or_of_lt (cellWord_lt b i)]
    rw [hor, Nat.testBit_or, Bool.or_eq_true, ih hl, or_comm]
    simp only [List.mem_cons, or_and_right, exists_or, exists_eq_left]

theorem outCells_spaced : outCells.Pairwise (fun i j => i + 2 ≤ j) := by decide

/-- The places that a boundary value drives: of each enabled output cell the enable, and the value where it is 1. -/
theorem getLsbD_drivenOf {b : BitVec 73} {k : Nat} :
    (drivenOf b).getLsbD k = true ↔
      ∃ i ∈ outCells, b.getLsbD (i + 1) = true ∧ (k = i + 1 ∨ k = i ∧ b.getLsbD i = true) := by
  have hspaced := outCells_spaced.filter (fun i => b.getLsbD (i + 1))
  rw [drivenOf_eq_sum, BitVec.getLsbD_ofNat, Bool.and_eq_true, testBit_sum_cellWord b hspaced, decide_eq_true_iff]
  simp only [List.mem_filter, testBit_cellWord, and_assoc]
  refine and_iff_right_of_imp ?_
  rintro ⟨i, -, henable, rfl | ⟨rfl, hvalue⟩⟩
  · exact BitVec.lt_of_getLsbD henable
  · exact BitVec.lt_of_getLsbD hvalue

/-- No cell is the enable of another. -/
theorem succ_notMem_outCells : ∀ i ∈ outCells, i + 1 ∉ outCells := by decide

theorem drivenOf_enable {b : BitVec 73} {i : Nat} (hi : i ∈ outCells) : (drivenOf b).getLsbD (i + 1) = b.getLsbD (i + 1) := by
  rw [Bool.eq_iff_iff, getLsbD_drivenOf]
  constructor
  · rintro ⟨j, hj, henable, heq | ⟨rfl, -⟩⟩
    · exact heq ▸ henable
    · exact absurd hj (succ_notMem_outCells i hi)
  · exact fun henable => ⟨i, hi, henable, .inl rfl⟩

theorem drivenOf_value {b : BitVec 73} {i : Nat} (hi : i ∈ outCells) :
    (drivenOf b).getLsbD i = (b.getLsbD (i + 1) && b.getLsbD i) := by
  rw [Bool.eq_iff_iff, Bool.and_eq_true, getLsbD_drivenOf]
  constructor
  · rintro ⟨j, hj, henable, rfl | ⟨rfl, hvalue⟩⟩
    · exact absurd hi (succ_notMem_outCells j hj)
    · exact ⟨henable, hvalue⟩
  · exact fun ⟨henable, hvalue⟩ => ⟨i, hi, henable, .inr ⟨rfl, hvalue⟩⟩

theorem drivenOf_other {b : BitVec 73} {k : Nat} (hcell : k ∉ outCells) (henable : k ∉ outCells.map (· + 1)) :
    (drivenOf b).getLsbD k = false := by
  rw [Bool.eq_false_iff, Ne, getLsbD_drivenOf]
  rintro ⟨i, hi, -, rfl | ⟨rfl, -⟩⟩
  · exact henable (List.mem_map_of_mem hi)
  · exact hcell hi

/-! ### The identification word (R938) -/

/-- The four fields of an identification word: 1, the maker, the part and the generation. -/
theorem bits_identityWord {m p g : Nat} (hm : m < 2 ^ 11) (hp : p < 2 ^ 16) (hg : g < 16) :
    bits (1 + m * 2 + p * 2 ^ 12 + g * 2 ^ 28) 0 0 = 1 ∧ bits (1 + m * 2 + p * 2 ^ 12 + g * 2 ^ 28) 11 1 = m
    ∧ bits (1 + m * 2 + p * 2 ^ 12 + g * 2 ^ 28) 27 12 = p ∧ bits (1 + m * 2 + p * 2 ^ 12 + g * 2 ^ 28) 31 28 = g
    ∧ 1 + m * 2 + p * 2 ^ 12 + g * 2 ^ 28 < 2 ^ 32 := by
  rw [bits_eq_div_mod, bits_eq_div_mod, bits_eq_div_mod, bits_eq_div_mod]
  omega

theorem identity_fields (g : BitVec 4) :
    bits (identity g.toNat) 0 0 = 1 ∧ bits (identity g.toNat) 11 1 = Config.jep106.toNat
    ∧ bits (identity g.toNat) 27 12 = Config.partNumber.toNat ∧ bits (identity g.toNat) 31 28 = g.toNat
    ∧ identity g.toNat < 2 ^ 32 := by
  rw [identity, Nat.mod_eq_of_lt g.isLt]
  exact bits_identityWord Config.jep106.isLt Config.partNumber.isLt g.isLt

/-- The register that IDCODE selects holds the identification word whole. -/
theorem toNat_identity (g : BitVec 4) : (BitVec.ofNat 73 (identity g.toNat)).toNat = identity g.toNat := by
  obtain ⟨_, _, _, _, hlt⟩ := identity_fields g
  rw [BitVec.toNat_ofNat, Nat.mod_eq_of_lt (Nat.lt_trans hlt (by decide))]

theorem getLsbD_identity (g : BitVec 4) : (BitVec.ofNat 73 (identity g.toNat)).getLsbD 0 = true := by
  obtain ⟨hone, _⟩ := identity_fields g
  rw [BitVec.getLsbD, toNat_identity, ← bit_eq_testBit, bit]
  exact beq_iff_eq.mpr hone

/-! ### The bypass register (R937) -/

/-- The bit that the next shift through the bypass register gives: what was shifted in, or the captured 0. -/
def Tap.bypassOut (t : Tap) : Bool := t.ir == 0xFF && t.bypass && t.shiftedOut.getLsbD 1

theorem Tap.bypassOut_captured {t : Tap} (h : t.ir ≠ 0xFF ∨ t.bypass = false) : t.bypassOut = false := by
  rcases h with h | h
  · rw [Tap.bypassOut, beq_false_of_ne h, Bool.false_and, Bool.false_and]
  · rw [Tap.bypassOut, h, Bool.and_false, Bool.false_and]

theorem Tap.bypassOut_shifted {t : Tap} (hir : t.ir = 0xFF) (hb : t.bypass = true) : t.bypassOut = t.shiftedOut.getLsbD 1 := by
  rw [Tap.bypassOut, hir, hb, beq_self_eq_true, Bool.true_and, Bool.true_and]

/-- The bypass bit given, with the bit taken in above it. -/
def bypassWord (out tdi : Bool) : BitVec 73 := BitVec.ofNat 73 (b2n out + 2 * b2n tdi)

theorem getLsbD_bypassWord : ∀ out tdi : Bool, (bypassWord out tdi).getLsbD 0 = out ∧ (bypassWord out tdi).getLsbD 1 = tdi := by decide

/-! ### The public instructions (R937, R946) -/

theorem exec_extest_porLow {s : State} (h : s.chip.porLow = true) (tdi pads : BitVec 73) :
    exec (.extest tdi pads) s = .next { s with
      tap := { s.tap with ir := 0x00, bypass := false, boundary := tdi, driven := drivenOf tdi, shiftedOut := pads } } := by
  rw [exec, execExtest, State.runTap, Tap.extest, if_pos h]

theorem exec_extest_porHigh {s : State} (h : s.chip.porLow = false) (tdi pads : BitVec 73) :
    exec (.extest tdi pads) s = .next { s with tap := { s.tap with ir := 0x00, bypass := true, driven := 0, shiftedOut := 0 } } := by
  rw [exec, execExtest, State.runTap, Tap.extest, h, if_neg Bool.false_ne_true]

theorem exec_samplePreload (s : State) (tdi pads : BitVec 73) : exec (.samplePreload tdi pads) s = .next { s with
    tap := { s.tap with ir := 0x02, bypass := false, boundary := tdi, driven := 0, shiftedOut := pads } } := rfl

theorem exec_idcode (s : State) : exec .idcode s = .next { s with
    tap := { s.tap with ir := 0x01, bypass := false, driven := 0, shiftedOut := BitVec.ofNat 73 (identity s.chip.fuses.baseGen.toNat) } } := rfl

theorem exec_clamp (s : State) : exec .clamp s = .next { s with
    tap := { s.tap with ir := 0x04, bypass := true, driven := if s.chip.porLow then drivenOf s.tap.boundary else 0, shiftedOut := 0 } } := rfl

theorem exec_bypass (s : State) (tdi : Bool) : exec (.bypass tdi) s = .next { s with
    tap := { s.tap with ir := 0xFF, bypass := true, driven := 0, shiftedOut := bypassWord s.tap.bypassOut tdi } } := rfl

/-! ### The statement -/

/-- Settles O60: each instruction by what it does to the port, and the driven pads cell by cell. -/
theorem tapInstructionsTakeEffect : Obligations.TapInstructionsTakeEffect := by
  unfold Obligations.TapInstructionsTakeEffect
  refine ⟨⟨fun s tdi pads => ⟨fun h => exec_extest_porLow h tdi pads, fun h => exec_extest_porHigh h tdi pads, exec_samplePreload s tdi pads⟩,
    fun s => ?idcode, fun s => ?clamp, fun s tdi => ?bypass⟩, fun b i => ⟨fun hi h => ?enabled, fun hi h => ?disabled, drivenOf_other⟩⟩
  case idcode =>
    obtain ⟨_, hmaker, hpart, hgen, hlt⟩ := identity_fields s.chip.fuses.baseGen
    refine ⟨_, getLsbD_identity _, ?_, ?_, ?_, ?_, ?_, exec_idcode s⟩
    all_goals rw [toNat_identity]
    · exact hmaker
    · exact hpart
    · exact hgen
    · exact fun h => hgen.trans (congrArg BitVec.toNat h)
    · exact hlt
  case clamp =>
    refine ⟨fun h => ?_, fun h => ?_⟩
    · rw [exec_clamp, if_pos h]
    · rw [exec_clamp, h, if_neg Bool.false_ne_true]
  case bypass =>
    obtain ⟨hout, htdi⟩ := getLsbD_bypassWord s.tap.bypassOut tdi
    exact ⟨_, htdi, fun h => hout.trans (Tap.bypassOut_captured h), fun hir hb => hout.trans (Tap.bypassOut_shifted hir hb), exec_bypass s tdi⟩
  case enabled => exact ⟨(drivenOf_enable hi).trans h, (drivenOf_value hi).trans (by rw [h, Bool.true_and])⟩
  case disabled => exact ⟨(drivenOf_enable hi).trans h, (drivenOf_value hi).trans (by rw [h, Bool.false_and])⟩

end Sys2Proof.Machine

/-! The machine as a whole: what every step keeps of the shelf and of the pads, and the part of the state that each command
moves. -/

namespace Sys2Proof.Machine

/-! ### The commands by their part -/

/-- Every command is of the shelf, measures, or is of the TAP, the boards, the always-on parts or the package. -/
theorem instr_part (i : Instr) :
    i.ofShelf = true ∨ i.measures = true ∨ i.ofTap = true ∨ i.ofBoards = true ∨ i.inReset = true ∨ i.ofPackage = true := by
  unfold Instr.ofPackage
  cases i.ofShelf <;> cases i.measures <;> cases i.ofTap <;> cases i.ofBoards <;> cases i.inReset <;> simp

/-- A PMBus command that measures reads a free value, or the charge, or starts the test. -/
theorem exec_measures {i : Instr} (h : i.measures = true) (s : State) :
    (∃ w code pages bytes f, exec i s = .next (s.measured w code pages bytes f)) ∨ (∃ w, exec i s = .next (s.chargeRead w))
      ∨ ∃ w, exec i s = .next (s.testHandover w) := by
  cases i <;> try exact absurd h Bool.false_ne_true
  case mfrBattSoc w => exact .inr (.inl ⟨w, rfl⟩)
  case mfrTestHandover w => exact .inr (.inr ⟨w, rfl⟩)
  all_goals exact .inl ⟨_, _, _, _, _, rfl⟩

/-- It changes the shelf and at most draws one free value. -/
theorem exec_measures_shelf {i : Instr} (h : i.measures = true) (s : State) :
    ∃ (x : Shelf) (n : Nat), n ≤ s.chip.free + 1 ∧ exec i s = .next { s with shelf := x, chip := { s.chip with free := n } } := by
  rcases exec_measures h s with ⟨w, code, pages, bytes, f, hm⟩ | ⟨w, hm⟩ | ⟨w, hm⟩ <;> rw [hm]
  · exact ⟨_, _, Nat.le_refl _, rfl⟩
  · cases w with
    | none => exact ⟨_, _, Nat.le_refl _, rfl⟩
    | some b => exact ⟨_, _, Nat.le_succ _, rfl⟩
  · cases w with
    | none => exact ⟨_, _, Nat.le_succ _, rfl⟩
    | some b =>
      unfold State.testHandover
      dsimp only
      split
      · exact ⟨_, _, Nat.le_refl _, rfl⟩
      · exact ⟨_, _, Nat.le_refl _, rfl⟩

/-! ### The shelf stays sound (R773–R776, R778, R784, R788) -/

theorem Shelf.sound_event {x : Shelf} (h : x.sound) (i : Nat) : (x.event i).sound := h
theorem Shelf.sound_nack {x : Shelf} (h : x.sound) (b : Nat) : (x.nack b).sound := h
theorem Shelf.sound_give {x : Shelf} (h : x.sound) (n v : Nat) : (x.give n v).sound := h
theorem Shelf.sound_taken {x : Shelf} (h : x.sound) : x.taken.sound := h

theorem Shelf.sound_readOnly {x : Shelf} (h : x.sound) (w : PmData) (pages : Nat → Bool) {f : Shelf → Shelf} (hf : (f x).sound) :
    (x.readOnly w pages f).sound := by
  unfold Shelf.readOnly
  split
  · split
    · exact hf
    · exact Shelf.sound_nack h 7
  · exact Shelf.sound_nack h 7

theorem Shelf.sound_wordLimits {x : Shelf} (h : x.sound) (w : PmData) (v : W16) (lo hi : Nat) {f : W16 → Shelf}
    (hf : ∀ n, lo ≤ n → n ≤ hi → (f (BitVec.ofNat 16 n)).sound) : (x.wordLimits w v lo hi f).sound := by
  unfold Shelf.wordLimits
  split
  · exact Shelf.sound_give h 2 _
  · dsimp only
    split
    · next hc =>
      simp only [Bool.and_eq_true, decide_eq_true_eq] at hc
      exact Shelf.sound_taken (hf _ hc.1.2 hc.2)
    · exact Shelf.sound_nack h 6

/-- A sound shelf is a sound one with another charge within range. -/
theorem Shelf.sound_charge {x : Shelf} (h : x.sound) {v : Nat} (hv : v ≤ 1000) : ({ x with soc := BitVec.ofNat 16 v } : Shelf).sound := by
  have hsoc : (BitVec.ofNat 16 v).toNat ≤ 1000 := by simp; omega
  unfold Shelf.sound at h ⊢
  simp_all

section
/-! Each event of the shelf, by the states it acts in. -/
variable {x : Shelf} (h : x.sound)
include h

theorem Shelf.sound_mainsLoss : x.mainsLoss.sound := by
  unfold Shelf.sound at h ⊢
  unfold Shelf.mainsLoss
  cases hs : x.state
  case mains => simp_all
  case handover => simp_all
  case battery =>
    by_cases ht : x.testing = true
    · by_cases hl : x.stormLow = true <;> simp_all [Shelf.storm, Shelf.event]
    · by_cases hq : x.qualifying = true <;> simp_all [Shelf.lapse, Shelf.event]
  case ramp =>
    by_cases ht : x.testing = true
    · by_cases hl : x.stormLow = true <;> simp_all [Shelf.storm, Shelf.event, Shelf.toBattery]
    · simp_all [Shelf.toBattery]
  case off => by_cases hq : x.qualifying = true <;> simp_all [Shelf.lapse, Shelf.event]

theorem Shelf.sound_mainsReturn : x.mainsReturn.sound := by
  unfold Shelf.sound at h ⊢
  unfold Shelf.mainsReturn
  cases hs : x.state
  case battery => by_cases ht : x.testing = true <;> simp_all
  all_goals simp_all

theorem Shelf.sound_handoverEnd (us : W16) : (x.handoverEnd us).sound := by
  unfold Shelf.sound at h ⊢
  unfold Shelf.handoverEnd
  by_cases hs : x.state = .handover
  · by_cases ht : x.testing = true <;> simp_all [Shelf.toBattery, Shelf.storm, Shelf.event]
  · simp_all

theorem Shelf.sound_toRamp (ht : x.testing = false) : x.toRamp.sound := by
  have hr : ({ x with state := .ramp, qualifying := false, returns := x.now :: x.returns.take 2 } : Shelf).sound := by
    have hlen : (x.returns.take 2).length ≤ 2 := by
      rw [List.length_take]
      exact Nat.min_le_left _ _
    unfold Shelf.sound at h ⊢
    simp_all
  unfold Shelf.toRamp
  exact iteInduction (motive := Shelf.sound) (fun _ => hr) (fun _ => hr)

theorem Shelf.sound_qualified : x.qualified.sound := by
  unfold Shelf.qualified
  split
  · next hc =>
    simp only [Bool.and_eq_true, Bool.not_eq_true'] at hc
    exact Shelf.sound_toRamp h hc.2
  · exact h

theorem Shelf.sound_rampEnd : x.rampEnd.sound := by
  unfold Shelf.sound at h ⊢
  unfold Shelf.rampEnd
  by_cases hs : x.state = .ramp
  · by_cases hl : x.stormLow = true <;> simp_all [Shelf.event]
  · simp_all

theorem Shelf.sound_atReserve : x.atReserve.sound := by
  unfold Shelf.sound at h ⊢
  unfold Shelf.atReserve
  by_cases hs : x.state = .battery
  · simp_all [Shelf.event]; omega
  · simp_all

theorem Shelf.sound_atCutoff : x.atCutoff.sound := by
  unfold Shelf.sound at h ⊢
  unfold Shelf.atCutoff
  by_cases hs : x.state = .battery
  · simp_all [Shelf.event]; omega
  · simp_all

theorem Shelf.sound_lockoutEnd : x.lockoutEnd.sound := by
  unfold Shelf.lockoutEnd
  split
  · exact h
  · exact h

theorem Shelf.sound_testEnd : x.testEnd.sound := by
  unfold Shelf.sound at h ⊢
  unfold Shelf.testEnd
  by_cases hs : x.state = .battery <;> by_cases ht : x.testing = true <;> simp_all

theorem Shelf.sound_doPage (w : PmData) : (x.doPage w).sound := by
  unfold Shelf.doPage
  split
  · exact Shelf.sound_give h 1 _
  · split
    · next hc =>
      simp only [Bool.and_eq_true, decide_eq_true_eq] at hc
      refine Shelf.sound_taken ?_
      unfold Shelf.sound at h ⊢
      simp_all
      omega
    · exact Shelf.sound_nack h 6

theorem Shelf.sound_qualifyMs {n : Nat} (hlo : 3000 ≤ n) (hhi : n ≤ 30000) :
    ({ x with qualifyMs := BitVec.ofNat 16 n } : Shelf).sound := by
  unfold Shelf.sound at h ⊢
  simp_all
  omega

theorem Shelf.sound_reserveLevel {n : Nat} (hlo : 150 ≤ n) (hhi : n ≤ 500) :
    ({ x with reserveLevel := BitVec.ofNat 16 n } : Shelf).sound := by
  unfold Shelf.sound at h ⊢
  simp_all
  omega

theorem Shelf.sound_cutoffLevel {n : Nat} (hlo : 20 ≤ n) (hhi : n ≤ 100) :
    ({ x with cutoffLevel := BitVec.ofNat 16 n } : Shelf).sound := by
  unfold Shelf.sound at h ⊢
  simp_all
  omega

/-- A sound shelf in MAINS that starts a hand-over test. -/
theorem Shelf.sound_test (hs : x.state = .mains) : ({ x with state := .handover, testing := true } : Shelf).sound := by
  unfold Shelf.sound at h ⊢
  simp_all

theorem Shelf.sound_doOperation (w : PmData) : (x.doOperation w).sound := by
  unfold Shelf.doOperation
  dsimp only
  split
  · exact Shelf.sound_nack h 7
  · split
    · exact Shelf.sound_give h 1 _
    · split
      · exact h
      · split
        · exact h
        · exact Shelf.sound_nack h 6

theorem Shelf.sound_doEvents (w : PmData) : (x.doEvents w).sound := by
  unfold Shelf.doEvents
  split
  · exact Shelf.sound_give h 2 _
  · split
    · exact h
    · exact Shelf.sound_nack h 6

end

theorem Shelf.sound_exec {i : Instr} (hi : i.ofShelf = true) {s t : State} (h : s.shelf.sound) (he : exec i s = .next t) :
    t.shelf.sound := by
  cases i <;> try exact absurd hi Bool.false_ne_true
  all_goals cases he
  case mainsLoss => exact Shelf.sound_mainsLoss h
  case handoverEnd us => exact Shelf.sound_handoverEnd h us
  case qualifyComplete => exact Shelf.sound_qualified h
  case rampEnd => exact Shelf.sound_rampEnd h
  case lockoutClear => exact Shelf.sound_lockoutEnd h
  case mainsReturn => exact Shelf.sound_mainsReturn h
  case handoverTestEnd => exact Shelf.sound_testEnd h
  case page w => exact Shelf.sound_doPage h w
  case operation w => exact Shelf.sound_doOperation h w
  case clearFaults => exact h
  case mfrShelfEvents w => exact Shelf.sound_doEvents h w
  case mfrReturnQualify w =>
    exact Shelf.sound_wordLimits h w _ _ _ fun n hlo hhi => Shelf.sound_qualifyMs h (by omega) (by omega)
  case mfrReserveLevel w =>
    exact Shelf.sound_wordLimits h w _ _ _ fun n hlo hhi => Shelf.sound_reserveLevel h (by omega) (by omega)
  case mfrCutoffLevel w =>
    exact Shelf.sound_wordLimits h w _ _ _ fun n hlo hhi => Shelf.sound_cutoffLevel h (by omega) (by omega)
  all_goals exact Shelf.sound_readOnly h _ _ h

theorem State.sound_measured {s : State} (h : s.shelf.sound) (w : PmData) (code : Nat) (pages : Nat → Bool) (bytes : Nat) (f : Nat → Nat) :
    (s.measured w code pages bytes f).shelf.sound :=
  Shelf.sound_readOnly h w pages h

theorem State.sound_chargeNow {s : State} (h : s.shelf.sound) : s.chargeNow.1.shelf.sound :=
  Shelf.sound_charge h (Nat.min_le_left _ _)

theorem State.sound_chargeRead {s : State} (h : s.shelf.sound) (w : PmData) : (s.chargeRead w).shelf.sound := by
  unfold State.chargeRead
  split
  · exact h
  · exact Shelf.sound_give (State.sound_chargeNow h) 2 _

theorem State.sound_testHandover {s : State} (h : s.shelf.sound) (w : PmData) : (s.testHandover w).shelf.sound := by
  have hc := State.sound_chargeNow h
  unfold State.testHandover
  split
  · exact h
  · dsimp only
    split
    · next hm =>
      simp only [Bool.and_eq_true, beq_iff_eq] at hm
      exact Shelf.sound_taken (Shelf.sound_test hc hm.1.1.2)
    · exact Shelf.sound_nack hc 6

theorem State.shelf_atReserve (s : State) : s.atReserve.shelf = s.shelf.atReserve := by
  unfold State.atReserve
  by_cases hs : s.shelf.state = .battery
  · simp only [hs, bne_self_eq_false, Bool.false_eq_true, if_false]
    split <;> rfl
  · simp [hs, Shelf.atReserve]

theorem State.shelf_atCutoff (s : State) : s.atCutoff.shelf = s.shelf.atCutoff := by
  unfold State.atCutoff
  dsimp only
  split <;> rfl

/-! ### The boards leave the TAP alone -/

theorem State.tap_onDatagram {s : State} (q : W32) {f : State → State × List Byte} (hf : (f s).1.tap = s.tap) :
    (s.onDatagram q f).tap = s.tap := by
  unfold State.onDatagram
  split
  · rfl
  · exact hf

theorem State.tap_toPackage (s : State) (q : W32) (k : DieId) (f : List Byte) : (s.toPackage q k f).tap = s.tap := by
  refine State.tap_onDatagram q ?_
  split <;> rfl

theorem State.tap_bridgeRetry (s : State) (q : W32) : (s.bridgeRetry q).tap = s.tap := by
  unfold State.bridgeRetry
  split <;> rfl

theorem State.tap_onRequest {s : State} (q : W32) (k : DieId) (n : Nat) {f : State → State} (hf : (f s).tap = s.tap) :
    (s.onRequest q k n f).tap = s.tap :=
  State.tap_onDatagram q hf

theorem State.tap_passNotice (s : State) (b : Bool) : (s.passNotice b).tap = s.tap := by
  unfold State.passNotice
  split
  · rfl
  · exact (sendNotice_keeps _ _).2.2

theorem State.tap_notice (s : State) (b : Bool) : (s.notice b).tap = s.tap := by
  unfold State.notice
  dsimp only
  split <;> rfl

theorem State.tap_enumerate (s : State) : s.enumerate.tap = s.tap := by
  unfold State.enumerate
  dsimp only
  split <;> rfl

theorem State.tap_sledPowerUp (s : State) : s.sledPowerUp.tap = s.tap := by
  unfold State.sledPowerUp
  dsimp only
  split
  · rfl
  · split
    · simp [slotOn_keeps]
    · rfl

theorem State.tap_atReserve (s : State) : s.atReserve.tap = s.tap := by
  unfold State.atReserve
  dsimp only
  split
  · rfl
  · split <;> rfl

theorem State.tap_atCutoff (s : State) : s.atCutoff.tap = s.tap := by
  unfold State.atCutoff
  dsimp only
  split <;> rfl

/-! ### What a command that settles can move -/

/-- State `u` is what a command has made of `s` before it settles: the queue and the TAP are as they were, and so is the shelf unless
the command is RESERVE or CUTOFF. -/
def State.effectOf (s : State) (i : Instr) (u : State) : Prop :=
  u.pending = s.pending ∧ u.tap = s.tap ∧ (i ≠ .reserve → i ≠ .cutoff → u.shelf = s.shelf)

theorem State.effectOf_of_keeps {s u : State} (i : Instr) (h : u.pending = s.pending ∧ u.shelf = s.shelf) (ht : u.tap = s.tap) :
    s.effectOf i u :=
  ⟨h.1, ht, fun _ _ => h.2⟩

/-- A command of the boards answers its effect on the state, settled. -/
theorem exec_boards_effect {i : Instr} (h : i.ofBoards = true) (s : State) : ∃ u, exec i s = .next (s.settledTo u) ∧ s.effectOf i u := by
  cases i <;> try exact absurd h Bool.false_ne_true
  case reserve => exact ⟨_, rfl, atReserve_pending s, s.tap_atReserve, fun h _ => absurd rfl h⟩
  case cutoff => exact ⟨_, rfl, atCutoff_pending s, s.tap_atCutoff, fun _ h => absurd rfl h⟩
  case powerStorm => exact ⟨_, rfl, State.effectOf_of_keeps _ (notice_keeps s true) (s.tap_notice true)⟩
  case powerCalm => exact ⟨_, rfl, State.effectOf_of_keeps _ (notice_keeps s false) (s.tap_notice false)⟩
  case powerOnReset => exact ⟨_, rfl, State.effectOf_of_keeps _ (pinPor_keeps _ _ _) rfl⟩
  case porNAssert => exact ⟨_, rfl, State.effectOf_of_keeps _ (pinPor_keeps _ _ _) rfl⟩
  case porNRelease => exact ⟨_, rfl, State.effectOf_of_keeps _ (pinPor_keeps _ _ _) rfl⟩
  case toPackage q k f => exact ⟨_, rfl, State.effectOf_of_keeps _ (toPackage_keeps s q k f) (s.tap_toPackage q k f)⟩
  case bridgeRetry q => exact ⟨_, rfl, State.effectOf_of_keeps _ (bridgeRetry_keeps s q) (s.tap_bridgeRetry q)⟩
  case setProfilePins q k pins =>
    exact ⟨_, rfl, State.effectOf_of_keeps _ (onRequest_keeps s q k 1 _ fun _ => ⟨rfl, rfl⟩) (State.tap_onRequest q k 1 rfl)⟩
  case powerOn q k =>
    exact ⟨_, rfl, State.effectOf_of_keeps _ (onRequest_keeps s q k 2 _ fun t => ⟨(slotOn_keeps t k).1, (slotOn_keeps t k).2.1⟩)
      (State.tap_onRequest q k 2 (slotOn_keeps s k).2.2)⟩
  case powerOff q k =>
    exact ⟨_, rfl, State.effectOf_of_keeps _ (onRequest_keeps s q k 3 _ fun t => ⟨(slotOff_keeps t k).1, (slotOff_keeps t k).2.1⟩)
      (State.tap_onRequest q k 3 (slotOff_keeps s k).2.2)⟩
  case sledNotice q b =>
    exact ⟨_, rfl, State.effectOf_of_keeps _ (onRequest_keeps s q _ 4 _ fun t => passNotice_keeps t b)
      (State.tap_onRequest q _ 4 (s.tap_passNotice b))⟩
  case stateGet q => exact ⟨_, rfl, State.effectOf_of_keeps _ (onDatagram_keeps s q _ fun _ => ⟨rfl, rfl⟩) (State.tap_onDatagram q rfl)⟩
  case enumeration => exact ⟨_, rfl, State.effectOf_of_keeps _ (enumerate_keeps s) s.tap_enumerate⟩
  case sledPowerUp => exact ⟨_, rfl, State.effectOf_of_keeps _ (sledPowerUp_keeps s) s.tap_sledPowerUp⟩

/-- A command of the boards, of the always-on parts or of the package that answers a next state leaves the state alone, as a package in
reset does, or answers its effect settled. -/
theorem next_of_settling {i : Instr} (h : i.ofBoards = true ∨ i.inReset = true ∨ i.ofPackage = true) {s t : State}
    (he : exec i s = .next t) : t = s ∨ ∃ u, t = s.settledTo u ∧ s.effectOf i u := by
  rcases h with h | h | h
  · obtain ⟨u, hu, hk⟩ := exec_boards_effect h s
    rw [hu] at he
    cases he
    exact .inr ⟨u, rfl, hk⟩
  · obtain ⟨f, hf⟩ := exec_inReset i h s
    rw [hf] at he
    cases he
    exact .inr ⟨_, rfl, rfl, rfl, fun _ _ => rfl⟩
  · obtain ⟨f, hf⟩ := exec_package i h s
    rw [hf] at he
    have hr := next_of_shaped _ _ _ he
    unfold State.run at hr
    split at hr <;> cases hr
    · exact .inl rfl
    · exact .inr ⟨_, rfl, rfl, rfl, fun _ _ => rfl⟩

/-! ### Every step keeps the shelf sound -/

theorem exec_keeps_sound {i : Instr} {s t : State} (h : s.shelf.sound) (he : exec i s = .next t) : t.shelf.sound := by
  rcases instr_part i with hi | hi | hi | hi
  · exact Shelf.sound_exec hi h he
  · rcases exec_measures hi s with ⟨w, code, pages, bytes, f, hm⟩ | ⟨w, hm⟩ | ⟨w, hm⟩ <;> rw [hm] at he <;> cases he
    · exact State.sound_measured h w code pages bytes f
    · exact State.sound_chargeRead h w
    · exact State.sound_testHandover h w
  · obtain ⟨f, hf⟩ := exec_tap i hi s
    rw [hf] at he
    cases he
    exact h
  · by_cases hr : i = .reserve
    · subst hr
      cases he
      rw [(settledTo_keeps _ _).2, State.shelf_atReserve]
      exact Shelf.sound_atReserve h
    · by_cases hc : i = .cutoff
      · subst hc
        cases he
        rw [(settledTo_keeps _ _).2, State.shelf_atCutoff]
        exact Shelf.sound_atCutoff h
      · rcases next_of_settling hi he with rfl | ⟨u, rfl, _, _, hu⟩
        · exact h
        · rw [(settledTo_keeps _ _).2, hu hr hc]
          exact h

/-- Settles O5: idle time moves the clock of the shelf alone, and each command keeps it by its part. -/
theorem everyStepKeepsTheShelfSound : Obligations.EveryStepKeepsTheShelfSound := by
  unfold Obligations.EveryStepKeepsTheShelfSound
  intro s t h hs
  unfold step at hs
  split at hs
  · exact exec_keeps_sound (by exact h) hs
  · cases hs
    exact h

/-! ### Every step keeps the pads safe (R937, R946) -/

/-- Pads are driven only under EXTEST or CLAMP. -/
def Tap.drivesByBoundary (t : Tap) : Prop := t.driven = 0 ∨ t.ir = 0x00 ∨ t.ir = 0x04

theorem drivesByBoundary_of_padsSafe {s : State} (h : s.padsSafe) : s.tap.drivesByBoundary := by
  rcases h with h | ⟨_, h⟩
  · exact .inl h
  · exact .inr h

/-- The TAP follows POR_N: with POR_N high EXTEST and CLAMP drive nothing. -/
theorem padsSafe_porHigh {t : State} {d : Chip} (h : t.tap.drivesByBoundary) :
    ({ t with chip := d, tap := t.tap.porHigh d.porLow } : State).padsSafe := by
  unfold State.padsSafe Tap.porHigh
  unfold Tap.drivesByBoundary at h
  cases hp : d.porLow
  · by_cases hir : t.tap.ir = 0x00 ∨ t.tap.ir = 0x04 <;> simp_all
  · simpa [hp] using h

theorem padsSafe_settledTo (s : State) {u : State} (h : u.tap.drivesByBoundary) : (s.settledTo u).padsSafe := by
  unfold State.settledTo
  refine padsSafe_porHigh ?_
  rw [(shutdownSteps_keeps _).2.2, (passHeld_keeps _).2.2]
  exact h

theorem padsSafe_exec_tap {i : Instr} (hi : i.ofTap = true) {s t : State} (he : exec i s = .next t) : t.padsSafe := by
  cases i <;> try exact absurd hi Bool.false_ne_true
  all_goals cases he
  case extest tdi pads =>
    cases hp : s.chip.porLow
    · exact .inl (by simp [Tap.extest])
    · exact .inr ⟨hp, .inl (by simp [Tap.extest])⟩
  case clamp =>
    cases hp : s.chip.porLow
    · exact .inl (by simp [Tap.clamp])
    · exact .inr ⟨hp, .inr rfl⟩
  all_goals exact .inl rfl

theorem exec_keeps_padsSafe {i : Instr} {s t : State} (h : s.padsSafe) (he : exec i s = .next t) : t.padsSafe := by
  rcases instr_part i with hi | hi | hi | hi
  · obtain ⟨f, hf⟩ := exec_shelf i hi s
    rw [hf] at he
    cases he
    exact h
  · obtain ⟨x, n, _, hm⟩ := exec_measures_shelf hi s
    rw [hm] at he
    cases he
    exact h
  · exact padsSafe_exec_tap hi he
  · rcases next_of_settling hi he with rfl | ⟨u, rfl, _, hu, _⟩
    · exact h
    · exact padsSafe_settledTo s (hu ▸ drivesByBoundary_of_padsSafe h)

/-- Settles O6: a command that settles lets the TAP follow POR_N, and EXTEST and CLAMP look at POR_N themselves. -/
theorem everyStepKeepsThePadsSafe : Obligations.EveryStepKeepsThePadsSafe := by
  unfold Obligations.EveryStepKeepsThePadsSafe
  intro s t h hs
  unfold step at hs
  split at hs
  · exact exec_keeps_padsSafe (by exact h) hs
  · cases hs
    exact h

/-! ### Every well-formed command answers (R622) -/

/-- A command that the package's ports bring: in shape it runs on the package, out of shape it stops. -/
theorem exec_package_ill {i : Instr} (h : i.ofPackage = true) (hw : i.wf = false) (s : State) : exec i s = .fault .illFormed := by
  obtain ⟨f, hf⟩ := exec_package i h s
  rw [hf, shaped_ill hw]

theorem exec_package_held {i : Instr} (h : i.ofPackage = true) (hw : i.wf = true) {s : State} (hh : s.chip.held = true) :
    exec i s = .next s := by
  obtain ⟨f, hf⟩ := exec_package i h s
  rw [hf, shaped_wf hw, State.run, if_pos hh]

/-- Only commands of the package carry lists whose shape a port gives. -/
theorem ofPackage_of_not_wf {i : Instr} (h : i.wf = false) : i.ofPackage = true := by
  cases i <;> try exact absurd h.symm Bool.false_ne_true
  all_goals rfl

theorem exec_answers {i : Instr} (h : i.wf = true) (s : State) : ∃ t, exec i s = .next t := by
  rcases instr_part i with hi | hi | hi | hi | hi | hi
  · obtain ⟨f, hf⟩ := exec_shelf i hi s
    exact ⟨_, hf⟩
  · obtain ⟨x, n, _, hm⟩ := exec_measures_shelf hi s
    exact ⟨_, hm⟩
  · obtain ⟨f, hf⟩ := exec_tap i hi s
    exact ⟨_, hf⟩
  · obtain ⟨u, hu, _⟩ := exec_boards_effect hi s
    exact ⟨_, hu⟩
  · obtain ⟨f, hf⟩ := exec_inReset i hi s
    exact ⟨_, hf⟩
  · obtain ⟨f, hf⟩ := exec_package i hi s
    rw [hf, shaped_wf h]
    unfold State.run
    split <;> exact ⟨_, rfl⟩

/-- Settles O3: each part of the commands answers in its own form. -/
theorem wellFormedCommandsAlwaysAnswer : Obligations.WellFormedCommandsAlwaysAnswer := by
  unfold Obligations.WellFormedCommandsAlwaysAnswer
  exact ⟨fun i s => ⟨fun h => exec_answers h s, fun h => exec_package_ill (ofPackage_of_not_wf h) h s⟩,
    fun i s hp hw hh => exec_package_held hp hw hh⟩

/-! ### Commands stay within their part -/

theorem exec_pending {i : Instr} {s t : State} (he : exec i s = .next t) : t.pending = s.pending := by
  rcases instr_part i with hi | hi | hi | hi
  · obtain ⟨f, hf⟩ := exec_shelf i hi s
    exact runShelf_pending s f t (hf ▸ he)
  · obtain ⟨x, n, _, hm⟩ := exec_measures_shelf hi s
    rw [hm] at he
    cases he
    rfl
  · obtain ⟨f, hf⟩ := exec_tap i hi s
    exact (runTap_keeps s f t (hf ▸ he)).1
  · rcases next_of_settling hi he with rfl | ⟨u, rfl, hu, _⟩
    · rfl
    · exact (settledTo_keeps s u).1.trans hu

theorem exec_shelf_other {i : Instr} (hs : i.ofShelf = false) (hm : i.measures = false) (hr : i ≠ .reserve) (hc : i ≠ .cutoff) {s t : State}
    (he : exec i s = .next t) : t.shelf = s.shelf := by
  rcases instr_part i with hi | hi | hi | hi
  · exact absurd (hs.symm.trans hi) Bool.false_ne_true
  · exact absurd (hm.symm.trans hi) Bool.false_ne_true
  · obtain ⟨f, hf⟩ := exec_tap i hi s
    exact (runTap_keeps s f t (hf ▸ he)).2
  · rcases next_of_settling hi he with rfl | ⟨u, rfl, _, _, hu⟩
    · rfl
    · exact (settledTo_keeps s u).2.trans (hu hr hc)

theorem step_idle {s : State} (h : s.pending = []) : step s = .next (tick s) := by
  unfold step
  rw [h]

/-- Settles O4: the frame of each part of the commands, and the idle step. -/
theorem commandsStayWithinTheirPart : Obligations.CommandsStayWithinTheirPart := by
  unfold Obligations.CommandsStayWithinTheirPart
  refine ⟨fun i s t he => exec_pending he, fun i s t hs hm hr hc he => exec_shelf_other hs hm hr hc he,
    fun i s => ⟨fun hi => ?_, fun hi => exec_measures_shelf hi s⟩, fun i s hi => ?_, fun s h => step_idle h⟩
  · obtain ⟨f, hf⟩ := exec_shelf i hi s
    exact ⟨_, hf⟩
  · obtain ⟨f, hf⟩ := exec_tap i hi s
    exact ⟨_, hf⟩

/-! ### A step, and the state right after reset -/

/-- Settles O1: the step looks at the front of the queue alone. -/
theorem stepRunsTheFrontCommand : Obligations.StepRunsTheFrontCommand := by
  unfold Obligations.StepRunsTheFrontCommand
  intro s i rest
  rw [step]

theorem sound_reset : State.reset.shelf.sound := by
  unfold Shelf.sound
  decide

/-- Settles O2: the maps of the state after reset are empty and give their defaults, and the lists hold free channels and pools. -/
theorem resetIsIdleAndSafe : Obligations.ResetIsIdleAndSafe := by
  unfold Obligations.ResetIsIdleAndSafe
  refine ⟨⟨rfl, rfl, rfl, fun q => ⟨rfl, rfl, rfl, rfl, rfl, rfl⟩, fun e => rfl, fun o => ⟨rfl, rfl, rfl⟩, ?pools, ?channels, fun p => rfl,
    rfl, rfl, rfl, rfl, rfl, rfl, rfl, rfl⟩, sound_reset, .inl rfl⟩
  case pools =>
    intro h hm
    obtain rfl := List.eq_of_mem_replicate hm
    exact ⟨rfl, rfl⟩
  case channels =>
    intro h hm
    obtain rfl := List.eq_of_mem_replicate hm
    rfl

end Sys2Proof.Machine

/-! The power shelf: what each event and each PMBus command makes of it (R773–R778, R781–R791). -/

namespace Sys2Proof.Machine

/-- A command of the shelf takes what its operation makes of the shelf. -/
theorem shelfTakes_of_runShelf {s : State} {i : Instr} {f : Shelf → Shelf} {post : Shelf → Prop} (hi : exec i s = s.runShelf f)
    (hp : post (f s.shelf)) : s.shelfTakes i post :=
  ⟨_, hi, hp⟩

theorem shelfTakes_of_eq {s : State} {i : Instr} {f : Shelf → Shelf} {post : Shelf → Prop} {y : Shelf} (hi : exec i s = s.runShelf f)
    (hy : f s.shelf = y) (hp : post y) : s.shelfTakes i post :=
  ⟨_, hi, hy ▸ hp⟩

/-! ### Events of mains, hand-over, qualification, ramp and test (R775–R778, R788, R789) -/

namespace Shelf

theorem mainsLoss_mains {x : Shelf} (h : x.state = .mains) : x.mainsLoss = { x with adequate := false, state := .handover } := by
  simp [mainsLoss, h]

theorem mainsLoss_handover {x : Shelf} (h : x.state = .handover) : x.mainsLoss = { x with adequate := false, testing := false } := by
  simp [mainsLoss, h]

theorem mainsLoss_battery {x : Shelf} (h : x.state = .battery) (ht : x.testing = false) :
    x.mainsLoss = if x.qualifying then { x with adequate := false, qualifying := false, events := x.events ||| 0x80 }
      else { x with adequate := false } := by
  simp [mainsLoss, h, ht, lapse, event]

/-- A test that mains leaves is a real loss from then on: the storm is shown. -/
theorem mainsLoss_battery_test {x : Shelf} (h : x.state = .battery) (ht : x.testing = true) :
    x.mainsLoss = ({ x with adequate := false, testing := false } : Shelf).storm := by
  simp [mainsLoss, h, ht]

theorem mainsLoss_ramp {x : Shelf} (h : x.state = .ramp) (ht : x.testing = false) :
    x.mainsLoss = { x with
      adequate := false, state := .battery, qualifying := false
      stormCount := BitVec.ofNat 16 (min 0xFFFF (x.stormCount.toNat + 1)) } := by
  simp [mainsLoss, h, ht, toBattery]

theorem mainsLoss_ramp_test {x : Shelf} (h : x.state = .ramp) (ht : x.testing = true) :
    x.mainsLoss = ({ x with adequate := false, testing := false } : Shelf).toBattery.storm := by
  simp [mainsLoss, h, ht]

theorem mainsLoss_off {x : Shelf} (h : x.state = .off) : x.mainsLoss = ({ x with adequate := false } : Shelf).lapse := by
  simp [mainsLoss, h]

@[simp] theorem stormLow_storm (x : Shelf) : x.storm.stormLow = true := by
  unfold storm
  split <;> simp_all [event]

@[simp] theorem state_storm (x : Shelf) : x.storm.state = x.state := by
  unfold storm
  split <;> rfl

@[simp] theorem testing_storm (x : Shelf) : x.storm.testing = x.testing := by
  unfold storm
  split <;> rfl

@[simp] theorem adequate_storm (x : Shelf) : x.storm.adequate = x.adequate := by
  unfold storm
  split <;> rfl

@[simp] theorem qualifying_storm (x : Shelf) : x.storm.qualifying = x.qualifying := by
  unfold storm
  split <;> rfl

@[simp] theorem returns_storm (x : Shelf) : x.storm.returns = x.returns := by
  unfold storm
  split <;> rfl

@[simp] theorem handoverUs_storm (x : Shelf) : x.storm.handoverUs = x.handoverUs := by
  unfold storm
  split <;> rfl

@[simp] theorem stormCount_storm (x : Shelf) : x.storm.stormCount = x.stormCount := by
  unfold storm
  split <;> rfl

theorem lapse_shows (x : Shelf) : x.lapse.state = x.state ∧ x.lapse.adequate = x.adequate ∧ x.lapse.qualifying = false := by
  unfold lapse
  split <;> simp_all [event]

/-- The count of entries into BATTERY saturates. -/
theorem stormCount_toBattery (x : Shelf) : x.toBattery.stormCount.toNat = min 0xFFFF (x.stormCount.toNat + 1) := by
  simp only [toBattery, BitVec.toNat_ofNat]
  omega

theorem toBattery_shows (x : Shelf) : x.toBattery.state = .battery ∧ x.toBattery.qualifying = (x.adequate && !x.testing)
    ∧ x.toBattery.handoverUs = x.handoverUs ∧ x.toBattery.stormLow = x.stormLow ∧ x.toBattery.testing = x.testing
    ∧ x.toBattery.returns = x.returns :=
  ⟨rfl, rfl, rfl, rfl, rfl, rfl⟩

theorem handoverEnd_handover {x : Shelf} (h : x.state = .handover) (us : W16) :
    x.handoverEnd us = if x.testing then ({ x with handoverUs := us } : Shelf).toBattery
      else ({ x with handoverUs := us } : Shelf).toBattery.storm := by
  simp [handoverEnd, h]

theorem handoverEnd_other {x : Shelf} (h : x.state ≠ .handover) (us : W16) : x.handoverEnd us = x := by
  simp [handoverEnd, h]

theorem qualified_ready {x : Shelf} (ha : x.adequate = true) (hq : x.qualifying = true) (ht : x.testing = false)
    (h : x.state = .battery ∨ x.state = .off) : x.qualified = x.toRamp := by
  rcases h with h | h <;> simp [qualified, ha, hq, ht, h]

theorem qualified_other {x : Shelf} (hb : x.state ≠ .battery) (ho : x.state ≠ .off) : x.qualified = x := by
  simp [qualified, hb, ho]

/-- The shelf that has entered RAMP as a return, before LOCKOUT is looked at. -/
def returned (x : Shelf) : Shelf := { x with state := .ramp, qualifying := false, returns := x.now :: x.returns.take 2 }

theorem toRamp_of_third {x : Shelf} {a b : Nat} {l : List Nat} (h : x.returns = a :: b :: l) :
    x.toRamp = if x.now ≤ b + 60000000 then ({ x.returned with lockout := true } : Shelf).event 3 else x.returned := by
  simp [toRamp, returned, h]

theorem toRamp_of_few {x : Shelf} (h : x.returns.length ≤ 1) : x.toRamp = x.returned := by
  match hr : x.returns with
  | [] => simp [toRamp, returned, hr]
  | [a] => simp [toRamp, returned, hr]
  | a :: b :: l => simp [hr] at h

/-- The third return within 60 s sets LOCKOUT; nothing else of a return depends on it. -/
theorem toRamp_shows (x : Shelf) : x.toRamp.state = .ramp ∧ x.toRamp.qualifying = false ∧ x.toRamp.stormLow = x.stormLow
    ∧ x.toRamp.returns = x.now :: x.returns.take 2
    ∧ (∀ a b l, x.returns = a :: b :: l → x.toRamp.lockout = (x.lockout || decide (x.now ≤ b + 60000000)))
    ∧ (x.returns.length ≤ 1 → x.toRamp.lockout = x.lockout) := by
  match hr : x.returns with
  | [] =>
    rw [toRamp_of_few (by simp [hr])]
    simp [returned, hr]
  | [a] =>
    rw [toRamp_of_few (by simp [hr])]
    simp [returned, hr]
  | a :: b :: l =>
    rw [toRamp_of_third hr]
    by_cases h : x.now ≤ b + 60000000 <;> simp [h, returned, hr, event]

theorem rampEnd_ramp {x : Shelf} (h : x.state = .ramp) :
    x.rampEnd.state = .mains ∧ x.rampEnd.stormLow = false ∧ x.rampEnd.reserve = false ∧ x.rampEnd.testing = false
      ∧ x.rampEnd.mainsSince = x.now ∧ x.rampEnd.lockout = x.lockout
      ∧ x.rampEnd.events = if x.stormLow then x.events ||| 2 else x.events := by
  by_cases hl : x.stormLow = true <;> simp [rampEnd, h, hl, event]

theorem rampEnd_other {x : Shelf} (h : x.state ≠ .ramp) : x.rampEnd = x := by
  simp [rampEnd, h]

theorem mainsReturn_qualifies {x : Shelf} (h : x.state = .off ∨ (x.state = .battery ∧ x.testing = false)) :
    x.mainsReturn = { x with adequate := true, qualifying := true } := by
  rcases h with h | ⟨h, ht⟩
  · simp [mainsReturn, h]
  · simp [mainsReturn, h, ht]

theorem mainsReturn_other {x : Shelf} (h : x.state = .mains ∨ x.state = .handover ∨ x.state = .ramp) :
    x.mainsReturn = { x with adequate := true } := by
  rcases h with h | h | h <;> simp [mainsReturn, h]

end Shelf

/-- Settles O45, event by event. -/
theorem shelfMovesBetweenItsStates : Obligations.ShelfMovesBetweenItsStates := by
  unfold Obligations.ShelfMovesBetweenItsStates
  refine ⟨fun s => ⟨fun h => ?_, fun h => ?_, fun h ht => ?_, fun h ht => ?_, fun h ht => ?_, fun h ht => ?_, fun h => ?_⟩,
    fun s us => ⟨fun h => ?_, fun h => ?_⟩, fun s ha hq ht => ⟨fun h => ?_, fun hb ho => ?_⟩, fun s => ⟨fun h => ?_, fun h => ?_⟩,
    fun s hm hl => ⟨fun h => ?_, fun h => ?_⟩, fun s => ⟨fun h => ?_, fun h => ?_⟩, fun s h ht => ?_⟩
  · exact shelfTakes_of_runShelf rfl (Shelf.mainsLoss_mains h)
  · exact shelfTakes_of_runShelf rfl (Shelf.mainsLoss_handover h)
  · exact shelfTakes_of_runShelf rfl (Shelf.mainsLoss_battery h ht)
  · refine shelfTakes_of_runShelf rfl ?_
    simp [Shelf.mainsLoss_battery_test h ht, h]
  · exact shelfTakes_of_runShelf rfl (Shelf.mainsLoss_ramp h ht)
  · refine shelfTakes_of_runShelf rfl ?_
    simp [Shelf.mainsLoss_ramp_test h ht, Shelf.toBattery]
  · refine shelfTakes_of_runShelf rfl ?_
    obtain ⟨hs, ha, hq⟩ := Shelf.lapse_shows { s.shelf with adequate := false }
    rw [Shelf.mainsLoss_off h]
    exact ⟨hs.trans h, ha, hq⟩
  · refine shelfTakes_of_runShelf (f := fun x => x.handoverEnd us) rfl ?_
    rw [Shelf.handoverEnd_handover h]
    by_cases ht : s.shelf.testing = true <;> simp [ht, Shelf.toBattery_shows, Shelf.stormCount_toBattery]
  · exact shelfTakes_of_runShelf (f := fun x => x.handoverEnd us) rfl (Shelf.handoverEnd_other h us)
  · refine shelfTakes_of_runShelf rfl ?_
    rw [Shelf.qualified_ready ha hq ht h]
    exact s.shelf.toRamp_shows
  · exact shelfTakes_of_runShelf rfl (Shelf.qualified_other hb ho)
  · exact shelfTakes_of_runShelf rfl (Shelf.rampEnd_ramp h)
  · exact shelfTakes_of_runShelf rfl (Shelf.rampEnd_other h)
  · exact shelfTakes_of_runShelf rfl (if_pos (by rw [hm, hl, decide_eq_true h]; rfl))
  · exact shelfTakes_of_runShelf rfl (if_neg (by rw [decide_eq_false (Nat.not_le.mpr h), Bool.and_false]; exact Bool.false_ne_true))
  · exact shelfTakes_of_runShelf rfl (Shelf.mainsReturn_qualifies h)
  · exact shelfTakes_of_runShelf rfl (Shelf.mainsReturn_other h)
  · exact shelfTakes_of_runShelf rfl (by simp [Shelf.testEnd, h, ht])

/-! ### RESERVE, CUTOFF and the notices (R773, R775, R778–R781, R790) -/

theorem exec_reserve (s : State) : exec .reserve s = .next (s.settledTo s.atReserve) := rfl
theorem exec_cutoff (s : State) : exec .cutoff s = .next (s.settledTo s.atCutoff) := rfl

theorem Shelf.atReserve_battery {x : Shelf} (h : x.state = .battery) :
    x.atReserve = { x with reserve := true, soc := x.reserveLevel, events := x.events ||| 4 } := by
  simp [Shelf.atReserve, h, Shelf.event]

theorem Shelf.atCutoff_battery {x : Shelf} (h : x.state = .battery) :
    x.atCutoff = { x with
      state := .off, soc := x.cutoffLevel, testing := false, qualifying := x.adequate, events := x.events ||| 0x40 } := by
  simp [Shelf.atCutoff, h, Shelf.event]

theorem State.atReserve_other {s : State} (h : s.shelf.state ≠ .battery) : s.atReserve = s := by
  simp [State.atReserve, h]

/-- RESERVE in BATTERY on a rack's sled that does not shut down yet. -/
theorem State.atReserve_shutdown {s : State} (h : s.shelf.state = .battery) (ha : s.sled.standalone = false) (hd : s.sled.shutdown = 0) :
    s.atReserve = { s with
      shelf := s.shelf.atReserve, chip := s.chip.residents.foldl (fun c p => c.stormHoldPast p) s.chip
      sled := { s.sled with shutdown := 1 } } := by
  simp [State.atReserve, h, ha, hd]

theorem State.atReserve_shelf {s : State} (h : s.shelf.state = .battery) (hn : s.sled.standalone = true ∨ s.sled.shutdown ≠ 0) :
    s.atReserve = { s with shelf := s.shelf.atReserve } := by
  rcases hn with hn | hn <;> simp_all [State.atReserve]

theorem State.atCutoff_other {s : State} (h : s.shelf.state ≠ .battery) : s.atCutoff = s := by
  simp [State.atCutoff, Shelf.atCutoff, h]

/-- CUTOFF in BATTERY of a rack's shelf: every supply of the package is gone. -/
theorem State.atCutoff_rack {s : State} (h : s.shelf.state = .battery) (ha : s.sled.standalone = false) :
    s.atCutoff = { s with
      shelf := s.shelf.atCutoff, chip := { s.chip.powerOn with railsOut := true }
      sled := { s.sled with slots := s.sled.slots.map (fun e => { e with rails := false, porLow := true }), powered := 0, shutdown := 0 } } := by
  simp [State.atCutoff, h, ha]

theorem State.atCutoff_standalone {s : State} (ha : s.sled.standalone = true) : s.atCutoff = { s with shelf := s.shelf.atCutoff } := by
  simp [State.atCutoff, ha]

/-- Settles O46: RESERVE and CUTOFF by the shelf's state and the sled, the notices by whether the package answers. -/
theorem busEventsReachThePackage : Obligations.BusEventsReachThePackage := by
  unfold Obligations.BusEventsReachThePackage
  refine ⟨fun s => ⟨fun h => ⟨_, rfl, fun ha hd => ?_, fun hn => ?_⟩, fun h => ?_⟩,
    fun s => ⟨fun h => ⟨_, rfl, fun ha => ?_, fun ha => ?_⟩, fun h => ?_⟩, fun s => ⟨fun hh hr => ?_, fun hh => ?_⟩⟩
  · rw [exec_reserve, State.atReserve_shutdown h ha hd, Shelf.atReserve_battery h]
  · rw [exec_reserve, State.atReserve_shelf h hn, Shelf.atReserve_battery h]
  · rw [exec_reserve, State.atReserve_other h]
  · rw [exec_cutoff, State.atCutoff_rack h ha, Shelf.atCutoff_battery h]
  · rw [exec_cutoff, State.atCutoff_standalone ha, Shelf.atCutoff_battery h]
  · rw [exec_cutoff, State.atCutoff_other h]
  · simp [exec, execPowerStorm, execPowerCalm, State.runWhole, State.notice, hh, hr]
  · simp [exec, execPowerStorm, execPowerCalm, State.runWhole, State.notice, hh]

/-! ### PMBus: what the shelf keeps is read back (R782–R784) -/

theorem Shelf.readOnly_read {x : Shelf} {pages : Nat → Bool} (h : pages x.page.toNat = true) (f : Shelf → Shelf) :
    x.readOnly none pages f = f x := by
  simp [Shelf.readOnly, h]

theorem Shelf.readOnly_absent {x : Shelf} {pages : Nat → Bool} (h : pages x.page.toNat = false) (f : Shelf → Shelf) :
    x.readOnly none pages f = x.nack 7 := by
  simp [Shelf.readOnly, h]

theorem Shelf.readOnly_written (x : Shelf) (b : List Byte) (pages : Nat → Bool) (f : Shelf → Shelf) :
    x.readOnly (some b) pages f = x.nack 7 := rfl

theorem Shelf.nack_seven (x : Shelf) : x.nack 7 = { x with reply := none, statusCml := x.statusCml ||| 0x80 } := rfl

theorem Shelf.nack_six (x : Shelf) : x.nack 6 = { x with reply := none, statusCml := x.statusCml ||| 0x40 } := rfl

theorem Shelf.give_byte (x : Shelf) (b : Byte) : x.give 1 b.toNat = { x with reply := some [b] } := by
  simp [Shelf.give, natLe]

/-- A state has one of five numbers. -/
theorem shelfNum_lt (t : ShelfState) : shelfNum t < 8 := by
  cases t <;> decide

theorem b2n_lt (b : Bool) : b2n b < 2 := by
  cases b <;> decide

theorem bit_eq_div_mod (n i : Nat) : bit n i = (n / 2 ^ i % 2 == 1) := by
  rw [bit, Nat.shiftRight_eq_div_pow]

theorem b2n_beq_one (b : Bool) : (b2n b == 1) = b := by
  cases b <;> rfl

/-- The fields of MFR_SHELF_STATE. -/
theorem Shelf.stateByte_fields (x : Shelf) : ∃ b : Byte, b.toNat = x.stateByte ∧ bits b.toNat 2 0 = shelfNum x.state
    ∧ b.getLsbD 3 = false ∧ b.getLsbD 4 = x.qualifying ∧ b.getLsbD 5 = x.lockout ∧ b.getLsbD 6 = x.reserve ∧ b.getLsbD 7 = x.stormLow := by
  have hn := shelfNum_lt x.state
  have hq := b2n_lt x.qualifying
  have hl := b2n_lt x.lockout
  have hr := b2n_lt x.reserve
  have hs := b2n_lt x.stormLow
  have hb : (BitVec.ofNat 8 x.stateByte).toNat = x.stateByte := by
    simp only [Shelf.stateByte, BitVec.toNat_ofNat]
    omega
  have hbit (i : Nat) : (BitVec.ofNat 8 x.stateByte).getLsbD i = (x.stateByte / 2 ^ i % 2 == 1) := by
    rw [← BitVec.testBit_toNat, hb, ← bit_eq_testBit, bit_eq_div_mod]
  have field (i : Nat) (b : Bool) (h : x.stateByte / 2 ^ i % 2 = b2n b) : (BitVec.ofNat 8 x.stateByte).getLsbD i = b := by
    rw [hbit, h, b2n_beq_one]
  refine ⟨BitVec.ofNat 8 x.stateByte, hb, ?_, field 3 false ?_, field 4 _ ?_, field 5 _ ?_, field 6 _ ?_, field 7 _ ?_⟩
  · rw [hb, bits_eq_div_mod, Shelf.stateByte]
    omega
  · show _ = 0
    rw [Shelf.stateByte]
    omega
  all_goals rw [Shelf.stateByte]; omega

theorem Shelf.give_stateByte (x : Shelf) : ∃ b : Byte, x.give 1 x.stateByte = { x with reply := some [b] }
    ∧ bits b.toNat 2 0 = shelfNum x.state ∧ b.getLsbD 3 = false ∧ b.getLsbD 4 = x.qualifying ∧ b.getLsbD 5 = x.lockout
    ∧ b.getLsbD 6 = x.reserve ∧ b.getLsbD 7 = x.stormLow := by
  obtain ⟨b, hb, h⟩ := x.stateByte_fields
  exact ⟨b, by rw [← hb, Shelf.give_byte], h⟩

/-! ### PMBus: what the shelf measures (R783, R784, R788) -/

/-- A measured word on a page that has it. -/
theorem State.measured_read {s : State} {pages : Nat → Bool} (h : pages s.shelf.page.toNat = true) (code bytes : Nat) (f : Nat → Nat) :
    s.measured none code pages bytes f = { s with
      chip := { s.chip with free := s.chip.free + 1 }
      shelf := { s.shelf with
        reply := some (natLe bytes (f (Config.freeReading s.chip.free code s.shelf.page.toNat).toNat)) } } := by
  simp only [State.measured, Shelf.readOnly_read h]
  rfl

theorem State.measured_absent {s : State} {pages : Nat → Bool} (h : pages s.shelf.page.toNat = false) (code bytes : Nat) (f : Nat → Nat) :
    s.measured none code pages bytes f = { s with
      chip := { s.chip with free := s.chip.free + 1 }
      shelf := { s.shelf with reply := none, statusCml := s.shelf.statusCml ||| 0x80 } } := by
  simp only [State.measured, Shelf.readOnly_absent h]
  rfl

theorem and_two_eq (n : Nat) : n &&& 2 = 2 * (n / 2 % 2) := by
  have hdiv : (n &&& 2) / 2 = n / 2 % 2 := Nat.and_div_two.trans (Nat.and_one_is_mod (n / 2))
  have hmod : (n &&& 2) % 2 = 0 := (Nat.and_mod_two_pow (n := 1)).trans (Nat.and_zero (n % 2))
  omega

/-- Bit 1 of a word with bit 1 written. -/
theorem bit_one_setBits (n : Nat) (b : Bool) : bit (setBits n 1 1 (b2n b)) 1 = b := by
  have hset (v : Nat) : setBits n 1 1 v = n - (n &&& 2) + (v <<< 1 &&& 2) := rfl
  rw [bit_eq_div_mod, hset, and_two_eq, and_two_eq, Nat.shiftLeft_eq]
  cases b
  · exact decide_eq_false (by simp only [b2n, Bool.false_eq_true, if_false]; omega)
  · exact decide_eq_true (by simp only [b2n, if_true]; omega)

theorem pages1to8_of_le {n : Nat} (h1 : 1 ≤ n) (h8 : n ≤ 8) : pages1to8 n = true := by
  simp [pages1to8, h1, h8]

section
variable (s : State)

theorem exec_measured {i : Instr} {code bytes : Nat} {pages : Nat → Bool} {f : Nat → Nat}
    (hi : exec i s = .next (s.measured none code pages bytes f)) (h : pages s.shelf.page.toNat = true) :
    exec i s = .next { s with
      chip := { s.chip with free := s.chip.free + 1 }
      shelf := { s.shelf with reply := some (natLe bytes (f (Config.freeReading s.chip.free code s.shelf.page.toNat).toNat)) } } := by
  rw [hi, State.measured_read h]

theorem exec_unmeasured {i : Instr} {code bytes : Nat} {pages : Nat → Bool} {f : Nat → Nat}
    (hi : exec i s = .next (s.measured none code pages bytes f)) (h : pages s.shelf.page.toNat = false) :
    exec i s = .next { s with
      chip := { s.chip with free := s.chip.free + 1 }
      shelf := { s.shelf with reply := none, statusCml := s.shelf.statusCml ||| 0x80 } } := by
  rw [hi, State.measured_absent h]

/-- The measured words of two bytes, on the pages that have them. -/
theorem exec_reads_word {i : Instr}
    (h : (i ∈ [Instr.readVin none, .readIin none] ∧ 1 ≤ s.shelf.page.toNat ∧ s.shelf.page.toNat ≤ 8)
        ∨ (i ∈ [Instr.readVout none, .readIout none] ∧ (s.shelf.page = 0 ∨ s.shelf.page = 9))
        ∨ (i = Instr.readTemperature1 none ∧ s.shelf.page ≠ 0)
        ∨ (i ∈ [Instr.readPout none, .readPin none] ∧ s.shelf.page.toNat ≤ 8) ∨ i = .mfrBattHoldup none) :
    ∃ v, exec i s = .next { s with
      chip := { s.chip with free := s.chip.free + 1 }, shelf := { s.shelf with reply := some (natLe 2 v) } } := by
  simp only [List.mem_cons, List.not_mem_nil, or_false] at h
  rcases h with ⟨rfl | rfl, h1, h8⟩ | ⟨rfl | rfl, hp⟩ | ⟨rfl, hp⟩ | ⟨rfl | rfl, hp⟩ | rfl
  · exact ⟨_, exec_measured s rfl (pages1to8_of_le h1 h8)⟩
  · exact ⟨_, exec_measured s rfl (pages1to8_of_le h1 h8)⟩
  · exact ⟨_, exec_measured s rfl (by rcases hp with hp | hp <;> simp [hp])⟩
  · exact ⟨_, exec_measured s rfl (by rcases hp with hp | hp <;> simp [hp])⟩
  · exact ⟨_, exec_measured s rfl (bne_iff_ne.mpr fun h => hp (BitVec.eq_of_toNat_eq h))⟩
  · exact ⟨_, exec_measured s rfl (decide_eq_true hp)⟩
  · exact ⟨_, exec_measured s rfl (decide_eq_true hp)⟩
  · exact ⟨_, exec_measured s rfl rfl⟩

/-- The pages that have no such word answer with NACK. -/
theorem exec_reads_absent {i : Instr}
    (h : (i ∈ [Instr.readVin none, .readIin none] ∧ (s.shelf.page = 0 ∨ s.shelf.page = 9))
        ∨ (i ∈ [Instr.readVout none, .readIout none] ∧ 1 ≤ s.shelf.page.toNat ∧ s.shelf.page.toNat ≤ 8)
        ∨ (i = .readTemperature1 none ∧ s.shelf.page = 0) ∨ (i ∈ [Instr.readPout none, .readPin none] ∧ s.shelf.page = 9)) :
    exec i s = .next { s with
      chip := { s.chip with free := s.chip.free + 1 }
      shelf := { s.shelf with reply := none, statusCml := s.shelf.statusCml ||| 0x80 } } := by
  simp only [List.mem_cons, List.not_mem_nil, or_false] at h
  rcases h with ⟨rfl | rfl, hp⟩ | ⟨rfl | rfl, h1, h8⟩ | ⟨rfl, hp⟩ | ⟨rfl | rfl, hp⟩
  · exact exec_unmeasured s rfl (by rcases hp with hp | hp <;> simp [hp, pages1to8])
  · exact exec_unmeasured s rfl (by rcases hp with hp | hp <;> simp [hp, pages1to8])
  · exact exec_unmeasured s rfl (by simp; omega)
  · exact exec_unmeasured s rfl (by simp; omega)
  · exact exec_unmeasured s rfl (by simp [hp])
  · exact exec_unmeasured s rfl (by simp [hp])
  · exact exec_unmeasured s rfl (by simp [hp])

end

/-- A PMBus command that only reads, written to, is an invalid command. -/
theorem shelfTakes_written (s : State) (b : List Byte) {i : Instr}
    (hi : i ∈ [Instr.capability (some b), .voutMode (some b), .statusCml (some b), .pmbusRevision (some b), .mfrId (some b),
      .mfrModel (some b), .mfrShelfState (some b), .mfrHandoverTime (some b), .mfrReturnLog (some b), .mfrStormCount (some b)]) :
    s.shelfTakes i (fun x => x = { s.shelf with reply := none, statusCml := s.shelf.statusCml ||| 0x80 }) := by
  simp only [List.mem_cons, List.not_mem_nil, or_false] at hi
  rcases hi with rfl | rfl | rfl | rfl | rfl | rfl | rfl | rfl | rfl | rfl <;> exact ⟨_, rfl, rfl⟩

/-- Settles O47: what the shelf keeps is answered as it stands; a measured word is the next free value. -/
theorem shelfAnswersItsReads : Obligations.ShelfAnswersItsReads := by
  unfold Obligations.ShelfAnswersItsReads
  refine ⟨⟨fun s => ⟨⟨_, rfl, rfl⟩, ⟨_, rfl, rfl⟩, ⟨_, rfl, rfl⟩, ⟨_, rfl, rfl⟩, ?cml, ⟨_, rfl, rfl⟩, ⟨_, rfl, rfl⟩, ⟨_, rfl, rfl⟩, ?state,
      fun hp => ?vout, fun hp => ?absent⟩, fun s b i hi => shelfTakes_written s b hi⟩,
    fun s u hu => ?measured⟩
  case cml => exact shelfTakes_of_runShelf (f := fun x => x.readOnly none everyPage (fun x => x.give 1 x.statusCml.toNat)) rfl (s.shelf.give_byte _)
  case state =>
    obtain ⟨b, hb, h⟩ := s.shelf.give_stateByte
    exact shelfTakes_of_runShelf (f := fun x => x.readOnly none everyPage (fun x => x.give 1 x.stateByte)) rfl ⟨b, hb, h⟩
  case vout =>
    exact shelfTakes_of_runShelf (f := fun x => x.readOnly none (· == 0) (fun x => x.give 1 0x17)) rfl
      (Shelf.readOnly_read (by simp [hp]) _)
  case absent =>
    exact shelfTakes_of_runShelf (f := fun x => x.readOnly none (· == 0) (fun x => x.give 1 0x17)) rfl
      (Shelf.readOnly_absent (pages := fun p => p == 0) (beq_eq_false_iff_ne.mpr fun h => hp (BitVec.eq_of_toNat_eq h)) _)
  case measured =>
    subst hu
    refine ⟨fun i hi => ?_, ⟨_, ?_, exec_measured s rfl rfl⟩, ⟨_, ?_, exec_measured s rfl rfl⟩, fun i hi => exec_reads_word s hi,
      ⟨_, Nat.min_le_left _ _, exec_measured s rfl rfl⟩, ⟨_, Nat.min_le_left _ _, rfl⟩, fun i hi => exec_reads_absent s hi⟩
    · simp only [List.mem_cons, List.not_mem_nil, or_false] at hi
      rcases hi with rfl | rfl | rfl | rfl <;> exact ⟨_, exec_measured s rfl rfl⟩
    · exact bit_one_setBits _ _
    · exact bit_one_setBits _ _

/-! ### PMBus: what is written (R783, R784, R787, R788) -/

theorem leAt_byte (v : Byte) : leAt [v] 0 1 = v.toNat := by
  simp [leAt, slice, leNat]

theorem leAt_word (v : W16) : leAt (natLe 2 v.toNat) 0 2 = v.toNat := by
  have := v.isLt
  simp only [leAt, slice, natLe, List.drop_zero, List.take_succ_cons, List.take_zero, leNat, BitVec.toNat_ofNat]
  omega

section
variable (x : Shelf)

theorem Shelf.doPage_inside {v : Byte} (h : v.toNat ≤ 9) : x.doPage (some [v]) = { x with page := v, reply := some [] } := by
  simp [Shelf.doPage, leAt_byte, h, Shelf.taken]

theorem Shelf.doPage_outside {v : Byte} (h : 9 < v.toNat) : x.doPage (some [v]) = x.nack 6 := by
  refine if_neg ?_
  rw [leAt_byte, decide_eq_false (Nat.not_le.mpr h), Bool.and_false]
  exact Bool.false_ne_true

theorem Shelf.doEvents_clears (v : W16) : x.doEvents (some (natLe 2 v.toNat)) = { x with events := x.events &&& ~~~v, reply := some [] } := by
  simp only [Shelf.doEvents, leAt_word, BitVec.ofNat_toNat, BitVec.setWidth_eq]
  rfl

theorem Shelf.wordLimits_inside {v : W16} {lo hi : Nat} (hlo : lo ≤ v.toNat) (hhi : v.toNat ≤ hi) (old : W16) (f : W16 → Shelf) :
    x.wordLimits (some (natLe 2 v.toNat)) old lo hi f = (f v).taken := by
  simp only [Shelf.wordLimits, leAt_word, BitVec.ofNat_toNat, BitVec.setWidth_eq]
  simp [natLe, hlo, hhi]

theorem Shelf.wordLimits_outside {v : W16} {lo hi : Nat} (h : v.toNat < lo ∨ hi < v.toNat) (old : W16) (f : W16 → Shelf) :
    x.wordLimits (some (natLe 2 v.toNat)) old lo hi f = x.nack 6 := by
  simp only [Shelf.wordLimits, leAt_word]
  rw [if_neg]
  simp only [Bool.and_eq_true, decide_eq_true_eq]
  omega

end

theorem getLsbD_two_pow (k j : Fin 8) : (BitVec.ofNat 8 (2 ^ k.val)).getLsbD j.val = decide (j = k) := by
  revert k j
  decide

theorem getLsbD_switchOn (r : Byte) (k j : Fin 8) : (r ||| BitVec.ofNat 8 (2 ^ k.val)).getLsbD j.val = (r.getLsbD j.val || decide (j = k)) := by
  rw [BitVec.getLsbD_or, getLsbD_two_pow]

theorem getLsbD_switchOff (r : Byte) (k j : Fin 8) :
    (r &&& ~~~(BitVec.ofNat 8 (2 ^ k.val))).getLsbD j.val = (r.getLsbD j.val && !decide (j = k)) := by
  rw [BitVec.getLsbD_and, BitVec.getLsbD_not, getLsbD_two_pow, decide_eq_true j.isLt, Bool.true_and]

/-- OPERATION on a rectifier's page switches that rectifier alone. -/
theorem Shelf.doOperation_shows {x : Shelf} {k : Fin 8} (h : x.page.toNat = k.val + 1) :
    x.doOperation (some [0x80]) = { x with rectOn := x.rectOn ||| BitVec.ofNat 8 (2 ^ k.val), reply := some [] }
    ∧ x.doOperation (some [0x00]) = { x with rectOn := x.rectOn &&& ~~~(BitVec.ofNat 8 (2 ^ k.val)), reply := some [] }
    ∧ x.doOperation none = { x with reply := some [if x.rectOn.getLsbD k.val then 0x80 else 0x00] } := by
  have hp : pages1to8 x.page.toNat = true := pages1to8_of_le (by omega) (by omega)
  have hk : x.page.toNat - 1 = k.val := by omega
  refine ⟨?_, ?_, ?_⟩
  · simp [Shelf.doOperation, hp, hk, Shelf.taken]
  · simp [Shelf.doOperation, hp, hk, Shelf.taken]
  · simp only [Shelf.doOperation, hp, hk, Bool.not_true, Bool.false_eq_true, if_false, Shelf.give, natLe]
    split <;> rfl

/-- The charge that MFR_TEST_HANDOVER finds. -/
def State.testCharge (s : State) : Nat := min 1000 (Config.freeReading s.chip.free 0xD2 0).toNat

theorem exec_testHandover_accepted {s : State} (hm : s.shelf.state = .mains) (hc : 900 ≤ s.testCharge) (hr : s.shelf.reserve = false) :
    exec (.mfrTestHandover (some [0xA5])) s = .next { s with
      chip := { s.chip with free := s.chip.free + 1 }
      shelf := { s.shelf with soc := BitVec.ofNat 16 s.testCharge, state := .handover, testing := true, reply := some [] } } := by
  simp only [exec, execMfrTestHandover, State.testHandover, State.chargeNow, Chip.drawFree]
  unfold State.testCharge at *
  simp [hm, hc, hr, Shelf.taken]

theorem exec_testHandover_refused {s : State} (h : s.shelf.state ≠ .mains ∨ s.testCharge < 900 ∨ s.shelf.reserve = true) :
    exec (.mfrTestHandover (some [0xA5])) s = .next { s with
      chip := { s.chip with free := s.chip.free + 1 }
      shelf := { s.shelf with soc := BitVec.ofNat 16 s.testCharge, reply := none, statusCml := s.shelf.statusCml ||| 0x40 } } := by
  simp only [exec, execMfrTestHandover, State.testHandover, State.chargeNow, Chip.drawFree]
  unfold State.testCharge at *
  rw [if_neg]
  · rfl
  · simp only [Bool.and_eq_true, beq_iff_eq, decide_eq_true_eq, Bool.not_eq_true']
    rintro ⟨⟨⟨_, hm⟩, hc⟩, hr⟩
    rcases h with h | h | h
    · exact h hm
    · exact absurd (of_decide_eq_true hc) (Nat.not_le.mpr h)
    · exact absurd (hr.symm.trans h) Bool.false_ne_true

/-- Settles O48: each setting by whether its value is in range, the test by the state, the charge and RESERVE. -/
theorem shelfTakesItsSettings : Obligations.ShelfTakesItsSettings := by
  unfold Obligations.ShelfTakesItsSettings
  refine ⟨⟨fun s v => ⟨fun h => ?_, fun h => ?_, ?_⟩, fun s k hk => ?rect, fun s => ⟨_, rfl, rfl⟩, fun s v => ⟨⟨_, rfl, rfl⟩, ?_⟩,
    fun s v => ⟨⟨_, rfl, rfl⟩, fun hlo hhi => ?_, fun h => ?_⟩, fun s v => ⟨⟨_, rfl, rfl⟩, fun hlo hhi => ?_, fun h => ?_⟩,
    fun s v => ⟨⟨_, rfl, rfl⟩, fun hlo hhi hr => ?_, fun h => ?_⟩⟩,
    fun s => ⟨s.testCharge, Nat.min_le_left _ _, fun ⟨hm, hc, hr⟩ => exec_testHandover_accepted hm hc hr, exec_testHandover_refused⟩⟩
  case rect =>
    obtain ⟨hon, hoff, hread⟩ := Shelf.doOperation_shows hk
    refine ⟨shelfTakes_of_eq (f := fun x => x.doOperation (some [0x80])) rfl hon ⟨rfl, ?_, fun j hj => ?_⟩,
      shelfTakes_of_eq (f := fun x => x.doOperation (some [0x00])) rfl hoff ⟨rfl, ?_, fun j hj => ?_⟩, ⟨_, rfl, hread⟩⟩
    · exact (getLsbD_switchOn _ k k).trans (by rw [decide_eq_true rfl, Bool.or_true])
    · exact (getLsbD_switchOn _ k j).trans (by rw [decide_eq_false hj, Bool.or_false])
    · exact (getLsbD_switchOff _ k k).trans (by rw [decide_eq_true rfl, Bool.not_true, Bool.and_false])
    · exact (getLsbD_switchOff _ k j).trans (by rw [decide_eq_false hj, Bool.not_false, Bool.and_true])
  · exact ⟨_, rfl, s.shelf.doPage_inside h⟩
  · exact ⟨_, rfl, s.shelf.doPage_outside h⟩
  · exact ⟨_, rfl, s.shelf.give_byte _⟩
  · exact ⟨_, rfl, s.shelf.doEvents_clears v⟩
  · exact ⟨_, rfl, s.shelf.wordLimits_inside hlo hhi _ _⟩
  · exact ⟨_, rfl, s.shelf.wordLimits_outside h _ _⟩
  · exact ⟨_, rfl, s.shelf.wordLimits_inside hlo hhi _ _⟩
  · exact ⟨_, rfl, s.shelf.wordLimits_outside h _ _⟩
  · exact ⟨_, rfl, s.shelf.wordLimits_inside hlo (by omega) _ _⟩
  · exact ⟨_, rfl, s.shelf.wordLimits_outside (by omega) _ _⟩

end Sys2Proof.Machine

section
/-! Datagrams of the sled controller, the table of the sync object types, and tile orders at an idle tile. -/

namespace Sys2Proof.Machine

/-! ### Datagrams (R804, R805) -/

theorem next_of_eq {s t u : State} (h : t = u) : (.next (s.settledTo t) : Ans) = .next (s.settledTo u) := by rw [h]

theorem State.onDatagram_fresh {s : State} {q : W32} (h : s.fresh q = true) (f : State → State × List Byte) :
    s.onDatagram q f = { (f s).1 with sled := (f s).1.sled.answered q (f s).2 } := by
  unfold State.onDatagram
  rw [Option.isNone_iff_eq_none.mp h]

theorem State.onDatagram_again {s : State} {q : W32} {e : W32 × List Byte} (h : s.sled.answers.find? (fun e => e.1 == q) = some e)
    (f : State → State × List Byte) : s.onDatagram q f = { s with sled := { s.sled with answer := e.2 } } := by
  unfold State.onDatagram
  rw [h]

theorem State.onRequest_fresh {s : State} {q : W32} (h : s.fresh q = true) (k : DieId) (code : Nat) (f : State → State) :
    s.onRequest q k code f
      = { f s with sled := (f s).sled.answered q ((f s).sled.datagram 3 k q (natLe 1 5 ++ natLe 1 code ++ natLe 1 stOK)) } := by
  unfold State.onRequest
  rw [State.onDatagram_fresh h]

theorem State.toPackage_here {s : State} {q : W32} {k : DieId} (h : s.fresh q = true) (hk : k = s.sled.slot) (f : List Byte) :
    s.toPackage q k f = { s with
      chip := (s.chip.sledFrame s.sled.stormHold f).1
      sled := s.sled.answered q (match (s.chip.sledFrame s.sled.stormHold f).2 with
        | some g => s.sled.datagram 1 k q g
        | none => []) } := by
  unfold State.toPackage
  subst hk
  rw [State.onDatagram_fresh h]
  simp only [if_true] <;> rfl

theorem State.toPackage_elsewhere {s : State} {q : W32} {k : DieId} (h : s.fresh q = true) (hk : k ≠ s.sled.slot) (f : List Byte) :
    s.toPackage q k f = { s with sled := s.sled.answered q [] } := by
  unfold State.toPackage
  rw [State.onDatagram_fresh h]
  simp only [if_neg hk]

theorem State.bridgeRetry_again {s : State} {q : W32} {e : W32 × List Byte} (h : s.sled.answers.find? (fun e => e.1 == q) = some e) :
    s.bridgeRetry q = { s with sled := { s.sled with answer := e.2 } } := by
  unfold State.bridgeRetry
  rw [h]

theorem State.bridgeRetry_fresh {s : State} {q : W32} (h : s.fresh q = true) : s.bridgeRetry q = s := by
  unfold State.bridgeRetry
  rw [Option.isNone_iff_eq_none.mp h]

theorem State.passNotice_again {s : State} {storm : Bool} (h : s.sled.noticed = some storm) : s.passNotice storm = s := by
  simp [State.passNotice, h]

theorem State.passNotice_held {s : State} {storm : Bool} (h : s.sled.noticed ≠ some storm) (hh : s.chip.held = true) :
    s.passNotice storm = { s with sled := { s.sled with noticed := some storm, heldNotice := some storm } } := by
  simp [State.passNotice, State.sendNotice, h, hh]

theorem State.passNotice_new {s : State} {storm : Bool} (h : s.sled.noticed ≠ some storm) (hh : s.chip.held = false)
    (hl : s.chip.crook.smbus.length < 8) :
    s.passNotice storm = { s with
      chip := (s.chip.sledFrame s.sled.stormHold (requestFrame 0x12 0 [if storm then 1 else 2])).1
      sled := { s.sled with noticed := some storm, heldNotice := none } } := by
  have hb : natLe 1 (if storm then 1 else 2) = [if storm then 1 else 2] := by cases storm <;> rfl
  simp [State.passNotice, State.sendNotice, h, hh, hb, Nat.not_le.mpr hl]

/-- Settles O58: a new datagram is carried out by its row and its answer is kept; a repeat only gives the answer kept. -/
theorem datagramsAreCarriedOutOnce : Obligations.DatagramsAreCarriedOutOnce := by
  unfold Obligations.DatagramsAreCarriedOutOnce
  refine ⟨⟨fun s q k f h => ⟨fun hk => ⟨_, rfl, ?here⟩, fun hk => ?elsewhere⟩, fun s q k pins h => ⟨_, rfl, ?pins⟩,
    fun s q k h => ⟨⟨_, rfl, ?on⟩, ⟨_, rfl, ?off⟩⟩,
    fun s q storm h => ⟨fun hn => ?again, fun hn hh => ⟨_, rfl, ?held⟩, fun hn hh hl => ⟨_, rfl, ?new⟩⟩,
    fun s q h => ?state⟩, fun s q k f pins storm e i h hi => ?repeated, fun s q h => ?retry⟩
  case here => exact next_of_eq (State.toPackage_here h hk f)
  case elsewhere => exact next_of_eq (State.toPackage_elsewhere h hk f)
  case pins => exact next_of_eq (State.onRequest_fresh h k 1 _)
  case on => exact next_of_eq (State.onRequest_fresh h k 2 _)
  case off => exact next_of_eq (State.onRequest_fresh h k 3 _)
  case again =>
    have hr := State.onRequest_fresh h s.sled.slot 4 (fun s => s.passNotice storm)
    simp only [State.passNotice_again hn] at hr
    exact next_of_eq hr
  case held =>
    have hr := State.onRequest_fresh h s.sled.slot 4 (fun s => s.passNotice storm)
    simp only [State.passNotice_held hn hh] at hr
    exact next_of_eq hr
  case new =>
    have hr := State.onRequest_fresh h s.sled.slot 4 (fun s => s.passNotice storm)
    simp only [State.passNotice_new hn hh hl] at hr
    exact next_of_eq hr
  case state => exact next_of_eq (State.onDatagram_fresh h _)
  case repeated =>
    simp only [List.mem_cons, List.not_mem_nil, or_false] at hi
    have hd := fun f => next_of_eq (s := s) (State.onDatagram_again h f)
    rcases hi with rfl | rfl | rfl | rfl | rfl | rfl | rfl
    case inr.inl => exact next_of_eq (State.bridgeRetry_again h)
    all_goals exact hd _
  case retry =>
    exact next_of_eq (State.bridgeRetry_fresh h)

/-! ### The sync object types (R363) -/

theorem ofNat_unsext (w : Nat) (k : Int) : BitVec.ofNat w (unsext w k) = BitVec.ofInt w k := by
  unfold unsext
  apply BitVec.eq_of_toNat_eq
  rw [BitVec.toNat_ofNat, BitVec.toNat_ofInt]
  refine Nat.mod_eq_of_lt ?_
  have hw : (0 : Int) < ((2 ^ w : Nat) : Int) := Int.natCast_pos.mpr (Nat.two_pow_pos w)
  have h := Int.emod_lt_of_pos k hw
  have h0 := Int.emod_nonneg k (Int.ne_of_gt hw)
  omega

theorem SyncObj.apply_none {x : SyncObj} (h : x.type = 0) (op : Nat) (k : Int) : x.apply op k = none := by
  simp [SyncObj.apply, h]

theorem SyncObj.apply_add_counter {x : SyncObj} (h : x.type = 1) (k : Int) :
    x.apply 0 k = some { x with value := x.value + BitVec.ofInt 32 k } := by
  simp [SyncObj.apply, h, BitVec.ofNat_add, ofNat_unsext]

theorem SyncObj.apply_set_counter {x : SyncObj} (h : x.type = 1) (k : Int) :
    x.apply 1 k = some { x with value := BitVec.ofInt 32 k } := by
  simp [SyncObj.apply, h, ofNat_unsext]

theorem SyncObj.apply_barrier_low {x : SyncObj} (h : x.type = 2) {k : Int} (hk : k < 1) (op : Nat) : x.apply op k = none := by
  simp [SyncObj.apply, h, show k ≤ 0 by omega]

theorem SyncObj.apply_set_barrier {x : SyncObj} (h : x.type = 2) {k : Int} (hk : 1 ≤ k) :
    x.apply 1 k = some { x with expected := BitVec.ofNat 16 k.toNat, arrived := 0 } := by
  simp [SyncObj.apply, h, show ¬ k ≤ 0 by omega]

theorem SyncObj.apply_add_barrier {x : SyncObj} (h : x.type = 2) {k : Int} (hk : 1 ≤ k) (he : x.expected ≠ 0) :
    x.apply 0 k = some { x with
      value := BitVec.ofNat 32 (x.value.toNat + (x.arrived.toNat + k.toNat) / x.expected.toNat)
      arrived := BitVec.ofNat 16 ((x.arrived.toNat + k.toNat) % x.expected.toNat) } := by
  have he' : ¬ x.expected = 0#16 := he
  simp [SyncObj.apply, h, he', show ¬ k ≤ 0 by omega]

theorem subMod_toNat (x v : W32) : subMod (2 ^ 32) x.toNat v.toNat = (x - v).toNat := by
  unfold subMod
  bv_omega

/-- Settles O18: the rows of the table of sync object types, one type at a time. -/
theorem syncObjectTypesFollowTheTable : Obligations.SyncObjectTypesFollowTheTable := by
  unfold Obligations.SyncObjectTypesFollowTheTable
  intro x k
  refine ⟨fun h => ⟨SyncObj.apply_none h 0 k, SyncObj.apply_none h 1 k⟩,
    fun h => ⟨SyncObj.apply_add_counter h k, SyncObj.apply_set_counter h k⟩,
    fun h hk => ⟨SyncObj.apply_barrier_low h hk 0, SyncObj.apply_barrier_low h hk 1⟩,
    fun h hk => SyncObj.apply_set_barrier h hk,
    fun h hk he => ⟨_, SyncObj.apply_add_barrier h hk he, rfl, ?gen, ?arrived⟩,
    fun h => ?event, fun v => ⟨fun h => ?never, fun h => ?count, fun h => ?set⟩⟩
  case gen => simp [BitVec.ofNat_add]
  case arrived =>
    have hpos : 0 < x.expected.toNat := by bv_omega
    have hlt := Nat.mod_lt (x.arrived.toNat + k.toNat) hpos
    exact Nat.mod_eq_of_lt (Nat.lt_trans hlt x.expected.isLt)
  case event => simp [SyncObj.apply, h]
  case never => simp [SyncObj.holds, h]
  case count => rcases h with h | h <;> simp only [SyncObj.holds, h, subMod_toNat] <;> rfl
  case set => simp [SyncObj.holds, h]

/-! ### Tile orders (R152–R155) -/

theorem Page.rd_wr (p : Page) (off v : Nat) : (p.wr off v).rd off = v % 2 ^ 32 := by
  simp [Page.rd, Page.wr]

theorem Page.rd_wr_other (p : Page) {off off' : Nat} (v : Nat) (h : off' ≠ off) : (p.wr off v).rd off' = p.rd off' := by
  unfold Page.rd Page.wr
  rw [mapGet_mapSet_other _ _ _ h]

theorem Page.rd_cntWrap (p : Page) (off k : Nat) : (p.cntWrap off k).rd off = (p.rd off + k) % 2 ^ 32 := Page.rd_wr _ _ _

theorem Page.rd_cntWrap_other (p : Page) {off off' : Nat} (k : Nat) (h : off' ≠ off) : (p.cntWrap off k).rd off' = p.rd off' :=
  Page.rd_wr_other _ _ h

theorem ordTop_lt (ws : List W64) : ordTop ws < 256 := by
  unfold ordTop ordBytes leAt slice
  cases (List.drop 0 (wordBytes ws)) with
  | nil => simp [leNat]
  | cons b l => simpa [leNat] using b.isLt

theorem Chip.tile_endOrder (c : Chip) (k : Nat) (o : TileOrder) (st : Nat) :
    (c.endOrder k o st).tile k = { c.tile k with
      orders := { (c.tile k).orders with current := none }
      pCore := ((c.tile k).pCore.wr 0x380 (st + 256 * ordTop o.words)).cntWrap 0x384 1 } :=
  tile_updTile c k (fun t => { t with
    orders := { t.orders with current := none }
    pCore := (t.pCore.wr 0x380 (st + 256 * ordTop o.words)).cntWrap 0x384 1 })

theorem Chip.tile_endOrder_other (c : Chip) {k j : Nat} (h : j ≠ k) (o : TileOrder) (st : Nat) :
    (c.endOrder k o st).tile j = c.tile j := by
  unfold Chip.endOrder
  rw [Chip.updTile_eq]
  exact (Chip.tile_putTile c k j _).trans (if_neg h)

/-- Settles O20: the two registers of the tile's core page are written, and nothing else of the tiles. -/
theorem endedOrderIsReported : Obligations.EndedOrderIsReported := by
  unfold Obligations.EndedOrderIsReported
  intro c k o st hst
  refine ⟨?status, ?count, by rw [Chip.tile_endOrder], fun j hj => Chip.tile_endOrder_other c hj o st, rfl⟩
  case status =>
    have htop := ordTop_lt o.words
    rw [Chip.tile_endOrder, Page.rd_cntWrap_other _ _ (by decide), Page.rd_wr]
    omega
  case count => rw [Chip.tile_endOrder, Page.rd_cntWrap, Page.rd_wr_other _ _ (by decide)]

theorem Chip.orderServed_frame {c : Chip} {k : Nat} {hdr : W64} {ws : List W64} (h : c.orderServed k hdr ws = true) :
    c.held = false ∧ (ws.length == 8) = true := by
  unfold Chip.orderServed at h
  simp only [Bool.and_eq_true, Bool.not_eq_true'] at h
  obtain ⟨⟨⟨⟨⟨⟨⟨⟨⟨hheld, hlen⟩, -⟩, -⟩, -⟩, -⟩, -⟩, -⟩, -⟩, -⟩ := h
  exact ⟨hheld, hlen⟩

/-- A tile order served at once runs on the tile that has taken it, and the core goes on with its queue. -/
theorem takes_of_orderServed {s : State} {i : Instr} {k : Nat} {hdr : W64} {ws : List W64} {w : OrderWorld} {d : Chip}
    (h : s.chip.orderServed k hdr ws = true) (hw : i.wf = (ws.length == 8))
    (hi : exec i s = shaped i (s.run (fun c => c.tileCommand k hdr ws w)))
    (hd : Chip.orderRun (s.chip.orderTaken k hdr ws) k (ordOf (hdr :: ws)) w = d) :
    s.takes i (fun c => c = d.serveOrders k w 2) := by
  obtain ⟨hheld, hlen⟩ := Chip.orderServed_frame h
  rw [shaped_wf (hw.trans hlen)] at hi
  refine takes_of_run hi hheld ?_
  rw [tileCommand_of_served h, hd]

theorem Chip.orderRun_nop {x : Chip} {o : TileOrder} (k : Nat) (w : OrderWorld) (h : ordTop o.words = 0) :
    x.orderRun k o w = x.endOrder k o stOK := by
  simp only [Chip.orderRun, h]

theorem Chip.orderRun_chain {x : Chip} {o : TileOrder} {k : Nat} (w : OrderWorld) (h : ordTop o.words = 1) (hb : x.denseBarred k = false) :
    x.orderRun k o w
      = x.chainOn k { desc := BitVec.ofNat 6 (ordArg o.words), waiting := false, entry := none, round := none, status := 0 } := by
  simp only [Chip.orderRun, h, hb, Bool.false_eq_true, if_false]

theorem Chip.orderRun_clear {x : Chip} {o : TileOrder} {k : Nat} (w : OrderWorld) (h : ordTop o.words = 2) (hl : x.liveTile k = false) :
    x.orderRun k o w = if w.readBackFails then (((x.orderFreed k).clearCore k (fun _ => true)).clearFailed k).endOrder k o stFENCED
      else ((x.orderFreed k).clearCore k (fun _ => true)).endOrder k o stOK := by
  simp only [Chip.orderRun, h, hl, Bool.false_eq_true, if_false]

theorem Chip.orderRun_clear_live {x : Chip} {o : TileOrder} {k : Nat} (w : OrderWorld) (h : ordTop o.words = 2) (hl : x.liveTile k = true) :
    x.orderRun k o w = x.endOrder k o stBUSY_PASTURE := by
  simp only [Chip.orderRun, h, hl, if_true]

theorem Chip.orderRun_test {x : Chip} {o : TileOrder} {k : Nat} (w : OrderWorld) (h : ordTop o.words = 3) (hl : x.liveTile k = false) :
    x.orderRun k o w = ((x.orderFreed k).testTile k (ordArg o.words) w.fails).endOrder k o
      (if w.fails &&& ordArg o.words = 0 then stOK else stFENCED) := by
  simp only [Chip.orderRun, h, hl, Bool.false_eq_true, if_false]

theorem Chip.orderRun_reset {x : Chip} {o : TileOrder} {k : Nat} (w : OrderWorld) (h : ordTop o.words = 4) (hl : x.liveTile k = false) :
    x.orderRun k o w = (((x.orderFreed k).clearCore k (fun _ => true)).resetTileRegs k).endOrder k o stOK := by
  simp only [Chip.orderRun, h, hl, Bool.false_eq_true, if_false]

/-- Settles O19: the served order runs by its opcode on the tile that has taken it. -/
theorem tileOrdersRunAndEnd : Obligations.TileOrdersRunAndEnd := by
  unfold Obligations.TileOrdersRunAndEnd
  rintro s d t hdr ws k o x rfl rfl h rfl
  refine ⟨fun ht => takes_of_orderServed h rfl rfl (Chip.orderRun_nop _ _ ht),
    fun ht hb => takes_of_orderServed h rfl rfl (Chip.orderRun_chain _ ht hb),
    fun ht hl => ⟨takes_of_orderServed h rfl rfl (Chip.orderRun_clear _ ht hl),
      takes_of_orderServed (w := { readBackFails := true }) h rfl rfl (Chip.orderRun_clear _ ht hl)⟩,
    fun fails ht hl => takes_of_orderServed (w := { fails := fails.toNat }) h rfl rfl (Chip.orderRun_test _ ht hl),
    fun ht hl => takes_of_orderServed h rfl rfl (Chip.orderRun_reset _ ht hl),
    fun ht hl => takes_of_orderServed h rfl rfl (Chip.orderRun_clear_live _ ht hl)⟩

end Sys2Proof.Machine
end

section
/-! Scoreboard commands that move pastures, run engines, and read or write images and the NV store. -/

namespace Sys2Proof.Machine

/-! ### What a start leaves -/

@[simp] theorem ofNat_entryId (e : EntryId) : (Fin.ofNat 512 e.val : EntryId) = e := Fin.ext (Nat.mod_eq_of_lt e.isLt)

@[simp] theorem started_dom (c : Chip) (e : EntryId) (n : Nat) : (c.started e).dom n = c.dom n := by
  obtain ⟨l, m, h⟩ := started_eq c e
  rw [h]; rfl

@[simp] theorem started_unit (c : Chip) (e : EntryId) (u : Nat) : (c.started e).unit u = c.unit u := by
  obtain ⟨l, m, h⟩ := started_eq c e
  rw [h]; rfl

@[simp] theorem started_pkg (c : Chip) (e : EntryId) : (c.started e).pkg = c.pkg := by
  obtain ⟨l, m, h⟩ := started_eq c e
  rw [h]; rfl

@[simp] theorem started_residents (c : Chip) (e : EntryId) : (c.started e).residents = c.residents := by
  obtain ⟨l, m, h⟩ := started_eq c e
  rw [h]; rfl

@[simp] theorem started_ladderOf (c : Chip) (e : EntryId) (p : Nat) : (c.started e).ladderOf p = c.ladderOf p := by
  obtain ⟨l, m, h⟩ := started_eq c e
  rw [h]; rfl

/-- A scoreboard command that starts answers what its unit makes of the started package. -/
theorem takes_of_started {s : State} {i : Instr} {e : EntryId} {op : Nat} {f : Chip → Chip} {d : Chip} {post : Chip → Prop}
    (hi : exec i s = s.run (fun c => c.start e.val op f)) (h : s.chip.starts e op = true) (hd : f (s.chip.started e) = d)
    (hp : post d) : s.takes i post :=
  takes_of_starts hi h (hd ▸ hp)

/-- A started command of a pasture that exists is carried out on it. -/
theorem onPast_started {c : Chip} {e : EntryId} (h : (c.past (c.entry e.val).pasture).presence ≠ .free) (f : Nat → Past → Chip) :
    (c.started e).onPast e.val f = f (c.entry e.val).pasture (c.past (c.entry e.val).pasture) := by
  simp [Chip.onPast, h]

theorem Past.resident_of_presence {x : Past} (h : x.presence = .resident) : x.resident = true ∧ x.presence ≠ .free := by
  simp [Past.resident, h]

theorem Past.not_resident_of_pagedOut {x : Past} (h : x.presence = .pagedOut) : x.resident = false ∧ x.presence ≠ .free := by
  simp [Past.resident, h]

/-! ### SET_DOMAIN, SET_OP_POINT and TEST_UNIT (R412–R416) -/

theorem Chip.askDomain_idle {c : Chip} {n : Nat} (hc : (c.dom n).current = none) (hd : (c.dom n).draining = false)
    (hw : (c.dom n).waking = false) (q : DomReq) : c.askDomain n q = c.startReq n q := by
  simp [Chip.askDomain, hc, hd, hw]

theorem Chip.startReq_there {c : Chip} {n : Nat} {q : DomReq} (hk : domKind n ≠ .nothing) (h : (c.dom n).state = q.target) :
    c.startReq n q = c.conclude n q q.target stOK 0 := by
  simp [Chip.startReq, hk, h]

theorem Chip.startReq_drains {c : Chip} {n : Nat} {q : DomReq} (h : (c.dom n).state = .on) (ht : q.target ≠ .on)
    (hr : c.refusals n q.target q = []) : c.startReq n q = c.updDom n (fun d => { d with
      draining := true, current := some q, prev := d.state, drainFrom := c.now }) := by
  simp [Chip.startReq, h, ht, Ne.symm ht, hr]

/-- SET_DOMAIN asks for its domain in the name of its entry. -/
theorem Chip.doSetDomain_started {c : Chip} {e : EntryId} {t : DomState} (ht : domOf (bits ((c.entry e.val).bytes 32 4) 17 16) = some t) :
    (c.started e).doSetDomain e.val = (c.started e).askDomain (bits ((c.entry e.val).bytes 32 4) 9 0)
      { target := t, asker := .command e, origin := (c.entry e.val).asOrigin } := by
  simp only [Chip.doSetDomain, started_bytes, started_asOrigin, ht, ofNat_entryId]

theorem updDom_congr {c : Chip} {n : Nat} {f g : DomRec → DomRec} (h : f (c.dom n) = g (c.dom n)) : c.updDom n f = c.updDom n g := by
  simp only [Chip.updDom_eq, h]

theorem like_updDom_started (c : Chip) (e : EntryId) (n : Nat) (f : DomRec → DomRec) :
    (c.updDom n f).like ((c.started e).updDom n f) e := by
  obtain ⟨l, m, h⟩ := started_eq c e
  refine ⟨fun i hi => ?_, ?_⟩
  · simpa only [Chip.updDom_eq, Chip.entry, Chip.putDom_sb] using (like_started c e).1 i hi
  · rw [h]
    simp only [Chip.updDom_eq, Chip.putDom, Chip.putEntry, Chip.dom]

theorem conclude_command {c : Chip} {n : Nat} (hc : (c.dom n).current = none) (e : EntryId) (t prev : DomState) (o : Origin) :
    c.conclude n { target := t, asker := .command e, origin := o } prev stOK 0
      = (c.updDom n (fun d => { d with lastStatus := BitVec.ofNat 8 stOK, drainTime := 0 })).finish e.val stOK (domNum prev)
          (progressWord 100 0) := by
  have hd : c.updDom n (fun d => { d with
        current := none, lastStatus := BitVec.ofNat 8 stOK, drainTime := BitVec.ofNat 16 (min 65535 0) })
      = c.updDom n (fun d => { d with lastStatus := BitVec.ofNat 8 stOK, drainTime := 0 }) :=
    updDom_congr (by simp [hc])
  simp only [Chip.conclude, hd]
  simp

/-- A plain SET_DOMAIN that is concluded on an idle domain ends on its entry, and the domain shows the status. -/
theorem ends_conclude {c : Chip} {e : EntryId} {n : Nat} {t prev : DomState} {o : Origin} (hc : (c.dom n).current = none)
    (hp : c.plain e = true) :
    (c.updDom n (fun d => { d with lastStatus := BitVec.ofNat 8 stOK, drainTime := 0 })).ends
      ((c.started e).conclude n { target := t, asker := .command e, origin := o } prev stOK 0) e stOK (domNum prev) := by
  rw [conclude_command (by rw [started_dom, hc])]
  have hrun : (((c.started e).updDom n (fun d => { d with lastStatus := BitVec.ofNat 8 stOK, drainTime := 0 })).entry e.val).state = .running := by
    simpa only [Chip.updDom_eq, Chip.entry, Chip.putDom_sb] using started_state c e
  have hplain : ((c.started e).updDom n (fun d => { d with lastStatus := BitVec.ofNat 8 stOK, drainTime := 0 })).plain e = true := by
    simpa only [Chip.plain, Chip.updDom_eq, Chip.entry, Chip.putDom_sb] using (started_plain c e).trans hp
  exact ⟨finish_done _ _ _ hrun hplain, like_trans (like_updDom_started c e n _) (like_finish _ _ _ hrun hplain)⟩

/-- A request out of ON that nothing refuses starts the drain of its domain. -/
theorem Chip.startReq_drains_started {c : Chip} {e : EntryId} {n : Nat} {q : DomReq} (h : (c.dom n).state = .on) (ht : q.target ≠ .on)
    (hr : (c.started e).refusals n q.target q = []) :
    (c.started e).startReq n q = (c.started e).updDom n (fun d => { d with
      draining := true, prev := .on, drainFrom := c.now, current := some q }) := by
  have hd := (congrArg DomRec.state (started_dom c e n)).trans h
  rw [Chip.startReq_drains hd ht hr]
  exact updDom_congr (by rw [hd, started_now])

theorem Chip.step_at_rest {c : Chip} {d : Nat} (h : c.residents.any (fun p => (c.past p).touchesDie d && (c.past p).running) = false)
    (f : DieRec → DieRec) :
    (((c.updDie d f).dueStep d).residents.any (fun p =>
      (((c.updDie d f).dueStep d).past p).touchesDie d && (((c.updDie d f).dueStep d).past p).running)) = false := by
  have hp : ((c.updDie d f).dueStep d).pasts = c.pasts := by
    unfold Chip.dueStep
    dsimp only
    split <;> simp
  simpa only [Chip.residents, Chip.past, hp] using h

/-- SET_OP_POINT of a voltage in range on a die at rest takes its step at once. -/
theorem Chip.doSetOpPoint_started {c : Chip} {e : EntryId} (hlo : 550 ≤ (c.entry e.val).bytes 36 2)
    (hhi : (c.entry e.val).bytes 36 2 ≤ 900) (h5 : (c.entry e.val).bytes 36 2 % 5 = 0)
    (hrest : c.residents.any (fun p => (c.past p).touchesDie (bits ((c.entry e.val).bytes 32 1) 1 0) && (c.past p).running) = false) :
    (c.started e).doSetOpPoint e.val = (((c.started e).updDie (bits ((c.entry e.val).bytes 32 1) 1 0) (fun r => { r with
      target := (c.entry e.val).bytes 36 2, waiters := r.waiters ++ [e] })).dueStep (bits ((c.entry e.val).bytes 32 1) 1 0)).takeStep
        (bits ((c.entry e.val).bytes 32 1) 1 0) := by
  have hidle := Chip.step_at_rest (c := c.started e) (by simpa using hrest)
    (fun r => { r with target := (c.entry e.val).bytes 36 2, waiters := r.waiters ++ [e] })
  unfold Chip.doSetOpPoint
  simp only [started_bytes, ofNat_entryId]
  rw [if_neg (by simp; omega), hidle]
  simp only [Bool.false_and, Bool.false_eq_true, if_false]

theorem Chip.testUnitNow_free {c : Chip} {u : Nat} (hl : c.liveUnit u = false) (hh : c.heldFor u = none) (ran bad : Nat) :
    c.testUnitNow u ran bad = c.testNow u ran bad := by
  simp [Chip.testUnitNow, hl, hh]

theorem Chip.starts_ready {c : Chip} {e : EntryId} {op : Nat} (h : c.starts e op = true) : (c.entry e.val).state = .ready := by
  simp only [Chip.starts, Chip.startable, Bool.and_eq_true, beq_iff_eq] at h
  obtain ⟨⟨⟨-, ⟨⟨⟨hr, -⟩, -⟩, -⟩⟩, -⟩, -⟩ := h
  exact hr

theorem takes_testUnit {s : State} {e : EntryId} {d : Chip} (h : s.chip.starts e 0x07 = true) (fails : BitVec 5)
    (hd : (s.chip.started e).doTestUnit e.val fails.toNat = d) : s.takes (.testUnit e fails) (fun c => c = d) := by
  refine takes_of_run (f := fun c => if (c.entry e.val).state = .ready then c.start e.val 0x07 (fun c => c.doTestUnit e.val fails.toNat)
    else c.moreTest e.val fails.toNat) rfl (held_of_starts h) ?_
  rw [if_pos (Chip.starts_ready h), start_of_starts h, hd]

/-- Settles O9: each command is followed through its checks to the one branch that its operands leave. -/
theorem unitCommandsComplete : Obligations.UnitCommandsComplete := by
  unfold Obligations.UnitCommandsComplete
  refine ⟨?domain, ?point, ?test⟩
  case domain =>
    rintro s e n t h hp rfl ht hc hd hw hk
    have hdom := started_dom s.chip e (bits ((s.chip.entry e.val).bytes 32 4) 9 0)
    have hask := (Chip.doSetDomain_started ht).trans (Chip.askDomain_idle (by rw [hdom, hc]) (by rw [hdom, hd]) (by rw [hdom, hw]) _)
    refine ⟨fun hst => takes_of_started (f := fun c => c.doSetDomain e.val) rfl h
        (hask.trans (Chip.startReq_there hk (by rw [hdom, hst]))) (ends_conclude hc hp),
      fun hon hne hr => takes_of_started (f := fun c => c.doSetDomain e.val) rfl h
        (hask.trans (Chip.startReq_drains_started
          (q := { target := t, asker := .command e, origin := (s.chip.entry e.val).asOrigin }) hon hne hr)) rfl⟩
  case point =>
    rintro s e d mv h rfl rfl hlo hhi h5 hrest
    exact takes_of_started (f := fun c => c.doSetOpPoint e.val) rfl h (Chip.doSetOpPoint_started hlo hhi h5 hrest) rfl
  case test =>
    rintro s e fails u ran h rfl rfl hpkg hex hran hoff
    refine ⟨fun h0 => takes_testUnit h fails ?_, fun h0 hk hl hh => takes_testUnit h fails ?_⟩
    · simp [Chip.doTestUnit, hpkg, hex, hoff, h0]
    · simp [Chip.doTestUnit, hpkg, hex, hoff, h0, hran, hk, hl, Chip.testUnitNow_free hl hh, Chip.testNow]

end Sys2Proof.Machine
end

section
/-! Scoreboard commands that move pastures, run engines, and read or write images and the NV store. -/

namespace Sys2Proof.Machine

/-! ### UNLOAD and SHIFT (R410, R411) -/

theorem Chip.past_forget (c : Chip) (p : Nat) : (c.forget p).past p = Past.init := by
  simp [Chip.forget, Chip.past, pastDefault]

/-- UNLOAD of a pasture at rest that no waiting command names. -/
theorem Chip.doUnload_started {c : Chip} {e : EntryId} (hf : (c.past (c.entry e.val).pasture).presence ≠ .free)
    (hr : (c.past (c.entry e.val).pasture).running = false) (hp : (c.past (c.entry e.val).pasture).pendingHold = none)
    (hw : (c.started e).live.filter (fun y => y.1 != e.val && (y.2.state == .waiting || y.2.state == .ready) && !namesNone y.2.opcode
      && y.2.pasture == (c.entry e.val).pasture) = []) :
    (c.started e).doUnload e.val = ((((c.started e).endRun (c.entry e.val).pasture stABORTED).dropObjs (c.entry e.val).pasture).forget
      (c.entry e.val).pasture).finishOk e.val (c.past (c.entry e.val).pasture).tiles.length := by
  unfold Chip.doUnload
  rw [onPast_started hf]
  simp only [hr, hp, hw, Option.isSome_none, Bool.or_self, Bool.false_eq_true, if_false, List.map_nil, List.foldl_nil]

/-- SHIFT of a resident SHIFTABLE pasture: at once between rounds, else at the next muster. -/
theorem Chip.doShift_started {c : Chip} {e : EntryId} (hf : (c.past (c.entry e.val).pasture).presence = .resident)
    (hs : (c.past (c.entry e.val).pasture).flags.getLsbD flSHIFTABLE = true) :
    (c.started e).doShift e.val = if (c.past (c.entry e.val).pasture).between
      then (c.started e).shift (c.entry e.val).pasture e.val (bits ((c.entry e.val).bytes 32 1) 3 0)
      else (c.started e).updPast (c.entry e.val).pasture (fun x => { x with
        shifts := x.shifts ++ [(e, BitVec.ofNat 4 (bits ((c.entry e.val).bytes 32 1) 3 0))] }) := by
  obtain ⟨hres, hne⟩ := Past.resident_of_presence hf
  unfold Chip.doShift
  rw [onPast_started hne]
  simp only [hs, hres, started_bytes, ofNat_entryId, Bool.not_true, Bool.false_and, Bool.false_eq_true, if_false]

theorem Chip.shift_of_found {c d : Chip} {p avoid n : Nat} (h : c.shiftPast p avoid = (d, stOK, n)) (e : Nat) :
    c.shift p e avoid = d.finish e stOK ((d.past p).round.toNat + n * 2 ^ 32) (progressWord 100 0) := by
  simp [Chip.shift, h]

/-- Settles O10: UNLOAD and SHIFT pass their checks, and do their work at once or leave it to the next muster. -/
theorem movingCommandsComplete : Obligations.MovingCommandsComplete := by
  unfold Obligations.MovingCommandsComplete
  refine ⟨?unload, ?shift⟩
  case unload =>
    rintro s e p h rfl hf hr hp hw
    exact takes_of_started (f := fun c => c.doUnload e.val) rfl h (Chip.doUnload_started hf hr hp hw) ⟨rfl, Chip.past_forget _ _⟩
  case shift =>
    rintro s e p avoid h rfl rfl hf hs
    refine ⟨fun d n hb hsh => takes_of_started (f := fun c => c.doShift e.val) rfl h ((Chip.doShift_started hf hs).trans ?_) rfl,
      fun hb => takes_of_started (f := fun c => c.doShift e.val) rfl h ((Chip.doShift_started hf hs).trans ?_) rfl⟩
    · rw [if_pos hb, Chip.shift_of_found hsh]
    · rw [hb, if_neg Bool.false_ne_true]

/-! ### RUN, LADDER, INJECT and PASS (R418–R429) -/

theorem Chip.callIn_resident {c : Chip} {p : Nat} (h : (c.past p).presence = .resident) : c.callIn p = (c, stOK) := by
  simp [Chip.callIn, h]

theorem Chip.beginRun_first {c : Chip} {p : Nat} (h : (c.past p).run = none) (r : RunRec) :
    c.beginRun p r = (c.updPast p (fun x => { x with run := some r, paced := r.period != 0, period := r.period, anchored := false })).due p := by
  simp only [Chip.beginRun, h]

/-- RUN of a resident pasture with no RUN in flight. -/
theorem Chip.doRun_started {c : Chip} {e : EntryId} (hf : (c.past (c.entry e.val).pasture).presence = .resident)
    (hrest : (c.past (c.entry e.val).pasture).restoreFailed = false) (hr : (c.past (c.entry e.val).pasture).run = none)
    (hper : (c.entry e.val).bytes 32 4 ≤ 1000000) :
    (c.started e).doRun e.val = (c.started e).beginRun (c.entry e.val).pasture
      { entry := some e, ladder := false, period := BitVec.ofNat 32 ((c.entry e.val).bytes 32 4)
        rounds := BitVec.ofNat 32 ((c.entry e.val).bytes 36 4), advanced := 0, saturated := false, degraded := false } := by
  obtain ⟨-, hne⟩ := Past.resident_of_presence hf
  unfold Chip.doRun
  rw [onPast_started hne]
  simp only [hrest, hr, started_bytes, ofNat_entryId, Chip.callIn_resident ((congrArg Past.presence (started_past c e _)).trans hf),
    Nat.not_lt.mpr hper, decide_false, Option.any_none, Bool.or_self, Bool.false_eq_true, if_false, bne_self_eq_false]

/-- LADDER on the root of a ladder of a resident pasture with no RUN in flight. -/
theorem Chip.doLadder_started {c : Chip} {e : EntryId} {i : Nat} {l : Ladder} (hl : c.ladderOf (c.entry e.val).pasture = some (i, l))
    (hroot : l.root = true) (hf : (c.past (c.entry e.val).pasture).presence = .resident)
    (hkind : (c.past (c.entry e.val).pasture).kind = 1) (hrest : (c.past (c.entry e.val).pasture).restoreFailed = false)
    (hr : (c.past (c.entry e.val).pasture).run = none) (hper : (c.entry e.val).bytes 48 4 ≤ 1000000) :
    (c.started e).doLadder e.val = ((c.started e).putLadder i (l.begin (c.past (c.entry e.val).pasture).round (some e)
        (if bit ((c.entry e.val).bytes 36 4) 0 then some (BitVec.ofNat 32 ((c.entry e.val).bytes 32 4)) else none)
        (BitVec.ofNat 32 ((c.entry e.val).bytes 40 4)) (BitVec.ofNat 16 ((c.entry e.val).bytes 44 2)))).beginRun (c.entry e.val).pasture
      { entry := some e, ladder := true, period := BitVec.ofNat 32 ((c.entry e.val).bytes 48 4), rounds := 0, advanced := 0
        saturated := false, degraded := false } := by
  obtain ⟨-, hne⟩ := Past.resident_of_presence hf
  unfold Chip.doLadder
  rw [onPast_started hne]
  simp only [hrest, hr, hl, hroot, hkind, started_bytes, started_ladderOf, ofNat_entryId,
    Chip.callIn_resident ((congrArg Past.presence (started_past c e _)).trans hf),
    Nat.not_lt.mpr hper, decide_false, Option.isSome_none, Bool.or_self, Bool.false_eq_true, if_false, bne_self_eq_false, ne_eq,
    not_true_eq_false, Bool.not_true]

/-- INJECT of words that keep R422, for a resident pasture that no hold keeps. -/
theorem Chip.doInject_started {c : Chip} {e : EntryId} (hsrc : (c.entry e.val).bytes 32 8 % 8 = 0) (hlo : 1 ≤ (c.entry e.val).bytes 40 2)
    (hhi : (c.entry e.val).bytes 40 2 ≤ 4096) (hf : (c.past (c.entry e.val).pasture).presence = .resident)
    (hh : (c.past (c.entry e.val).pasture).held = false) (hhost : (c.started e).hostStatus = none) {ws : List Nat}
    (hws : fields 8 ((c.entry e.val).bytes 40 2) (memReadN c.host ((c.entry e.val).bytes 32 8) (8 * (c.entry e.val).bytes 40 2)) = ws)
    (hok : ws.all (injectOk (c.past (c.entry e.val).pasture)) = true) :
    (c.started e).doInject e.val = if (c.past (c.entry e.val).pasture).running
      then ((c.started e).updPast (c.entry e.val).pasture (fun x =>
        { x with inject := x.inject ++ ws.map (fun w => { word := BitVec.ofNat 64 w, entry := some e }) })).unpark (c.entry e.val).pasture
      else ((c.started e).updPast (c.entry e.val).pasture (fun x =>
        { x with inject := x.inject ++ ws.map (fun w => { word := BitVec.ofNat 64 w, entry := none }) })).finishOk e.val
          (0xFFFFFFFF + (c.entry e.val).bytes 40 2 * 2 ^ 32) := by
  obtain ⟨hres, hne⟩ := Past.resident_of_presence hf
  unfold Chip.doInject
  rw [onPast_started hne]
  simp only [started_bytes, started_host, ofNat_entryId, hhost, hws, hok, hres, hh]
  rw [if_neg (by simp; omega)]
  cases hrun : (c.past (c.entry e.val).pasture).running <;>
    simp only [Bool.not_true, Bool.true_and, Bool.or_self, Bool.false_eq_true, if_false, if_true]

/-- PASS without STAGE on one tensor tile of this package. -/
theorem Chip.doPass_started {c : Chip} {e : EntryId} {t : PTile} (hf : (c.past (c.entry e.val).pasture).presence = .resident)
    (ht : (c.entry e.val).targets = [(t.imgPkg.toNat, t.imgDie.val, t.imgTile.val)])
    (hi : (c.past (c.entry e.val).pasture).imageTile t.imgPkg.toNat t.imgDie.val t.imgTile.val = some t)
    (hk : tileKind t.imgTile.val = .tensor)
    (hc : ((c.past (c.entry e.val).pasture).img.tilesOf t.imgPkg.toNat t.imgDie.val).any (fun u => u.tile == t.imgTile.val && u.core) = true)
    (hs : bit ((c.entry e.val).bytes 52 4) 31 = false) :
    (c.started e).doPass e.val = ((((c.started e).loadWindows (c.past (c.entry e.val).pasture) t).wakeTile t.key).updEntry e.val
        (fun x => { x with parts := 1, status := BitVec.ofNat 8 stOK, result := 0, done := 0 })).chainOn t.key
          { desc := BitVec.ofNat 6 ((c.entry e.val).bytes 48 4), waiting := false, entry := some e, round := none, status := 0 } := by
  obtain ⟨hres, hne⟩ := Past.resident_of_presence hf
  have hone : [t.key].eraseDups = [t.key] := rfl
  unfold Chip.doPass
  rw [onPast_started hne]
  simp only [started_bytes, started_targets, ofNat_entryId, ht, hi, hres, hs, hk, hc, hone, List.filterMap_cons, List.filterMap_nil,
    List.foldl_cons, List.foldl_nil, List.map_cons, List.map_nil, List.isEmpty_cons, List.all_cons, List.all_nil, List.length_cons,
    List.length_nil, decide_true, Bool.and_self, Bool.not_true, Bool.false_and, Bool.or_self, Bool.false_eq_true, if_false, Nat.zero_add]

/-- Settles O11: each command passes its checks and leaves the package as the last branch of its meaning says. -/
theorem engineCommandsTakeEffect : Obligations.EngineCommandsTakeEffect := by
  unfold Obligations.EngineCommandsTakeEffect
  refine ⟨?run, ?ladder, ?inject, ?pass⟩
  case run =>
    rintro s e p h rfl hf hrest hr hper
    exact takes_of_started (f := fun c => c.doRun e.val) rfl h ((Chip.doRun_started hf hrest hr hper).trans
      (Chip.beginRun_first ((congrArg Past.run (started_past s.chip e _)).trans hr) _)) rfl
  case ladder =>
    rintro s e p i l h rfl hl hroot hf hkind hrest hr hper
    exact takes_of_started (f := fun c => c.doLadder e.val) rfl h (Chip.doLadder_started hl hroot hf hkind hrest hr hper) rfl
  case inject =>
    rintro s e p src n h rfl rfl rfl hsrc hlo hhi hf hh hhost hok
    have hinj := Chip.doInject_started hsrc hlo hhi hf hh hhost rfl hok
    exact ⟨fun hrun => takes_of_started (f := fun c => c.doInject e.val) rfl h (hinj.trans (if_pos hrun)) rfl,
      fun hrun => takes_of_started (f := fun c => c.doInject e.val) rfl h (hinj.trans (if_neg (by rw [hrun]; exact Bool.false_ne_true))) rfl⟩
  case pass =>
    rintro s e p t h rfl hf ht hi hk hc hs
    exact takes_of_started (f := fun c => c.doPass e.val) rfl h (Chip.doPass_started hf ht hi hk hc hs) rfl

end Sys2Proof.Machine
end

section
/-! Scoreboard commands that read or write images and the NV store (R424, R433–R440). -/

namespace Sys2Proof.Machine

/-! ### Images (R433–R438) -/

/-- LOAD of an image in host memory that a free identifier takes and for which there is a place. -/
theorem Chip.doLoad_started {c d : Chip} {e : EntryId} (hf : (c.past (c.entry e.val).pasture).presence = .free)
    (hnv : bit ((c.entry e.val).bytes 44 1) 0 = false) (hsrc : (c.entry e.val).bytes 32 8 % 64 = 0)
    (hhost : (c.started e).hostStatus = none) (hshare : (c.entry e.val).source ≠ .share)
    (hp : (c.started e).place false (c.entry e.val).pasture (memReadN c.host ((c.entry e.val).bytes 32 8) ((c.entry e.val).bytes 40 4))
      = (d, stOK)) :
    (c.started e).doLoad e.val = (d.shareOut e.val).1.finishOk e.val ((d.past (c.entry e.val).pasture).tiles.length % 65536
      + ((d.past (c.entry e.val).pasture).packages.toNat - 1) % 256 * 2 ^ 16 + (d.past (c.entry e.val).pasture).round.toNat * 2 ^ 32) := by
  unfold Chip.doLoad
  simp only [started_bytes, started_pasture, started_past, started_host, started_source, hf, hnv, hsrc, hhost, hp,
    beq_eq_false_iff_ne.mpr hshare, blocked_ok, bne_self_eq_false, Bool.not_false, Bool.true_and, decide_false, ne_eq, not_true_eq_false,
    Bool.false_eq_true, if_false]

/-- PAGE_OUT of a resident pasture that does not run. -/
theorem Chip.doPageOut_started {c d : Chip} {e : EntryId} {b : List Byte} (ha : (c.entry e.val).bytes 32 8 % 64 = 0)
    (hf : (c.past (c.entry e.val).pasture).presence = .resident) (hr : (c.past (c.entry e.val).pasture).running = false)
    (hc : (c.started e).captureImage (c.entry e.val).pasture 1 0 = (d, some b)) (hl : b.length ≤ (c.entry e.val).bytes 40 4)
    (hhost : (c.started e).hostStatus = none) :
    (c.started e).doPageOut e.val = ((d.hostWrite ((c.entry e.val).bytes 32 8) b).evict (c.entry e.val).pasture ((c.entry e.val).bytes 32 8)
      b.length (decide ((c.started e).areaBase ≤ (c.entry e.val).bytes 32 8) && decide ((c.entry e.val).bytes 32 8 + b.length
        ≤ (c.started e).areaBase + (c.started e).areaBytes))).finishOk e.val b.length := by
  obtain ⟨hres, hne⟩ := Past.resident_of_presence hf
  unfold Chip.doPageOut
  rw [onPast_started hne]
  simp only [started_bytes, hres, hr, ha, hc, hhost, Nat.not_lt.mpr hl, ne_eq, not_true_eq_false, decide_false, Bool.not_true,
    Bool.or_self, Bool.false_eq_true, if_false]

/-- PAGE_IN of a pasture that is paged out and for which there is a place. -/
theorem Chip.doPageIn_started {c d : Chip} {e : EntryId} (ha : (c.entry e.val).bytes 32 8 % 64 = 0)
    (hf : (c.past (c.entry e.val).pasture).presence = .pagedOut) (hhost : (c.started e).hostStatus = none)
    (hp : (c.started e).pageInFrom (c.entry e.val).pasture (memReadN c.host ((c.entry e.val).bytes 32 8) ((c.entry e.val).bytes 40 4))
      = (d, stOK)) :
    (c.started e).doPageIn e.val = (({ d with sliceQ := d.sliceQ.filter (fun y => y.val != (c.entry e.val).pasture) } : Chip).finishOk e.val
      0).resume (c.entry e.val).pasture := by
  obtain ⟨hres, hne⟩ := Past.not_resident_of_pagedOut hf
  unfold Chip.doPageIn
  rw [onPast_started hne]
  simp only [started_bytes, started_host, hres, ha, hhost, hp, blocked_ok, bne_self_eq_false, ne_eq, not_true_eq_false,
    Bool.false_eq_true, if_false]

/-- RESTORE of a pasture that does not run, from a checkpoint that can be placed. -/
theorem Chip.doRestore_started {c d : Chip} {e : EntryId} (hr : (c.past (c.entry e.val).pasture).running = false)
    (hhost : (c.started e).hostStatus = none)
    (hp : (c.started e).restoreFrom (c.entry e.val).pasture (memReadN c.host ((c.entry e.val).bytes 32 8) ((c.entry e.val).bytes 40 4))
      = (d, stOK)) :
    (c.started e).doRestore e.val = d.finishOk e.val (d.past (c.entry e.val).pasture).round.toNat := by
  unfold Chip.doRestore
  simp only [started_bytes, started_host, started_past, started_pasture, hr, hhost, hp, blocked_ok, bne_self_eq_false, Bool.and_false,
    Bool.false_eq_true, if_false]

/-- CHECKPOINT of a resident pasture to an address, with no ring: at once between rounds, else at the next muster. -/
theorem Chip.doCheckpoint_started {c : Chip} {e : EntryId} (hf : (c.past (c.entry e.val).pasture).presence = .resident)
    (h0 : (c.entry e.val).bytes 32 8 ≠ 0) (ha : (c.entry e.val).bytes 32 8 % 64 = 0) (hz : (c.entry e.val).bytes 44 4 = 0) :
    (c.started e).doCheckpoint e.val = if (c.past (c.entry e.val).pasture).between
      then (c.started e).checkpoint (c.entry e.val).pasture e.val
      else (c.started e).updPast (c.entry e.val).pasture (fun x => { x with ckpts := x.ckpts ++ [e] }) := by
  obtain ⟨hres, hne⟩ := Past.resident_of_presence hf
  have hreg : bit 0 0 = false := rfl
  have hslots : bits 0 31 16 = 0 := rfl
  unfold Chip.doCheckpoint
  rw [onPast_started hne]
  simp only [started_bytes, ofNat_entryId, hres, h0, ha, hz, hreg, hslots, ne_eq, not_true_eq_false, decide_false, Bool.not_true,
    Bool.not_false, Bool.false_and, Bool.and_false, Bool.or_self, Bool.false_eq_true, if_false]

/-- A capture of a started CHECKPOINT without ring that succeeds records its boundary and ends with the round. -/
theorem Chip.checkpoint_started {c d : Chip} {e : EntryId} {p : Nat} {crcs : List (Nat × Nat)} (h0 : (c.entry e.val).bytes 32 8 ≠ 0)
    (hz : (c.entry e.val).bytes 44 4 = 0) {w : CapPlace}
    (hw : w = { addr := (c.entry e.val).bytes 32 8, len := (c.entry e.val).bytes 40 4, slot := none })
    (hc : (c.started e).captureTo p w = (d, stOK, crcs)) :
    (c.started e).checkpoint p e.val = (d.boundary p w crcs).finishOk e.val ((d.boundary p w crcs).past p).round.toNat := by
  subst hw
  have hreg : bit 0 0 = false := rfl
  unfold Chip.checkpoint
  simp only [started_bytes, h0, hz, hreg, hc, bne_self_eq_false, Bool.false_eq_true, if_false, Option.getD_none, Nat.zero_mul,
    Nat.add_zero]

/-- Settles O13: each command passes its checks and its placement or capture, and ends OK on what that left. -/
theorem imageCommandsComplete : Obligations.ImageCommandsComplete := by
  unfold Obligations.ImageCommandsComplete
  refine ⟨?load, ?pageOut, ?pageIn, ?restore, ?checkpoint⟩
  case load =>
    rintro s e p d h rfl hf hnv hsrc hhost hshare hp
    exact takes_of_started (f := fun c => c.doLoad e.val) rfl h (Chip.doLoad_started hf hnv hsrc hhost hshare hp) rfl
  case pageOut =>
    rintro s e p a d b h rfl rfl ha hf hr hc hl hhost
    exact takes_of_started (f := fun c => c.doPageOut e.val) rfl h (Chip.doPageOut_started ha hf hr hc hl hhost) rfl
  case pageIn =>
    rintro s e p d h rfl ha hf hhost hp
    exact takes_of_started (f := fun c => c.doPageIn e.val) rfl h (Chip.doPageIn_started ha hf hhost hp) rfl
  case restore =>
    rintro s e p d h rfl hr hhost hp
    exact takes_of_started (f := fun c => c.doRestore e.val) rfl h (Chip.doRestore_started hr hhost hp) rfl
  case checkpoint =>
    rintro s e p h rfl hf h0 ha hz
    have hck := Chip.doCheckpoint_started hf h0 ha hz
    refine ⟨fun d crcs hb hc => takes_of_started (f := fun c => c.doCheckpoint e.val) rfl h
        ((hck.trans (if_pos hb)).trans (Chip.checkpoint_started h0 hz rfl hc)) rfl,
      fun hb => takes_of_started (f := fun c => c.doCheckpoint e.val) rfl h (hck.trans (if_neg (by rw [hb]; exact Bool.false_ne_true))) rfl⟩

/-! ### The NV store and REPLAY_CHECK (R424, R439, R440) -/

/-- NV_SAVE of a resident pasture with an NV area whose save can begin. -/
theorem Chip.doNvSave_started {c d : Chip} {e : EntryId} (hf : (c.past (c.entry e.val).pasture).presence = .resident)
    (ha : (c.started e).areaOf (c.entry e.val).pasture ≠ none)
    (hs : (c.started e).beginSave (c.entry e.val).pasture (bit ((c.entry e.val).bytes 32 1) 0) (some e) = (d, stOK)) :
    (c.started e).doNvSave e.val = d := by
  obtain ⟨hres, hne⟩ := Past.resident_of_presence hf
  unfold Chip.doNvSave
  rw [onPast_started hne]
  simp only [started_bytes, ofNat_entryId, hres, hs, Option.isNone_eq_false_iff.mpr (Option.isSome_iff_ne_none.mpr ha), Bool.not_true,
    Bool.false_eq_true, if_false, if_true]

/-- NV_LOAD of a resident pasture that does not run. -/
theorem Chip.doNvLoad_started {c d : Chip} {e : EntryId} {n m : Nat} (hf : (c.past (c.entry e.val).pasture).presence = .resident)
    (hr : (c.past (c.entry e.val).pasture).running = false) (hl : (c.started e).nvLoad (c.entry e.val).pasture = (d, stOK, n, m)) :
    (c.started e).doNvLoad e.val = d.finish e.val stOK (n + m % 65536 * 2 ^ 32) (progressWord 100 0) := by
  obtain ⟨hres, hne⟩ := Past.resident_of_presence hf
  unfold Chip.doNvLoad
  rw [onPast_started hne]
  simp only [hres, hr, hl, Bool.not_true, Bool.or_self, Bool.false_eq_true, if_false, if_true]

/-- REPLAY_CHECK of a readable log of a pasture in one package, on a copy that can be placed. -/
theorem Chip.doReplay_started {c t : Chip} {e : EntryId} {a n : Nat} {b : List Byte} {g : LogRead} {pm : PlaceMap}
    (ha : a = (c.entry e.val).bytes 32 8) (hn : n = (c.entry e.val).bytes 48 4) (hlo : 1 ≤ n) (hhi : n ≤ 65536)
    (hf : (c.past (c.entry e.val).pasture).presence ≠ .free) (hsp : (c.past (c.entry e.val).pasture).spans = false)
    (hlad : c.ladderOf (c.entry e.val).pasture = none) (hhost : (c.started e).hostStatus = none)
    (hb : b = memReadN c.host a (leAt (memReadN c.host (a + 32) 4) 0 4)) (hok : imgOk b b.length 2 = true)
    (hown : (Img.read b).owner = (c.entry e.val).pasture) (hlog : (c.started e).logAt a (Img.read b) = some g) (hbr : g.broken = false)
    (hln : n ≤ g.logged) (hmap : (c.started e).searchAll (Img.read b) (fun _ => false) = some pm)
    (ht : t = ((((c.started e).freeTiles (c.entry e.val).pasture (c.past (c.entry e.val).pasture).tiles).install (c.entry e.val).pasture
      (Img.read b) pm true).isolate (c.entry e.val).pasture (Img.read b))) :
    (c.started e).doReplay e.val = ((c.started e).placed.copyTilesDone (t.past (c.entry e.val).pasture).touched).replayDone e.val
      (Img.read b).ckptRound n ((c.past (c.entry e.val).pasture).touched ++ (t.past (c.entry e.val).pasture).touched)
      (Chip.replayRounds (c.entry e.val).pasture ((c.started e).placed.logInputs g)
        (fun k => leAt (memReadN c.host ((c.entry e.val).bytes 40 8 + 8 * k) 8) 0 8) n 0 t).2 := by
  have hhost' : (c.started e).placed.host = c.host := by simp [Chip.placed]
  unfold Chip.doReplay
  rw [onPast_started hf]
  simp only [started_bytes, started_host, started_ladderOf, hlad, hhost, hhost', ← ha, ← hn]
  rw [if_neg (by simp; omega)]
  simp only [← hb]
  simp only [hok, hown, hlog, hmap, hsp, ← ht]
  rw [if_neg (by simp), if_neg (by simp [hbr, hln])]
  simp only [Bool.false_eq_true, if_false]

/-- Settles O14: NV_SAVE and NV_LOAD give what the store gives, REPLAY_CHECK what the replay of its rounds gives. -/
theorem storeCommandsTakeEffect : Obligations.StoreCommandsTakeEffect := by
  unfold Obligations.StoreCommandsTakeEffect
  refine ⟨?save, ?load, ?replay⟩
  case save =>
    rintro s e p d h rfl hf ha hs
    exact takes_of_started (f := fun c => c.doNvSave e.val) rfl h (Chip.doNvSave_started hf ha hs) rfl
  case load =>
    rintro s e p d n m h rfl hf hr hl
    exact takes_of_started (f := fun c => c.doNvLoad e.val) rfl h (Chip.doNvLoad_started hf hr hl) rfl
  case replay =>
    rintro s e p a n b g pm t h rfl ha hn hlo hhi hf hsp hlad hhost hb hok hown hlog hbr hln hmap ht
    exact takes_of_started (f := fun c => c.doReplay e.val) rfl h
      (Chip.doReplay_started ha hn hlo hhi hf hsp hlad hhost hb hok hown hlog hbr hln hmap ht) rfl

end Sys2Proof.Machine
end

section
/-! Queue contexts and their control, records on and off the scoreboard, sync objects and pools. -/

namespace Sys2Proof.Machine

/-! ### Message headers (R97) -/

/-- A header word gives its fields back, each modulo its width. -/
theorem Hdr.of_word (h : Hdr) : Hdr.of h.word = {
    kind := h.kind % 16, pkg := h.pkg % 256, die := h.die % 4, x := h.x % 16, y := h.y % 16, qclass := h.qclass % 4
    origin := h.origin % 16, tag := h.tag % 4096, stamp := h.stamp % 256, payload := h.payload % 65536 } := by
  simp only [Hdr.of, Hdr.word, bits_eq_div_mod, Hdr.mk.injEq]
  refine ⟨?_, ?_, ?_, ?_, ?_, ?_, ?_, ?_, ?_, ?_⟩ <;> simp only [Nat.reduceAdd, Nat.reduceSub, Nat.reducePow] <;> omega

/-! ### Doorbells (R353, R354, R655) -/

theorem Chip.wakeControl_of_on {c : Chip} (h : c.domOn domCONTROL = true) : c.wakeControl = c := by
  simp [Chip.wakeControl, h]

theorem Chip.doorbell_of_on {c : Chip} (h : c.domOn domCONTROL = true) (cq : Bool) (q : Nat) (v : W32) :
    c.doorbell cq q v = if cq then c.doorbellCi q v else c.doorbellPi q v := by
  have hs : (c.dom domCONTROL).state ≠ .off := by
    intro hoff
    simp [Chip.domOn, hoff] at h
  simp only [Chip.doorbell, hs, if_false, Chip.wakeControl_of_on h]

theorem Chip.doorbellPi_within {c : Chip} {q : Nat} {v : W32}
    (h : (v - (c.ctx q).pi).toNat ≤ ((c.ctx q).ci + BitVec.ofNat 32 (2 ^ (c.ctx q).logSq.toNat) - (c.ctx q).pi).toNat) :
    c.doorbellPi q v = c.putCtx q { c.ctx q with pi := v } := if_pos h

theorem Chip.doorbellPi_outside {c : Chip} {q : Nat} {v : W32}
    (h : ((c.ctx q).ci + BitVec.ofNat 32 (2 ^ (c.ctx q).logSq.toNat) - (c.ctx q).pi).toNat < (v - (c.ctx q).pi).toNat) :
    c.doorbellPi q v = c.dbRange q := if_neg (Nat.not_le.mpr h)

theorem Chip.doorbellCi_within {c : Chip} {q : Nat} {v : W32}
    (h : (v - (c.ctx q).cqCi).toNat ≤ ((c.ctx q).cqPi - (c.ctx q).cqCi).toNat) :
    c.doorbellCi q v = c.putCtx q { c.ctx q with cqCi := v, cqWaiting := false } := if_pos h

/-- A value out of range is counted in its context, and the context keeps the rest. -/
theorem Chip.ctx_dbRange (c : Chip) (q : Nat) :
    (c.dbRange q).ctx q = { c.ctx q with dbErrors := BitVec.ofNat 16 (satAdd 16 (c.ctx q).dbErrors.toNat 1) } :=
  Chip.ctx_putCtx_same c q _

theorem takes_doorbell {s : State} {i : Instr} {cq : Bool} {q : CtxId} {v : W32} {d : Chip} {post : Chip → Prop}
    (hi : exec i s = s.run (fun c => if c.barOpen then c.doorbell cq q.val v else c)) (hh : s.chip.held = false)
    (hb : s.chip.barOpen = true) (hc : s.chip.domOn domCONTROL = true)
    (hd : (if cq then s.chip.doorbellCi q.val v else s.chip.doorbellPi q.val v) = d) (hp : post d) : s.takes i post := by
  refine takes_of_run hi hh ?_
  rw [if_pos hb, Chip.doorbell_of_on hc, hd]
  exact hp

/-- A register command whose write the checks let pass takes the effect of its page's own write. -/
theorem takes_of_accepts {s : State} {i : Instr} {n off v : Nat} {o : Origin} {d : Chip} {post : Chip → Prop}
    (hi : exec i s = s.run (fun c => c.regWrite o (regAt n off) v)) (h : s.chip.accepts n off o = true)
    (hplace : regPlace (regAt n off) = .base n off) (hcode : baseCode n ≠ codeIDENT) (hoff : 256 ≤ off)
    (hd : s.chip.writeReg n off (v &&& maskOf n off) (originNum o) none = d) (hp : post d) : s.takes i post := by
  refine takes_of_run hi (held_of_accepts h) ?_
  rw [regWrite_of_accepts h hplace hcode hoff, hd]
  exact hp

theorem and_maskOf_word {n off : Nat} (h : maskOf n off = 2 ^ 32 - 1) (v : W32) : v.toNat &&& maskOf n off = v.toNat := by
  rw [h, Nat.and_two_pow_sub_one_eq_mod, Nat.mod_eq_of_lt v.isLt]

/-! ### CTX_CTRL (R357, R378, R380–R382) -/

/-- A write of CTX_CTRL that the register page lets pass acts on the selected context. -/
theorem takes_ctxCtrl {s : State} {i : Instr} {o : Origin} {v : Nat} {d : Chip} {post : Chip → Prop}
    (hi : exec i s = s.run (fun c => c.regWrite o (regAt pgSHEP 0x108) v)) (h : s.chip.accepts pgSHEP 0x108 o = true)
    (hv : v &&& maskOf pgSHEP 0x108 = v) (hsel : s.chip.ctxSel ≠ 4095 ∨ o = .internal)
    (hd : (let c := if bit v 0 then s.chip.ctxEnable s.chip.ctxSel (originNum o) else s.chip
           let c := if bit v 1 then c.ctxStop s.chip.ctxSel (originNum o) else c
           let c := if bit v 2 then c.ctxResume s.chip.ctxSel (originNum o) else c
           if bit v 3 then c.ctxDisable s.chip.ctxSel (originNum o) else c) = d) (hp : post d) : s.takes i post := by
  have hown : ¬ ((decide (s.chip.ctxSel = 4095) && originNum o != 0) = true) := by
    rcases hsel with hne | rfl
    · simp [hne]
    · simp [originNum]
  refine takes_of_accepts hi h (by rfl) (by decide) (by decide) ?_ hp
  rw [writeReg_shep _ _ _ _ _ (by rfl), hv]
  unfold Chip.writeShep
  simp only [if_true]
  unfold Chip.ctxCtrl
  rw [if_neg hown]
  exact hd

theorem Chip.ctxEnable_of {c : Chip} {q : Nat} (cls : Nat) (hs : (c.ctx q).state = .disabled) (h1 : 6 ≤ (c.ctx q).logSq.toNat)
    (h2 : (c.ctx q).logSq.toNat ≤ 16) (h3 : 6 ≤ (c.ctx q).logCq.toNat) (h4 : (c.ctx q).logCq.toNat ≤ 16) :
    c.ctxEnable q cls = { c.putCtx q { c.ctx q with state := .active } with
      gate := { c.gate with lost := c.gate.lost.filter (fun y => y.val != q) } } := by
  simp [Chip.ctxEnable, hs, h1, h2, h3, h4]

theorem Chip.ctxDisable_of {c : Chip} {q : Nat} (cls : Nat) (hs : (c.ctx q).state = .stopped ∨ (c.ctx q).state = .error)
    (hb : c.onBoard q = 0) : c.ctxDisable q cls = c.putCtx q { c.ctx q with
      state := .disabled, pi := 0, ci := 0, cqPi := 0, cqCi := 0, counted := 0, cqWaiting := false } := by
  simp [Chip.ctxDisable, hs, hb]

/-- Settles O15: each doorbell and each bit of CTX_CTRL by the branch that its conditions name. -/
theorem contextsFollowDoorbellsAndControl : Obligations.ContextsFollowDoorbellsAndControl := by
  unfold Obligations.ContextsFollowDoorbellsAndControl
  refine ⟨⟨fun s q v hh hb hc => ⟨fun h => ?within, fun h => ?outside⟩, fun s q v hh hb hc h => ?ci, fun s o v h hc hbit => ?remote⟩,
    fun s o h hsel => ⟨fun hs h1 h2 h3 h4 => ?enable, fun hs => ?stop, fun hs => ?resume, fun hs hb => ?disable⟩⟩
  case within => exact takes_doorbell (cq := false) rfl hh hb hc (Chip.doorbellPi_within h) rfl
  case outside =>
    refine takes_doorbell (cq := false) rfl hh hb hc (Chip.doorbellPi_outside h) ?_
    rw [Chip.ctx_dbRange]
    exact ⟨rfl, rfl⟩
  case ci => exact takes_doorbell (cq := true) rfl hh hb hc (Chip.doorbellCi_within h) rfl
  case remote =>
    refine takes_of_accepts rfl h (by rfl) (by decide) (by decide) ?_ rfl
    rw [and_maskOf_word (by rfl), writeReg_gate _ _ _ _ _ (by rfl)]
    unfold Chip.writeGate Chip.remoteDb
    simp only [hbit, Chip.doorbell_of_on hc, if_true, BitVec.ofNat_toNat, BitVec.setWidth_eq]
  case enable =>
    have hctx := Chip.ctx_putCtx_same s.chip s.chip.ctxSel { s.chip.ctx s.chip.ctxSel with state := .active }
    exact takes_ctxCtrl rfl h (by rfl) hsel (Chip.ctxEnable_of _ hs h1 h2 h3 h4) ⟨congrArg Ctx.state hctx, rfl, rfl⟩
  case stop => exact takes_ctxCtrl rfl h (by rfl) hsel (if_pos hs) rfl
  case resume => exact takes_ctxCtrl rfl h (by rfl) hsel (if_pos hs) rfl
  case disable => exact takes_ctxCtrl rfl h (by rfl) hsel (Chip.ctxDisable_of _ hs hb) rfl

/-! ### Records (R355, R356, R361, R362, R366, R904) -/

theorem Chip.headWords_host {c : Chip} {q : Nat} (h : q ≠ 4095) : (c.headWords q).1 = c := by
  simp [Chip.headWords, h]

theorem Chip.takeSubmit_host {c : Chip} {q : Nat} (h : q ≠ 4095) : c.takeSubmit q = (c, none) := by
  simp [Chip.takeSubmit, h]

/-- A record in sequence at the head of a host context is accepted. -/
theorem Chip.fetch_inSequence {c d : Chip} {q e : Nat} {x : Ctx} (hd : d = c.noteEligible) (hq : q ≠ 4095) (hdma : d.dmaOk = true)
    (hx : chooseCtx (d.ctxs.filter (fun y => d.eligible y.1)) = some (q, x)) (he : d.freeSlot = some e)
    (hseq : subMod 65536 (d.headEntry q).seq (d.ctx q).seqNext.toNat = 0) : c.fetch = d.acceptRecord q e (d.headEntry q) := by
  unfold Chip.fetch
  simp only [← hd, hx, he, hdma, Chip.headWords_host hq, Chip.takeSubmit_host hq, hseq, Bool.not_true, Bool.and_false,
    Bool.false_eq_true, if_false, if_true]
  rfl

theorem Chip.writeCompletion_room {c : Chip} {e : Nat} {q : CtxId} (hsrc : (c.entry e).source = .ctx q)
    (hst : (c.entry e).state = .completing) (hfirst : c.firstDone e = true) (hdisc : c.discards q.val = false)
    (hd3 : c.gate.d3hot = false ∨ q.val = 4095) (hroom : (c.ctx q.val).cqRoom = true) :
    c.writeCompletion e = ((c.writeRecord q.val (c.entry e).seq (c.entry e).status.toNat (unitOf (c.entry e).opcode)
      (c.entry e).progress.toNat (c.entry e).result.toNat ((c.entry e).flag 16)).answerSubmit (c.entry e)).freeEntry e := by
  have hgate : (c.gate.d3hot && q.val != 4095) = false := by
    rcases hd3 with h | h <;> simp [h]
  unfold Chip.writeCompletion
  simp only [hsrc, hst, hfirst, hdisc, hgate, hroom, Bool.not_true, bne_self_eq_false, Bool.or_self, Bool.false_eq_true, if_false]

theorem Chip.modDelayEnds_counted {c : Chip} {q : Nat} (hc : (c.ctx q).counted ≠ 0) (hm : (c.ctx q).modDelay ≠ 0)
    (hi : (c.ctx q).irqEn = true) :
    c.modDelayEnds q = (c.putCtx q { c.ctx q with counted := 0 }).msix (c.ctx q).vector.toNat := by
  simp only [Chip.modDelayEnds, hc, hm, hi, decide_false, Bool.or_self, Bool.false_eq_true, if_false, if_true]

/-- The entry that the share of another package's command takes. -/
def Chip.shareEntry (c : Chip) (ws : List W64) : SbEntry :=
  { SbEntry.init with state := .ready, source := .share, words := ws, w0Met := true, w1Met := true
                      fetchNo := c.fetched, readyNo := c.readied, readyAt := c.now }

theorem map_ofNat_toNat {w : Nat} (l : List (BitVec w)) : (l.map (fun x => x.toNat)).map (fun x => BitVec.ofNat w x) = l := by
  simp [Function.comp_def]

/-- The parts of a message that reaches its base-die page. -/
theorem Chip.reaches_iff {c : Chip} {hdr n : Nat} : c.reaches hdr n = true ↔
    hdrShape (Hdr.of hdr) = true ∧ c.baseNames (Hdr.of hdr) = true ∧ (Hdr.of hdr).tag = 2048 + n := by
  simp [Chip.reaches, and_assoc]

theorem Chip.shareMsg_placed {c : Chip} {hdr e : Nat} {ws : List W64} (hl : ws.length = 8) (hr : c.reaches hdr pgSHEP = true)
    (ho : (Hdr.of hdr).origin = 0) (hc : c.domOn domCONTROL = true) (he : c.freeSlot = some e) :
    c.shareMsg hdr (ws.map (fun w => w.toNat))
      = some { c.putEntry e (c.shareEntry ws) with fetched := c.fetched + 1, readied := c.readied + 1 } := by
  obtain ⟨hs, hn, ht⟩ := Chip.reaches_iff.mp hr
  have htag : (Hdr.of hdr).tag - 2048 = pgSHEP := by omega
  unfold Chip.shareMsg
  simp only [hs, hn, ho, htag, Chip.wakeControl_of_on hc, he, map_ofNat_toNat, List.length_map, hl, ne_eq, not_true_eq_false,
    decide_false, Bool.not_true, Bool.or_self, Bool.false_eq_true, if_false]
  rfl

/-- Settles O16: each record goes its way through the one branch of its rule. -/
theorem recordsEnterAndLeaveTheScoreboard : Obligations.RecordsEnterAndLeaveTheScoreboard := by
  unfold Obligations.RecordsEnterAndLeaveTheScoreboard
  refine ⟨?fetch, ?completion, ?modDelay, ?share⟩
  case fetch =>
    intro s q e x hh hq hdma hx he hseq
    exact takes_of_run rfl hh (Chip.fetch_inSequence rfl hq hdma hx he hseq)
  case completion =>
    intro s e q hh hsrc hst hfirst hdisc hd3 hroom
    exact takes_of_run (f := fun c => c.writeCompletion e.val) rfl hh (Chip.writeCompletion_room hsrc hst hfirst hdisc hd3 hroom)
  case modDelay =>
    intro s q hh hc hm hi
    exact takes_of_run (f := fun c => c.modDelayEnds q.val) rfl hh (Chip.modDelayEnds_counted hc hm hi)
  case share =>
    intro s hdr ws e hh hl hr ho hc he
    have hexec : exec (.commandShare hdr ws) s = s.run (fun c => (c.shareMsg hdr.toNat (ws.map (fun w => w.toNat))).getD
        (c.send (hdr.toNat :: ws.map (fun w => w.toNat)))) :=
      shaped_wf (i := .commandShare hdr ws) (beq_iff_eq.mpr hl) _
    refine takes_of_run hexec hh ?_
    rw [Chip.shareMsg_placed hl hr ho hc he, Option.getD_some]
    have hentry := Chip.entry_putEntry_same s.chip e (s.chip.shareEntry ws)
    exact ⟨congrArg SbEntry.state hentry, congrArg SbEntry.source hentry, congrArg SbEntry.words hentry,
      congrArg SbEntry.readyNo hentry, rfl, fun f hf => (Chip.entry_putEntry s.chip e f (s.chip.shareEntry ws)).trans (if_neg hf)⟩

/-! ### Sync objects and pools (R363, R371, R384, R398) -/

theorem Chip.objOp_taken {c : Chip} {o op : Nat} {k : Int} {y : SyncObj} (hp : (c.obj o).poisoned = false)
    (h : (c.obj o).apply op k = some y) : c.objOp o op k = ((c.putObj o y).countWrap pgMUSTER 0x140 1).recheck := by
  simp only [Chip.objOp, hp, h, Bool.false_eq_true, if_false]

theorem Chip.objOp_discarded {c : Chip} {o op : Nat} {k : Int} (hp : (c.obj o).poisoned = false) (h : (c.obj o).apply op k = none) :
    c.objOp o op k = (c.count pgMUSTER 0x144 1).raise pgMUSTER 1 := by
  simp only [Chip.objOp, hp, h, Bool.false_eq_true, if_false]

/-- The second word of an operation keeps its object and its kind. -/
theorem syncWord_fields (m : SyncOp) {op : Nat} (h : op < 2) :
    bits (syncWord m op) 13 0 = m.object.toNat ∧ bits (syncWord m op) 17 16 = op ∧ bits (syncWord m op) 15 14 = 0
      ∧ syncWord m op / 2 ^ 18 = 0 := by
  have ho := m.object.isLt
  simp only [syncWord, bits_eq_div_mod]
  refine ⟨?_, ?_, ?_, ?_⟩ <;> simp only [Nat.reduceAdd, Nat.reduceSub, Nat.reducePow] <;> omega

/-- An operation of class HOST on an object of the muster unit that nobody owns acts on its state. -/
theorem Chip.syncOp_muster {c : Chip} {m : SyncOp} {op : Nat} (hop : op < 2) (ht : m.tile = none) (ho : m.origin = .host)
    (hs : m.sender = none) (hpkg : c.pkg < 256) (hc : c.domOn domCONTROL = true) (hown : (c.obj m.object.toNat).owned = false) :
    c.syncOp m op = c.objOp m.object.toNat op (sext 16 m.operand.toNat) := by
  obtain ⟨hobj, hkind, hzero, htop⟩ := syncWord_fields m hop
  have hhdr : Hdr.of (syncHdr c m)
      = { kind := kSYNC, pkg := c.pkg, qclass := 3, origin := 2, tag := baseTag pgMUSTER, payload := m.operand.toNat } := by
    simp only [syncHdr, ht, ho, Hdr.of_word]
    simp [kSYNC, originNum, baseTag, pgMUSTER, Nat.mod_eq_of_lt hpkg, Nat.mod_eq_of_lt m.operand.isLt]
  have hshape : hdrShape (Hdr.of (syncHdr c m)) = true := by rw [hhdr]; rfl
  have hname : c.baseNames (Hdr.of (syncHdr c m)) = true := by rw [hhdr]; simp [Chip.baseNames]
  unfold Chip.syncOp
  simp only [ht, hs, Option.map_none]
  unfold Chip.syncMsg
  simp only [hshape, hname, hobj, hkind, hzero, htop, Chip.wakeControl_of_on hc]
  simp [hhdr, baseTag, pgMUSTER, Chip.mayOperate, hown, Nat.not_lt.mpr (Nat.lt_succ_iff.mp hop)]

theorem tileOf_tileX_tileY (t : TileId) : tileOf (tileX t.val) (tileY t.val) = t.val := by
  have := t.isLt
  simp only [tileOf, tileX, tileY]
  omega

/-- ADD of class TEST on a counter of a core tile that serves adds to it, and the tile's orders are looked at again. -/
theorem Chip.syncOp_tile {c b : Chip} {m : SyncOp} {d : DieId} {t : TileId} (ht : m.tile = some (d, t)) (ho : m.origin = .test)
    (hpkg : c.pkg < 256) (hlow : m.object.toNat < 16) (hr : c.routerServes (tkey d t) = true)
    (hcore : c.coreServes (tkey d t) = true) (hk : tileKind t.val ≠ .port)
    (hb : b = (c.wakeTile (tkey d t)).updTile (tkey d t) (fun u => { u with orders := { u.orders with
        lsync := listSet u.orders.lsync m.object.toNat
          (BitVec.ofNat 32 ((nth 0 u.orders.lsync m.object.toNat).toNat + unsext 32 (sext 16 m.operand.toNat))) } })) :
    c.syncOp m 0 = b.serveOrders (tkey d t) {} ((b.tile (tkey d t)).q.command.length + 2) := by
  have hword : syncWord m 0 = m.object.toNat := by simp [syncWord]
  have hobj : bits m.object.toNat 3 0 = m.object.toNat := by
    simp only [bits_eq_div_mod]; omega
  have hhigh : bits m.object.toNat 13 4 = 0 := by
    simp only [bits_eq_div_mod]; omega
  have hmid : bits m.object.toNat 15 14 = 0 := by
    simp only [bits_eq_div_mod]; omega
  have hop : bits m.object.toNat 17 16 = 0 := by
    simp only [bits_eq_div_mod]; omega
  have htop : m.object.toNat / 2 ^ 18 = 0 := by omega
  have hd := d.isLt
  have htile := t.isLt
  have hdie : tkey d t / 256 = d.val := by unfold tkey tileKey; omega
  have hmod : tkey d t % 256 = t.val := by unfold tkey tileKey; omega
  have hx : tileX t.val % 16 = tileX t.val := by unfold tileX; omega
  have hy : tileY t.val % 16 = tileY t.val := by unfold tileY; omega
  have hhdr : Hdr.of (syncHdr c m) = { kind := kSYNC, pkg := c.pkg, die := d.val, x := tileX t.val, y := tileY t.val
                                       qclass := 3, origin := 4, payload := m.operand.toNat } := by
    simp only [syncHdr, ht, ho, Hdr.of_word]
    simp [kSYNC, originNum, Nat.mod_eq_of_lt hpkg, Nat.mod_eq_of_lt m.operand.isLt, Nat.mod_eq_of_lt hd, hx, hy]
  have hnames : c.names (tkey d t) (Hdr.of (syncHdr c m)) = true := by
    rw [hhdr]
    simp [Chip.names, hdie, hmod, tileOf_tileX_tileY]
  have hclass : c.tileClass (tkey d t) (Hdr.of (syncHdr c m)) true (decide ((Hdr.of (syncHdr c m)).kind = kSYNC)) [0, 4] = none := by
    unfold Chip.tileClass
    rw [hnames, hmod]
    simp [hhdr, hk, kSYNC, kindClass]
  unfold Chip.syncOp
  simp only [ht, hword]
  unfold Chip.tileSync
  simp only [hr, hobj, hhigh, hmid, hop, htop, hcore, decide_true, Bool.and_self, Nat.zero_lt_two, hclass, Bool.not_true,
    Bool.false_eq_true, if_false, if_true]
  simp only [hhdr, hb]
  simp

theorem Chip.poolGrant_granted {c : Chip} {i r : Nat} {p : Pool} {l : List Nat} (hp : p = nth { used := 0, queue := [] } c.pools i)
    (hq : p.queue = r :: l) (hu : p.used < poolSize i) :
    c.poolGrant i = { c with pools := listSet c.pools i { used := p.used + 1, queue := l } } := by
  unfold Chip.poolGrant
  simp only [← hp, hq, hu, if_true]

/-- Settles O17: an operation reaches its object or its counter through the checks of its message; OBJ_CFG and POOL_GRANT act alone. -/
theorem syncOperationsAndObjectsApply : Obligations.SyncOperationsAndObjectsApply := by
  unfold Obligations.SyncOperationsAndObjectsApply
  refine ⟨⟨?muster, ?tile⟩, ?cfg, ?grant⟩
  case muster =>
    intro s m y hh ht ho hs hpkg hc hown hpois
    refine ⟨fun h => takes_of_run (f := fun c => c.syncOp m 0) rfl hh ?_, fun h => takes_of_run (f := fun c => c.syncOp m 1) rfl hh ?_,
      fun h => takes_of_run (f := fun c => c.syncOp m 0) rfl hh ?_⟩
    · exact (Chip.syncOp_muster (by decide) ht ho hs hpkg hc hown).trans (Chip.objOp_taken hpois h)
    · exact (Chip.syncOp_muster (by decide) ht ho hs hpkg hc hown).trans (Chip.objOp_taken hpois h)
    · exact (Chip.syncOp_muster (by decide) ht ho hs hpkg hc hown).trans (Chip.objOp_discarded hpois h)
  case tile =>
    intro s m d t hh ht ho _ hpkg hlow hr hcore hk
    exact takes_of_run (f := fun c => c.syncOp m 0) rfl hh ⟨_, rfl, Chip.syncOp_tile ht ho hpkg hlow hr hcore hk rfl⟩
  case cfg =>
    rintro s o v w h rfl
    refine takes_of_accepts rfl h (by rfl) (by decide) (by decide) ?_ rfl
    rw [writeReg_muster _ _ _ _ _ (by rfl), show maskOf pgMUSTER 0x104 = 0x83FF0003 by rfl]
    unfold Chip.writeMuster
    simp only [if_true]
  case grant =>
    intro s i p r l hh hp hq hu
    exact takes_of_run (f := fun c => c.poolGrant i.val) rfl hh (Chip.poolGrant_granted hp hq hu)

end Sys2Proof.Machine
end

section
/-! Register actions of tile pages and of base-die pages, the common header, domain requests, and the RTC. -/

namespace Sys2Proof.Machine

/-! ### Where an address leads (R883–R886) -/

theorem regPlace_base {n off : Nat} (hn : n < 2048) (ho : off < 4096) (hc : baseCode n ≠ 0) : regPlace (n * 4096 + off) = .base n off := by
  have hdiv : (n * 4096 + off) / 4096 = n := by omega
  have hmod : (n * 4096 + off) % 4096 = off := by omega
  unfold regPlace
  rw [if_pos (by omega), hdiv, hmod, if_neg hc]

theorem regPlace_tile (d : DieId) (t : TileId) {j off : Nat} (hj : j < 4) (hj2 : j ≠ 2) (ho : off < 4096) :
    regPlace (tileAddr (tkey d t) j off) = .tile (tkey d t) j off := by
  have hd := d.isLt
  have ht := t.isLt
  have hk : tkey d t / 256 = d.val ∧ tkey d t % 256 = t.val := by unfold tkey tileKey; omega
  have hrest : tileAddr (tkey d t) j off - 0x1000000 = d.val * 0x400000 + t.val * 0x4000 + j * 0x1000 + off := by
    simp only [tileAddr, hk.1, hk.2]; omega
  have hdie : (d.val * 0x400000 + t.val * 0x4000 + j * 0x1000 + off) / 0x400000 % 4 = d.val := by omega
  have htile : (d.val * 0x400000 + t.val * 0x4000 + j * 0x1000 + off) / 0x4000 % 256 = t.val := by omega
  have hpage : (d.val * 0x400000 + t.val * 0x4000 + j * 0x1000 + off) / 0x1000 % 4 = j := by omega
  have hoff : (d.val * 0x400000 + t.val * 0x4000 + j * 0x1000 + off) % 0x1000 = off := by omega
  unfold regPlace
  rw [if_neg (by unfold tileAddr; omega), if_neg (by unfold tileAddr; omega)]
  simp only [hrest, hdie, htile, hpage, hoff]
  rw [if_neg (by simp [hj2])]
  rfl

/-! ### Tile pages (R188–R193) -/

theorem Chip.tileOpens_iff {c : Chip} {k : Nat} {o : Origin} : c.tileOpens k o = true ↔
    c.held = false ∧ (c.die (k / 256)).state ≠ .dead ∧ c.routerServes k = true ∧ o ≠ .stream ∧ (c.recovery = false ∨ o = .internal) := by
  simp [Chip.tileOpens, and_assoc]

theorem originNum_ne_one {o : Origin} (h : o ≠ .stream) : originNum o ≠ 1 := by
  cases o <;> simp_all [originNum]

/-- An open tile serves an access to its router or debug page, its router awake. -/
theorem Chip.tileServe_open {c : Chip} {k j : Nat} {o : Origin} (h : c.tileOpens k o = true) (hj : j ≠ 1) (off addr cls : Nat) :
    c.tileServe k j off addr cls = (c.routerAwake k, none) := by
  obtain ⟨-, hdead, hserves, -, -⟩ := Chip.tileOpens_iff.mp h
  have hoff : c.routerDom k ≠ .off := by simpa [Chip.routerServes] using hserves
  unfold Chip.tileServe
  rw [if_neg hdead, if_neg hoff]
  simp only [hj, decide_false, Bool.false_and, Bool.false_eq_true, if_false, Chip.routerAwake]

theorem Chip.recovery_routerAwake (c : Chip) (k : Nat) : (c.routerAwake k).recovery = c.recovery := by
  unfold Chip.routerAwake
  split <;> rfl

/-- The class of an open tile's access is not refused at its page. -/
theorem Chip.class_permitted {c : Chip} {k : Nat} {o : Origin} (h : c.tileOpens k o = true) :
    (decide (originNum o = 1) || ((c.routerAwake k).recovery && originNum o != 0)) = false := by
  obtain ⟨-, -, -, hstream, hrec⟩ := Chip.tileOpens_iff.mp h
  rw [Chip.recovery_routerAwake]
  rcases hrec with hrec | rfl
  · simp [originNum_ne_one hstream, hrec]
  · simp [originNum]

theorem Chip.regWrite_tile {c : Chip} {a k j off : Nat} (h : regPlace a = .tile k j off) (o : Origin) (v : Nat) :
    c.regWrite o a v = (c.writeTile k j off v (originNum o)).1 := by
  unfold Chip.regWrite Chip.writeAt
  rw [h]

/-- A write of a writable register of an open tile's debug page reaches that register. -/
theorem Chip.writeTile_qdbg {c : Chip} {k : Nat} {o : Origin} {off : Nat} {r : Reg} (h : c.tileOpens k o = true)
    (hc : ((c.routerAwake k).tile k).pQdbg.code = codeQDBG) (hlo : 256 ≤ off)
    (hr : (regsOf codeQDBG).find? (fun r => r.off == off && r.acc != .ro) = some r) (v : Nat) :
    c.writeTile k 3 off v (originNum o)
      = ((c.routerAwake k).writeTileReg k 3 off (v &&& r.mask) (originNum o) (tileAddr k 3 off), none) := by
  have hpage : ((c.routerAwake k).tile k).pageAt 3 = ((c.routerAwake k).tile k).pQdbg := rfl
  unfold Chip.writeTile
  simp only [Chip.tileServe_open h (show (3 : Nat) ≠ 1 by decide), Chip.class_permitted h, hpage, hc, hr, Nat.not_lt.mpr hlo,
    Bool.false_eq_true, if_false]

theorem Chip.writeTileReg_snap {x : Chip} {k : Nat} (hc : (x.tile k).pQdbg.code = codeQDBG) (v cls addr : Nat) :
    x.writeTileReg k 3 0x100 v cls addr = x.snapCtrl k v := by
  have hpage : (x.tile k).pageAt 3 = (x.tile k).pQdbg := rfl
  unfold Chip.writeTileReg
  simp only [hpage, hc]
  rfl

theorem Chip.writeTileReg_hwClear {x : Chip} {k : Nat} (hc : (x.tile k).pQdbg.code = codeQDBG) (cls addr : Nat) :
    x.writeTileReg k 3 0x1FC 1 cls addr = x.hwClear k := by
  have hpage : (x.tile k).pageAt 3 = (x.tile k).pQdbg := rfl
  unfold Chip.writeTileReg
  simp only [hpage, hc]
  rfl

theorem Chip.snapCtrl_take (x : Chip) (k : Nat) :
    x.snapCtrl k 1 = x.updTile k (fun u => { u with dbg := { u.dbg with frozen := true, snap := x.snapshot k } }) := rfl

theorem Chip.snapCtrl_thaw {x : Chip} {k : Nat} (h : ∀ p, x.shownPast k = some p → (x.past p).stalled = false) :
    x.snapCtrl k 4 = x.updTile k (fun u => { u with dbg := { u.dbg with frozen := false, snap := [] } }) := by
  have hbits : bit 4 0 = false ∧ bit 4 2 = true := ⟨rfl, rfl⟩
  unfold Chip.snapCtrl
  cases hp : x.shownPast k with
  | none => simp only [hbits, hp, Bool.not_false, Bool.and_self, Bool.false_eq_true, if_false, if_true]
  | some p => simp only [hbits, hp, h p hp, Bool.false_and, Bool.not_false, Bool.and_self, Bool.false_eq_true, if_false, if_true]

/-- A read of DROVE_DATA of an open tile gives the entry and advances DROVE_ADDR. -/
theorem Chip.readAt_drove {c : Chip} {a k : Nat} {o : Origin} (ha : regPlace a = .tile k 0 0x154) (h : c.tileOpens k o = true) :
    c.readAt a (originNum o) = ((c.routerAwake k).droveNext k, (c.routerAwake k).tileReg k 0 0x154, none) := by
  unfold Chip.readAt
  rw [ha]
  simp only [Chip.tileServe_open h (show (0 : Nat) ≠ 1 by decide), Chip.class_permitted h, decide_true, Bool.and_self,
    Bool.false_eq_true, if_false, if_true]

/-! ### Base-die pages (R617, R887–R897) -/

theorem Chip.opens_iff {c : Chip} {n : Nat} {o : Origin} : c.opens n o = true ↔
    c.held = false ∧ c.pageOpen n (originNum o) = true ∧ (inControl n = false ∨ c.domOn domCONTROL = true) := by
  simp [Chip.opens, and_assoc]

/-- A read of TIME_LO gives the low half of TIME and latches the high half. -/
theorem Chip.readAt_time {c : Chip} {o : Origin} (h : c.opens pgRTC o = true) :
    c.readAt (regAt pgRTC 0x100) (originNum o)
      = ({ c with rtc := { c.rtc with timeHi := BitVec.ofNat 32 (c.rtc.time.toNat / 2 ^ 32) } }, c.rtc.time.toNat % 2 ^ 32, none) := by
  obtain ⟨-, hopen, -⟩ := Chip.opens_iff.mp h
  have hreg : c.baseReg pgRTC 0x100 = c.rtc.time.toNat % 2 ^ 32 := Nat.mod_mod _ _
  have hplace : regPlace (regAt pgRTC 0x100) = .base pgRTC 0x100 := rfl
  unfold Chip.readAt
  rw [hplace]
  simp only [hopen, wakeControl_of_opens h, hreg, Bool.not_true, Bool.false_eq_true, if_false]
  rfl

theorem Page.code_clearStep (p : Page) (v b i : Nat) : (if bit v i then p.wr (b + 4 * i) 0 else p).code = p.code := by
  split <;> rfl

/-- A counter that the value does not name keeps its value. -/
theorem Page.rd_clearCounts {p : Page} {off v b n x : Nat} (hb : countClearBase p.code off = some (b, n))
    (hx : ∀ i, i < n → bit v i = true → x ≠ b + 4 * i) : (p.clearCounts off v).rd x = p.rd x := by
  have hfold : ∀ (l : List Nat) (q : Page), (∀ i ∈ l, i < n) →
      (l.foldl (fun p i => if bit v i then p.wr (b + 4 * i) 0 else p) q).rd x = q.rd x := by
    intro l
    induction l with
    | nil => exact fun _ _ => rfl
    | cons i l ih =>
      intro q hl
      rw [List.foldl_cons, ih _ (fun j hj => hl j (List.mem_cons_of_mem _ hj))]
      cases hbit : bit v i with
      | false => rw [if_neg Bool.false_ne_true]
      | true => rw [if_pos rfl, Page.rd_wr_other _ _ (hx i (hl i List.mem_cons_self) hbit)]
  unfold Page.clearCounts
  simp only [hb]
  exact hfold _ p (fun i hi => List.mem_range.mp hi)

/-- A write of the common header of an open base-die page reaches the header. -/
theorem Chip.regWrite_header {c : Chip} {n off : Nat} {o : Origin} (h : c.opens n o = true) (hn : n < 2048) (hc : baseCode n ≠ 0)
    (hi : baseCode n ≠ codeIDENT) (hoff : off < 256) (v : Nat) :
    c.regWrite o (n * 4096 + off) v = c.writeHeader n off v (originNum o) := by
  obtain ⟨-, hopen, -⟩ := Chip.opens_iff.mp h
  unfold Chip.regWrite Chip.writeAt
  rw [regPlace_base hn (by omega) hc]
  simp only
  unfold Chip.writeBase
  rw [if_neg hi, hopen, wakeControl_of_opens h, if_pos hoff]
  rfl

theorem Chip.keepDisagree_none {c : Chip} (h : ∀ d ∈ c.disagree, d = none) : c.keepDisagree = c := by
  have hany : c.disagree.any (fun d => d.isSome) = false := by
    rw [List.any_eq_false]
    intro d hd
    rw [h d hd]
    simp
  unfold Chip.keepDisagree
  rw [hany]
  rfl

/-- A write of the common header that is neither refused nor a LOCK puts the changed page. -/
theorem Chip.writeHeader_put {c : Chip} {n off v cls : Nat} {q : Page} (hd : ∀ d ∈ c.disagree, d = none)
    (hq : (c.page n).header off v cls = (q, false)) (hlock : (decide (off = 0x00C) && bit v 0) = false) :
    c.writeHeader n off v cls = c.putPage n q := by
  unfold Chip.writeHeader
  simp only [hq, Chip.keepDisagree_none (c := c.putPage n q) hd, hlock, Bool.false_eq_true, if_false]

theorem bit_word (v : W32) (i : Nat) : bit v.toNat i = v.getLsbD i := bit_eq_testBit v.toNat i

/-- Class OPERATOR may write every bit of BLK_CTRL. -/
theorem Page.header_ctrl (p : Page) (v : Nat) : p.header 0x00C v 3 = (p.ctrl v, false) := by
  simp [Page.header, WriteClass.permits]

theorem Page.ctrl_fault {p : Page} {v : Nat} (h1 : bit v 1 = true) (h2 : bit v 2 = false) :
    p.ctrl v = { p with fault := 0, further := 0, fclass := 0, faddr := 0, refused := false } := by
  simp only [Page.ctrl, h1, h2, Bool.false_eq_true, if_false, if_true]

theorem Page.ctrl_ce {p : Page} {v : Nat} (h1 : bit v 1 = false) (h2 : bit v 2 = true) : p.ctrl v = { p with ce := 0 } := by
  simp only [Page.ctrl, h1, h2, Bool.false_eq_true, if_false, if_true]

theorem Page.header_faultClear (p : Page) (v : W32) : p.header 0x00C (v &&& 0xFFFFFFF8 ||| 2).toNat 3
    = ({ p with fault := 0, further := 0, fclass := 0, faddr := 0, refused := false }, false) := by
  rw [Page.header_ctrl, Page.ctrl_fault (by rw [bit_word]; simp) (by rw [bit_word]; simp)]

theorem Page.header_ceClear (p : Page) (v : W32) : p.header 0x00C (v &&& 0xFFFFFFF8 ||| 4).toNat 3 = ({ p with ce := 0 }, false) := by
  rw [Page.header_ctrl, Page.ctrl_ce (by rw [bit_word]; simp) (by rw [bit_word]; simp)]

/-- A LOCK by OPERATOR acts on the header and locks what shares the page's lock. -/
theorem Chip.writeHeader_lock {c : Chip} {n : Nat} (hd : ∀ d ∈ c.disagree, d = none) (v : W32) :
    c.writeHeader n 0x00C (v ||| 1).toNat 3 = (lockedWith n).foldl (fun c i => c.updPage i (fun p => { p with lock := true }))
      (c.putPage n ((c.page n).ctrl (v ||| 1).toNat)) := by
  have hbit : bit (v ||| 1).toNat 0 = true := by rw [bit_word]; simp
  unfold Chip.writeHeader
  simp only [Page.header_ctrl, Chip.keepDisagree_none (c := c.putPage n ((c.page n).ctrl (v ||| 1).toNat)) hd, hbit, decide_true,
    Bool.and_self, Bool.false_eq_true, if_false, if_true]

theorem Chip.writeHeader_forceRefused {c : Chip} {n : Nat} (hd : ∀ d ∈ c.disagree, d = none) (v : Nat) :
    c.writeHeader n 0x01C v 2 = (c.putPage n (c.page n)).refuse n (n * 4096 + 0x01C) 2 := by
  have hh : (c.page n).header 0x01C v 2 = (c.page n, true) := rfl
  unfold Chip.writeHeader
  simp only [hh, Chip.keepDisagree_none (c := c.putPage n (c.page n)) hd, if_true]

theorem Chip.hwEvents_base {c : Chip} {n off : Nat} (hn : n < 2048) (ho : off < 4096) (hc : baseCode n ≠ 0) (w : W32) :
    c.hwEvents (n * 4096 + off) w = c.updPage n (fun q => { q with ev := q.ev ||| (w &&& BitVec.ofNat 32 (eventMask q.code)) }) := by
  unfold Chip.hwEvents
  rw [regPlace_base hn ho hc]

theorem Chip.high_hwClear (x : Chip) (k : Nat) : ((x.hwClear k).tile k).q.high = [BitVec.ofNat 16 (x.tile k).q.axon.length,
    BitVec.ofNat 16 (outFlits (x.tile k).q), BitVec.ofNat 16 (x.tile k).q.foldCount,
    BitVec.ofNat 16 ((x.tile k).q.data.map (fun m => m.length)).sum, BitVec.ofNat 16 (x.tile k).q.command.length,
    BitVec.ofNat 16 (x.tile k).q.sync.length] := by
  unfold Chip.hwClear
  rw [tile_updTile]
  rfl

theorem baseCode_ne_zero_of_reg {n off : Nat} {r : Reg} (h : (regsOf (baseCode n)).find? (fun x => x.off == off && x.acc != .ro) = some r) :
    baseCode n ≠ 0 := by
  intro h0
  rw [h0] at h
  exact absurd h (by rw [show regsOf 0 = [] from rfl]; simp)

theorem maskOf_of_reg {n off : Nat} {r : Reg} (h : (regsOf (baseCode n)).find? (fun x => x.off == off && x.acc != .ro) = some r) :
    maskOf n off = r.mask := by
  unfold maskOf
  rw [h]

/-- An accepted write of a COUNT_CLEAR register clears the counters that its value names. -/
theorem Chip.regWrite_countClear {c : Chip} {n off : Nat} {o : Origin} {r : Reg} (h : c.accepts n off o = true) (hn : n < 2048)
    (hlo : 256 ≤ off) (hhi : off < 4096) (hr : (regsOf (baseCode n)).find? (fun x => x.off == off && x.acc != .ro) = some r)
    (hi : baseCode n ≠ codeIDENT) (hcc : isCountClear (baseCode n) off = true) (v : Nat) :
    c.regWrite o (n * 4096 + off) v = c.clearCounts n off (v &&& r.mask) := by
  have hplace : regPlace (regAt n off) = .base n off := regPlace_base hn hhi (baseCode_ne_zero_of_reg hr)
  have hw := regWrite_of_accepts h hplace hi hlo v
  rw [maskOf_of_reg hr] at hw
  refine Eq.trans hw ?_
  unfold Chip.writeReg
  simp only [hcc, if_true]

theorem takes_regWrite {s : State} {i : Instr} {o : Origin} {a v : Nat} {d : Chip} {post : Chip → Prop}
    (hi : exec i s = s.run (fun c => c.regWrite o a v)) (h : s.chip.held = false) (hd : s.chip.regWrite o a v = d) (hp : post d) :
    s.takes i post :=
  takes_of_run hi h (hd ▸ hp)

theorem takes_readAt {s : State} {i : Instr} {o : Origin} {a v : Nat} {st : Option Nat} {d : Chip} {post : Chip → Prop}
    (hi : exec i s = s.run (fun c => (c.readAt a (originNum o)).1.say (.data [(c.readAt a (originNum o)).2.1])))
    (h : s.chip.held = false) (hd : s.chip.readAt a (originNum o) = (d, v, st)) (hp : post (d.say (.data [v]))) : s.takes i post := by
  refine takes_of_run hi h ?_
  rw [hd]
  exact hp

/-- A write of SNAP_CTRL of an open tile. -/
theorem Chip.regWrite_snap {c : Chip} {d : DieId} {t : TileId} {o : Origin} (h : c.tileOpens (tkey d t) o = true)
    (hc : ((c.routerAwake (tkey d t)).tile (tkey d t)).pQdbg.code = codeQDBG) (v : Nat) :
    c.regWrite o (tileAddr (tkey d t) 3 0x100) v = (c.routerAwake (tkey d t)).snapCtrl (tkey d t) (v &&& 5) := by
  rw [Chip.regWrite_tile (regPlace_tile d t (by decide) (by decide) (by decide)), Chip.writeTile_qdbg h hc (by decide) (by rfl),
    Chip.writeTileReg_snap hc]

/-- A write of HW_CLEAR of an open tile. -/
theorem Chip.regWrite_hwClear {c : Chip} {d : DieId} {t : TileId} {o : Origin} (h : c.tileOpens (tkey d t) o = true)
    (hc : ((c.routerAwake (tkey d t)).tile (tkey d t)).pQdbg.code = codeQDBG) :
    c.regWrite o (tileAddr (tkey d t) 3 0x1FC) 1 = (c.routerAwake (tkey d t)).hwClear (tkey d t) := by
  rw [Chip.regWrite_tile (regPlace_tile d t (by decide) (by decide) (by decide)), Chip.writeTile_qdbg h hc (by decide) (by rfl)]
  exact Chip.writeTileReg_hwClear hc _ _

/-- Settles O30: each action is a write or a read of its register, followed to what the register's own page does with it. -/
theorem registerActionsTakeEffect : Obligations.RegisterActionsTakeEffect := by
  unfold Obligations.RegisterActionsTakeEffect
  refine ⟨?tile, ⟨?time, ?countClear, ?counters⟩, ?header⟩
  case tile =>
    rintro s o d t k x rfl h rfl
    have hheld := (Chip.tileOpens_iff.mp h).1
    refine ⟨fun hc => ⟨takes_regWrite rfl hheld (Chip.regWrite_snap h hc 1) (Chip.snapCtrl_take _ _),
        fun hst => takes_regWrite rfl hheld (Chip.regWrite_snap h hc 4) (Chip.snapCtrl_thaw hst),
        takes_regWrite rfl hheld (Chip.regWrite_hwClear h hc) ⟨rfl, Chip.high_hwClear _ _⟩⟩,
      takes_readAt (o := o) rfl hheld (Chip.readAt_drove (regPlace_tile d t (by decide) (by decide) (by decide)) h) rfl⟩
  case time =>
    intro s o h
    exact takes_readAt (o := o) rfl (Chip.opens_iff.mp h).1 (Chip.readAt_time h) ⟨rfl, rfl, rfl, rfl⟩
  case countClear =>
    intro s o pg off v r hpg hlo h4 hacc hr hi hcc
    refine takes_of_run (f := fun c => if off.toNat % 4 = 0 then c.regWrite o (pageReg pg off.toNat) v.toNat else c) rfl
      (held_of_accepts hacc) ?_
    rw [if_pos h4]
    exact Chip.regWrite_countClear hacc hpg hlo off.isLt hr hi hcc _
  case counters =>
    intro p off v b n hb x hx
    exact Page.rd_clearCounts hb hx
  case header =>
    rintro s pg v hw n p rfl hn hc hi rfl hd
    refine ⟨fun h => ?operator, fun h => ?test, fun h => ?host⟩
    case operator =>
      have hheld := (Chip.opens_iff.mp h).1
      have hwrite := fun off (hoff : off < 256) v => Chip.regWrite_header (off := off) h hn hc hi hoff v
      have hev : (s.chip.page pg.val).header 0x014 v.toNat 3
          = ({ s.chip.page pg.val with ev := (s.chip.page pg.val).ev &&& ~~~v }, false) := by
        simp [Page.header]
      refine ⟨takes_regWrite rfl hheld (hwrite 0x00C (by decide) _) (Chip.writeHeader_lock hd v),
        takes_regWrite rfl hheld (hwrite 0x00C (by decide) _) (Chip.writeHeader_put hd (Page.header_faultClear _ v) ?_),
        takes_regWrite rfl hheld (hwrite 0x00C (by decide) _) (Chip.writeHeader_put hd (Page.header_ceClear _ v) ?_),
        takes_of_run (f := fun c => (c.regWrite .operator (pageReg pg 0x014) v.toNat).hwEvents (pageReg pg 0x014) hw) rfl hheld
          ⟨_, rfl, ?_⟩⟩
      · rw [bit_word]; simp
      · rw [bit_word]; simp
      · exact (congrArg (fun c => c.hwEvents (pageReg pg 0x014) hw) ((hwrite 0x014 (by decide) _).trans
          (Chip.writeHeader_put hd hev rfl))).trans (Chip.hwEvents_base hn (by decide) hc hw)
    case test =>
      have hev : (s.chip.page pg.val).header 0x01C v.toNat 4 = ({ s.chip.page pg.val with
          ev := (s.chip.page pg.val).ev ||| (v &&& BitVec.ofNat 32 (eventMask (s.chip.page pg.val).code)) }, false) := by
        simp [Page.header]
      exact takes_regWrite rfl (Chip.opens_iff.mp h).1 (Chip.regWrite_header h hn hc hi (by decide) _)
        (Chip.writeHeader_put hd hev rfl)
    case host =>
      exact takes_regWrite rfl (Chip.opens_iff.mp h).1 (Chip.regWrite_header h hn hc hi (by decide) _)
        (Chip.writeHeader_forceRefused hd _)

end Sys2Proof.Machine
end

section
/-! Domain requests and drains, and the RTC. -/

namespace Sys2Proof.Machine

/-! ### Domain requests (R584–R587, R593, R604) -/

/-- A write of DOM_REQ asks for the selected domain in the name of the register. -/
theorem Chip.writePower_domReq {c : Chip} {n v cls : Nat} {t : DomState} (hn : n = (c.page pgPOWER).rd 0x100 % 1024)
    (hk : domKind n ≠ .nothing) (ht : domOf v = some t) :
    c.writePower 0x108 v cls = c.askDomain n { target := t, asker := .register, origin := (originOf cls).getD .internal } := by
  subst hn
  unfold Chip.writePower
  simp only [ht, hk, if_false]

theorem takes_domReq {s : State} {o : Origin} {v : W32} {n : Nat} {t : DomState} {d : Chip} (h : s.chip.accepts pgPOWER 0x108 o = true)
    (hn : n = (s.chip.page pgPOWER).rd 0x100 % 1024) (hk : domKind n ≠ .nothing) (ht : domOf (v.toNat &&& 3) = some t)
    (hd : s.chip.askDomain n { target := t, asker := .register, origin := (originOf (originNum o)).getD .internal } = d) :
    s.takes (.domReq o v) (fun c => c = d) := by
  refine takes_of_accepts rfl h (by rfl) (by decide) (by decide) ?_ rfl
  rw [writeReg_power _ _ _ _ _ (by rfl), ← hd]
  exact Chip.writePower_domReq hn hk ht

theorem Chip.askDomain_busy {c : Chip} {n : Nat} (h : ((c.dom n).current.isSome || (c.dom n).draining || (c.dom n).waking) = true)
    (q : DomReq) : c.askDomain n q = c.updDom n (fun d => { d with queued := d.queued ++ [q] }) := if_pos h

theorem Chip.askDomain_free {c : Chip} {n : Nat} (h : ((c.dom n).current.isSome || (c.dom n).draining || (c.dom n).waking) = false)
    (q : DomReq) : c.askDomain n q = c.startReq n q := if_neg (by rw [h]; exact Bool.false_ne_true)

/-- A request that nothing refuses for a state that the domain is not in. -/
theorem Chip.startReq_granted {c : Chip} {n : Nat} {q : DomReq} (hs : (c.dom n).state ≠ q.target) (hr : c.refusals n q.target q = []) :
    c.startReq n q = if q.target = .on then c.updDom n (fun d => { d with waking := true, current := some q, prev := d.state })
      else if (c.dom n).state = .on then
        c.updDom n (fun d => { d with draining := true, current := some q, prev := d.state, drainFrom := c.now })
      else (c.goDown n q.target).conclude n q (c.dom n).state stOK 0 := by
  unfold Chip.startReq
  simp only [hs, hr, decide_false, Bool.and_false, Bool.false_eq_true, if_false]

theorem Chip.startReq_refused {c : Chip} {n a : Nat} {l : List Nat} {q : DomReq} (hs : (c.dom n).state ≠ q.target)
    (hr : c.refusals n q.target q = a :: l) :
    c.startReq n q = ((c.count pgPOWER 0x144 1).raise pgPOWER 1).conclude n q (c.dom n).state (l.foldl worse a) 0 := by
  unfold Chip.startReq
  simp only [hs, hr, decide_false, Bool.and_false, Bool.false_eq_true, if_false]

/-! ### The end of a drain and of a wake -/

theorem Chip.drainEnd_ends {c : Chip} {n : Nat} {q : DomReq} (hq : (c.dom n).current = some q) (hd : (c.dom n).draining = true)
    (hb : c.domBusy n = false) : c.drainEnd n
      = ((c.goDown n q.target).conclude n q (c.dom n).prev stOK (c.now - (c.dom n).drainFrom)).afterDown n := by
  unfold Chip.drainEnd
  simp only [hq, hd, hb, Bool.not_true, Bool.or_self, Bool.false_eq_true, if_false]

theorem Chip.drainEnd_busy {c : Chip} {n : Nat} {q : DomReq} (hq : (c.dom n).current = some q) (hb : c.domBusy n = true) :
    c.drainEnd n = c := by
  unfold Chip.drainEnd
  simp only [hq, hb, Bool.or_true, if_true]

theorem Chip.drainTimeout_late {c : Chip} {n : Nat} {q : DomReq} (hq : (c.dom n).current = some q) (hd : (c.dom n).draining = true)
    (ht : c.drainLimit ≤ c.now - (c.dom n).drainFrom) {b : Chip} (hb : b = (c.count pgPOWER 0x140 1).raise pgPOWER 0) :
    c.drainTimeout n = ((b.updDom n (fun d => { d with draining := false, wakeAfter := false })).conclude n q (c.dom n).prev
      stDRAIN_TIMEOUT (c.now - (c.dom n).drainFrom)).afterDown n := by
  subst hb
  unfold Chip.drainTimeout
  simp only [hq, hd, Nat.not_lt.mpr ht, decide_false, Bool.not_true, Bool.or_self, Bool.false_eq_true, if_false]
  rfl

theorem Chip.drainTimeout_early {c : Chip} {n : Nat} {q : DomReq} (hq : (c.dom n).current = some q)
    (ht : c.now - (c.dom n).drainFrom < c.drainLimit) : c.drainTimeout n = c := by
  unfold Chip.drainTimeout
  simp only [hq, ht, decide_true, Bool.or_true, if_true]

/-- A waking domain of no pad group concludes its request, and what waits goes on. -/
theorem Chip.wakingEnd_concludes {c b : Chip} {n : Nat} {q : DomReq} {ok : Bool} (hq : (c.dom n).current = some q)
    (hw : (c.dom n).waking = true) (hg : groupOf n = none) (hb : (b, ok) = c.goUp n) {e : Chip}
    (he : e = b.conclude n q (c.dom n).prev (if ok then stOK else stINTERNAL) 0) :
    c.wakingEnd n = (e.nextReq n ((e.dom n).queued.length + 1)).tidyWakes := by
  subst he
  unfold Chip.wakingEnd
  simp only [hq, hw, hg, ← hb, Bool.not_true, Bool.false_eq_true, if_false]

/-- Settles O31: a request by the branch that its domain's state leaves, a drain and a wake by what ends them. -/
theorem domainRequestsAndDrainsEnd : Obligations.DomainRequestsAndDrainsEnd := by
  unfold Obligations.DomainRequestsAndDrainsEnd
  refine ⟨?request, ?transition⟩
  case request =>
    rintro s o v n t q d h hn hk ht rfl rfl
    refine ⟨fun hbusy => takes_domReq h hn hk ht (Chip.askDomain_busy hbusy _), fun hfree => ?_⟩
    have hask := fun q => Chip.askDomain_free hfree q
    refine ⟨fun hs => takes_domReq h hn hk ht ((hask _).trans (Chip.startReq_there hk hs)), fun hs hr => ⟨fun hon => ?_, fun hne hst => ?_⟩,
      fun a l hs hr => takes_domReq h hn hk ht ((hask _).trans (Chip.startReq_refused hs hr))⟩
    · exact takes_domReq h hn hk ht ((hask _).trans ((Chip.startReq_granted hs hr).trans (if_pos hon)))
    · exact takes_domReq h hn hk ht ((hask _).trans ((Chip.startReq_granted hs hr).trans ((if_neg hne).trans (if_pos hst))))
  case transition =>
    rintro s n d q hh rfl hq
    refine ⟨fun hd => ⟨fun hb => ?ends, fun hb => ?busy, fun ht => ?late, fun ht => ?early⟩, fun hw hg => ?wakes⟩
    case ends => exact takes_of_run (f := fun c => c.drainEnd n.val) rfl hh (Chip.drainEnd_ends hq hd hb)
    case busy => exact takes_of_run (f := fun c => c.drainEnd n.val) rfl hh (Chip.drainEnd_busy hq hb)
    case late => exact takes_of_run (f := fun c => c.drainTimeout n.val) rfl hh ⟨_, rfl, Chip.drainTimeout_late hq hd ht rfl⟩
    case early => exact takes_of_run (f := fun c => c.drainTimeout n.val) rfl hh (Chip.drainTimeout_early hq ht)
    case wakes =>
      exact takes_of_run (f := fun c => c.wakingEnd n.val) rfl hh ⟨_, _, rfl, _, rfl, Chip.wakingEnd_concludes hq hw hg rfl rfl⟩

/-! ### The RTC (R601, R602, R617, R618) -/

/-- A command that acts in a reset too answers the state its effect leaves, settled. -/
theorem takes_of_runAny {s : State} {i : Instr} {f : Chip → Chip} {post : Chip → Prop} (hi : exec i s = s.runAny f)
    (hp : post (f s.chip)) : s.takes i post :=
  ⟨_, hi, hp⟩

theorem Chip.alarmFire_repeats {c b : Chip} {per : Nat} (he : c.alarmEn 0 = true) (hf : c.rtc.fired0 = false)
    (ht : c.rtc.alarm0.toNat ≤ c.rtc.time.toNat) (hb : b = c.raise pgRTC 0) (hp : per = (b.page pgRTC).rd 0x134)
    (hr : bit ((b.page pgRTC).rd 0x130) 8 = true) (h0 : per ≠ 0) :
    c.alarmFire 0 = ({ b with rtc := { b.rtc with alarm0 := c.rtc.alarm0 + BitVec.ofNat 64 per } } : Chip).wakeDetect 0 := by
  unfold Chip.alarmFire
  simp only [he, hf, Nat.not_lt.mpr ht, ← hb, ← hp, hr, h0, decide_false, Bool.not_true, Bool.or_self, Bool.false_eq_true, if_false,
    if_true]

theorem Chip.alarmFire_once {c b : Chip} (he : c.alarmEn 1 = true) (hf : c.rtc.fired1 = false)
    (ht : c.rtc.alarm1.toNat ≤ c.rtc.time.toNat) (hb : b = c.raise pgRTC 1) :
    c.alarmFire 1 = ({ b with rtc := { b.rtc with fired1 := true } } : Chip).wakeDetect 1 := by
  unfold Chip.alarmFire
  simp only [he, hf, Nat.not_lt.mpr ht, ← hb, decide_false, Bool.not_true, Bool.or_self, Bool.false_eq_true, if_false, Nat.one_ne_zero]

theorem Chip.alarmFire_early {c : Chip} (ht : c.rtc.time.toNat < c.rtc.alarm0.toNat) : c.alarmFire 0 = c := by
  unfold Chip.alarmFire
  simp only [ht, decide_true, Bool.or_true, if_true]

theorem Chip.writeRtc_load {c b : Chip} {cls : Nat} (ha : c.audit 10 cls stOK (natLe 8 c.rtc.time.toNat
    ++ natLe 8 ((c.page pgRTC).rd 0x110 + (c.page pgRTC).rd 0x114 * 2 ^ 32)) = (b, true)) : c.writeRtc 0x118 1 cls = b.loadTime := by
  unfold Chip.writeRtc
  simp only [ha]
  rfl

/-- With no pasture resident, a valid RTC lets no round start. -/
theorem Chip.rtcValid_idle {c : Chip} (h : c.residents = []) (r : Rtc) : c.rtcValid r = { c with rtc := { r with valid := true } } := by
  have hres : ({ c with rtc := { r with valid := true } } : Chip).residents = [] := h
  unfold Chip.rtcValid
  simp only [hres, List.foldl_nil]

/-- Settles O33: each alarm by what its enable, its value and TIME say; a load, a lock and a failure by their own rule. -/
theorem theRtcKeepsTimeAndAlarms : Obligations.TheRtcKeepsTimeAndAlarms := by
  unfold Obligations.TheRtcKeepsTimeAndAlarms
  refine ⟨?repeats, ?once, ?early, ?load, fun s hres => ⟨?lock, fun hv => ?crystal⟩⟩
  case repeats =>
    intro s per he hf ht hp hr h0
    exact takes_of_runAny (f := fun c => c.alarmFire 0) rfl ⟨_, rfl, Chip.alarmFire_repeats he hf ht rfl hp hr h0⟩
  case once =>
    intro s he hf ht
    exact takes_of_runAny (f := fun c => c.alarmFire 1) rfl ⟨_, rfl, Chip.alarmFire_once he hf ht rfl⟩
  case early =>
    intro s ht
    exact takes_of_runAny (f := fun c => c.alarmFire 0) rfl (Chip.alarmFire_early ht)
  case load =>
    intro s o b h ha
    refine takes_of_accepts rfl h (by rfl) (by decide) (by decide) ?_ ⟨_, rfl, rfl⟩
    rw [writeReg_rtc _ _ _ _ _ (by rfl)]
    exact Chip.writeRtc_load ha
  case lock => exact takes_of_runAny (f := Chip.rtcLocks) rfl (Chip.rtcValid_idle hres _)
  case crystal =>
    have hx : s.chip.xtalFails = (s.chip.raise pgRTC 2).rtcValid { s.chip.rtc with internal := true } := by
      unfold Chip.xtalFails
      rw [hv]
      rfl
    refine takes_of_runAny (f := Chip.xtalFails) rfl ?_
    rw [hx, Chip.rtcValid_idle (c := s.chip.raise pgRTC 2) hres]
    exact ⟨rfl, rfl⟩

end Sys2Proof.Machine
end

section
/-! Ceilings, samples and voltage steps; trips and recoveries of a die; lane checks of a vertical link. -/

namespace Sys2Proof.Machine

/-! ### The ceiling (R564) -/

theorem asr_two (t : Int) : asr t 2 = t / 4 := by
  unfold asr
  exact Int.fdiv_eq_ediv_of_nonneg t (by decide)

theorem ceilingOf_below {start target : Nat} {t : Int} (h : t < 4 * (start : Int)) : ceilingOf start target t = 900 := by
  unfold ceilingOf
  rw [asr_two]
  exact if_pos (by omega)

theorem ceilingOf_above {start target : Nat} {t : Int} (h : 4 * (start : Int) ≤ t) :
    ceilingOf start target t = max 550 (target - 10 * (t / 4 - (start : Int)).toNat) := by
  unfold ceilingOf
  rw [asr_two]
  exact if_neg (by omega)

theorem ceilingOf_bounds {start target : Nat} (ht : target ≤ 900) (t : Int) :
    550 ≤ ceilingOf start target t ∧ ceilingOf start target t ≤ 900 := by
  rcases Int.lt_or_le t (4 * (start : Int)) with h | h
  · rw [ceilingOf_below h]; omega
  · rw [ceilingOf_above h]; omega

theorem ceilingOf_antitone {start target : Nat} (ht : target ≤ 900) {t u : Int} (h : t ≤ u) :
    ceilingOf start target u ≤ ceilingOf start target t := by
  rcases Int.lt_or_le t (4 * (start : Int)) with hlow | hhigh
  · rw [ceilingOf_below hlow]
    exact (ceilingOf_bounds ht u).2
  · rw [ceilingOf_above hhigh, ceilingOf_above (Int.le_trans hhigh h)]
    omega

theorem ceilingOf_degrees {start target : Nat} {t : Int} {n : Nat} (h : t = 4 * ((start : Int) + (n : Int))) :
    ceilingOf start target t = max 550 (target - 10 * n) := by
  rw [ceilingOf_above (by omega), show (t / 4 - (start : Int)).toNat = n by omega]

/-! ### Samples and steps (R564, R565, R594) -/

theorem Chip.die_putDie_same {c : Chip} {d : Nat} (h : d < c.dies.length) (r : DieRec) : (c.putDie d r).die d = r := by
  unfold Chip.die Chip.putDie
  exact nth_listSet_same _ _ _ h

theorem Chip.ceiling_dueStep {c : Chip} {d : Nat} (h : d < c.dies.length) : ((c.dueStep d).die d).ceiling = (c.die d).ceiling := by
  unfold Chip.dueStep
  dsimp only
  split <;> rw [Chip.die_putDie_same h]

/-- A die whose sample has no valid reading takes the lowest ceiling. -/
theorem Chip.ceiling_sampleDie_empty {c : Chip} {d : Nat} (h : d < c.dies.length) (hs : (c.die d).state = .on) :
    ((c.sampleDie d []).die d).ceiling = 550 := by
  have hlen : ∀ (c' : Chip) r, (c'.putDie d r).dies.length = c'.dies.length := fun c' r => by
    simp [Chip.putDie, listSet_eq_set]
  unfold Chip.sampleDie
  simp only [hs, reduceCtorEq, decide_false, Bool.or_self, Bool.false_eq_true, if_false, List.max?_nil, List.length_nil,
    Nat.zero_lt_two, if_true]
  split
  next heq =>
    rw [Chip.ceiling_dueStep (by rw [hlen]; exact h), Chip.die_putDie_same h]
    exact heq.symm
  next =>
    simp only [Chip.raise_eq, Chip.count_eq, Chip.updDie_eq]
    rw [Chip.ceiling_dueStep (by simp only [Chip.putPage_dies, hlen]; exact h)]
    simp only [Chip.putPage_at_die]
    rw [Chip.die_putDie_same (by rw [hlen]; exact h)]

/-- The package once the measured powers of the four dies are on their pages (R594). -/
def Chip.powersShown (c : Chip) (mw : List Nat) : Chip :=
  ((upto 4).foldl (fun c d => c.updDie d (fun r => { r with power := nth 0 mw d })) c).updPage pgPOWER
    (fun pg => pg.wr 0x124 (min mw.sum (2 ^ 19 - 1)))

theorem Chip.powerSample_uncapped {c : Chip} {mw : List Nat} (h : ((c.powersShown mw).page pgPOWER).fld 0x120 8 0 = 0) :
    c.powerSample mw = c.powersShown mw := if_pos h

theorem Chip.powerSample_above {c : Chip} {mw : List Nat} {k : Nat} (hk : k = bestDie (fun d => ((c.powersShown mw).die d).power))
    (h0 : ((c.powersShown mw).page pgPOWER).fld 0x120 8 0 ≠ 0)
    (h : 1000 * ((c.powersShown mw).page pgPOWER).fld 0x120 8 0 < mw.sum) (hv : 550 < ((c.powersShown mw).die k).capVolt) :
    c.powerSample mw = (((((c.powersShown mw).updDie k (fun r => { r with
      capVolt := max 550 (((c.powersShown mw).die k).capVolt - 10) })).count pgPOWER 0x150 1).raise pgPOWER 3)).dueStep k := by
  subst hk
  exact (if_neg h0).trans ((if_pos h).trans (if_neg (Nat.not_le.mpr hv)))

theorem Chip.voltageStep_gap {c : Chip} {d : Nat} (hs : (c.die d).step ≠ none) (hg : c.gapOf (c.dieSet d) = true)
    (hc : ∀ i, i < 16 → c.checkDue d i = false) : c.voltageStep d = c.takeStep d := by
  have hany : (upto 16).any (fun i => c.checkDue d i) = false := by
    rw [List.any_eq_false]
    intro i hi
    rw [hc i (List.mem_range.mp hi)]
    exact Bool.false_ne_true
  unfold Chip.voltageStep
  simp only [Option.isNone_eq_false_iff.mpr (Option.isSome_iff_ne_none.mpr hs), hg, hany, Bool.not_true, Bool.or_self,
    Bool.false_eq_true, if_false]

theorem Chip.voltageStep_busy {c : Chip} {d : Nat} (hg : c.gapOf (c.dieSet d) = false) : c.voltageStep d = c := by
  unfold Chip.voltageStep
  simp only [hg, Bool.not_false, Bool.or_true, Bool.true_or, if_true]

/-- Settles O34: the ceiling by its two pieces, and each sample or step by the branch that its conditions name. -/
theorem ceilingsSamplesAndSteps : Obligations.CeilingsSamplesAndSteps := by
  unfold Obligations.CeilingsSamplesAndSteps
  refine ⟨⟨?law, fun c d h hs => Chip.ceiling_sampleDie_empty h hs⟩, ?throttle, ?power, ?step⟩
  case law =>
    intro start target t u _ hhi
    exact ⟨(ceilingOf_bounds hhi t).1, (ceilingOf_bounds hhi t).2, ceilingOf_antitone hhi, ceilingOf_below, fun n => ceilingOf_degrees⟩
  case throttle =>
    intro s l hh hl
    exact takes_of_run (f := fun c => c.throttleSample l) (shaped_wf (i := .throttleSample l) (beq_iff_eq.mpr hl) _) hh rfl
  case power =>
    rintro s a b d e x k hh rfl rfl
    exact ⟨fun h0 => takes_of_run (f := fun c => c.powerSample [a.toNat, b.toNat, d.toNat, e.toNat]) rfl hh
        (Chip.powerSample_uncapped h0),
      fun h0 h hv => takes_of_run (f := fun c => c.powerSample [a.toNat, b.toNat, d.toNat, e.toNat]) rfl hh
        (Chip.powerSample_above rfl h0 h hv)⟩
  case step =>
    intro s d hh hs
    exact ⟨fun hg hc => takes_of_run (f := fun c => c.voltageStep d.val) rfl hh (Chip.voltageStep_gap hs hg hc),
      fun hg => takes_of_run (f := fun c => c.voltageStep d.val) rfl hh (Chip.voltageStep_busy hg)⟩

/-! ### Trips and recoveries (R566, R567, R572, R609) -/

theorem Chip.dieTrip_on {c : Chip} {d : Nat} (h : (c.die d).state = .on) : c.dieTrip d = (c.raise (pgDIE + d) 1).trip d := by
  unfold Chip.dieTrip
  rw [h]
  rfl

theorem Chip.dieTrip_other {c : Chip} {d : Nat} (h : (c.die d).state ≠ .on) : c.dieTrip d = c := by
  unfold Chip.dieTrip
  rw [if_pos (bne_iff_ne.mpr h)]

theorem Chip.regFault_on {c b : Chip} {d : Nat} (h : c.domOn (domREG d) = true)
    (hb : b = ((c.dieDark d).raise pgPOWER 4).updDie d (fun r => { r with state := .off, regFault := true, step := none })) :
    c.regFault d = ((c.dieSet d).foldl (fun c p => c.faultHard p stINTERNAL) b).finishSteps d := by
  subst hb
  unfold Chip.regFault
  rw [h]
  rfl

theorem Chip.handshakeFail_waking {c : Chip} {d : Nat} (hw : (c.dom (domREG d)).waking = true) (hc : (c.dom (domREG d)).current = none) :
    c.handshakeFail d = (((c.dieDead d).updDom (domREG d) (fun x => { x with waking := false })).nextReq (domREG d)
      ((c.dom (domREG d)).queued.length + 1)).tidyWakes := by
  unfold Chip.handshakeFail
  simp only [hw, hc, Bool.not_true, Bool.false_eq_true, if_false]

/-- The die's own sensors all read below 110 °C, an invalid one not counting. -/
theorem Chip.tripClear_cool {c b : Chip} {t : Int} (hs : (c.die 0).state = .tripped) (ht : (c.die 0).temp = some t)
    (hc : t < 4 * (c.resumeTemp : Int))
    (ho : ∀ i, i < 4 → bit ((c.page pgDIE).rd (0x120 + 4 * i)) 15 = true → sext 12 ((c.page pgDIE).rd (0x120 + 4 * i)) < 440)
    (hb : b = (c.updDie 0 (fun r => { r with state := .off, thermal := .normal })).dieRaise 0 c.activeProfile) :
    c.tripClear 0 = { b with thermTrip := b.dies.any (fun r => r.state == .tripped) } := by
  have hown : (upto 4).all (fun i => !bit ((c.page (pgDIE + 0)).rd (0x120 + 4 * i)) 15
      || decide (sext 12 ((c.page (pgDIE + 0)).rd (0x120 + 4 * i)) < 440)) = true := by
    rw [List.all_eq_true]
    intro i hi
    cases hv : bit ((c.page pgDIE).rd (0x120 + 4 * i)) 15 with
    | false => simp
    | true => simp [ho i (List.mem_range.mp hi) hv]
  subst hb
  unfold Chip.tripClear
  simp only [hs, ht, hc, hown, bne_self_eq_false, decide_true, Bool.not_true, Bool.or_self, Bool.false_eq_true, if_false]

/-- TRIP_CLEAR of die 0 alone clears that die's trip. -/
theorem Chip.writeTherm_tripClear (c : Chip) (cls : Nat) : c.writeTherm 0x170 1 cls = c.tripClear 0 := rfl

/-- Settles O35: each event of a die by the branch that its conditions name. -/
theorem diesTripAndRecover : Obligations.DiesTripAndRecover := by
  unfold Obligations.DiesTripAndRecover
  refine ⟨?trip, ?regulator, ?handshake, ?clear⟩
  case trip =>
    intro s d hh
    exact ⟨fun h => takes_of_run (f := fun c => c.dieTrip d.val) rfl hh (Chip.dieTrip_on h),
      fun h => takes_of_run (f := fun c => c.dieTrip d.val) rfl hh (Chip.dieTrip_other h)⟩
  case regulator =>
    intro s d hh h
    exact takes_of_run (f := fun c => c.regFault d.val) rfl hh ⟨_, rfl, Chip.regFault_on h rfl⟩
  case handshake =>
    intro s d hh hw hc
    exact takes_of_run (f := fun c => c.handshakeFail d.val) rfl hh (Chip.handshakeFail_waking hw hc)
  case clear =>
    intro s o v t h hv hs ht hc ho
    refine takes_of_accepts rfl h (by rfl) (by decide) (by decide) ?_ ⟨_, rfl, rfl⟩
    have hval : v.toNat &&& maskOf pgTHERM 0x170 = 1 := hv
    rw [writeReg_therm _ _ _ _ _ (by rfl), hval, Chip.writeTherm_tripClear]
    exact Chip.tripClear_cool hs ht hc ho rfl

/-! ### Lane checks (R556–R561) -/

theorem Chip.laneDue_on {c : Chip} {d i : Nat} (he : bit ((c.page pgSTACK).rd 0x108) 0 = true) (hs : (c.die d).state = .on) :
    c.laneDue d i = c.putVlink d i { c.vlink d i with due := true } := by
  unfold Chip.laneDue
  simp only [he, hs, decide_true, Bool.and_self, if_true]

theorem Chip.laneCheck_busy {c : Chip} {d i : Nat} (hg : c.gapOf (c.linkSet d i) = false) (up down : BitVec 76) (rails : Nat) :
    c.laneCheck d i up down rails = c := by
  unfold Chip.laneCheck
  simp only [hg, Bool.not_false, Bool.or_true, if_true]

/-- A lane check in its gap that needs nothing worse than a spare. -/
theorem Chip.laneCheck_spares {c e f : Chip} {d i : Nat} {up down : BitVec 76} {rails : Nat} {a b : DirCheck} (hd : c.checkDue d i = true)
    (hg : c.gapOf (c.linkSet d i) = true) (ht : (c.vlink d i).tests = [])
    (hu : (c.unit (vlinkUnit (tileKey d (portTile i)))).due = false)
    (ha : checkDir (bit (c.features d) 0) (c.vlink d i).up up (rails % 64) = (a, false))
    (hb : checkDir (bit (c.features d) 0) (c.vlink d i).down down (rails / 64) = (b, false))
    (hah : a.halved = false) (hbh : b.halved = false) (haf : a.fenced = false) (hbf : b.fenced = false)
    (he : e = (c.countWrap pgSTACK 0x140 1).count pgSTACK 0x144 (a.lanes + b.lanes))
    (hf : f = e.putVlink d i { up := a.v, down := b.v, lastCheck := BitVec.ofNat 32 e.timeMs, due := false, ce := [], tests := [] }) :
    c.laneCheck d i up down rails = if (a.spared || b.spared) = true then f.raise pgSTACK 0 else f := by
  have hunit : (if (a.spared || b.spared) = true then f.raise pgSTACK 0 else f).unit (vlinkUnit (tileKey d (portTile i)))
      = c.unit (vlinkUnit (tileKey d (portTile i))) := by
    subst hf he
    split <;> rfl
  unfold Chip.laneCheck
  simp only [hd, hg, ht, ha, hb, hah, hbh, haf, hbf, ← he, ← hf, hunit, hu, Bool.not_true, Bool.or_self, Bool.false_eq_true, if_false,
    List.isEmpty_nil, List.foldl_nil]

theorem DirCheck.fail_again {v : VDir} {f : Nat} (h : v.failed.getLsbD f = true) (half : Bool) :
    DirCheck.fail half { v := v } f = { v := v } := if_pos h

theorem VDir.carries_own {v : VDir} {f : Nat} (hf : f < 72) (h : ∀ x ∈ v.spares, x.toNat ≠ f) : v.carries f = some f := by
  have hany : v.spares.any (fun s => s.toNat == f) = false := by
    rw [List.any_eq_false]
    exact fun x hx => by simpa using h x hx
  unfold VDir.carries
  rw [if_pos hf, hany]
  rfl

theorem DirCheck.fail_half {v w : VDir} {f : Nat} (h : v.failed.getLsbD f = false)
    (hw : w = { v with failed := v.failed ||| BitVec.ofNat 76 (2 ^ f) }) (hh : v.half = true) (half : Bool) :
    DirCheck.fail half { v := v } f = { v := w, lanes := 1, fenced := true } := by
  subst hw
  unfold DirCheck.fail
  simp only [h, hh, Bool.false_eq_true, if_false, if_true, Nat.zero_add]

/-- A lane of a whole link that carries its own bit fails for the first time. -/
theorem DirCheck.fail_whole {v w : VDir} {f : Nat} (hf : f < 72) (h : v.failed.getLsbD f = false)
    (hw : w = { v with failed := v.failed ||| BitVec.ofNat 76 (2 ^ f) }) (hh : v.half = false) (hs : ∀ x ∈ v.spares, x.toNat ≠ f)
    (half : Bool) :
    (∀ k, w.freeSpare = some k → DirCheck.fail half { v := v } f
      = { v := { w with spares := listSet w.spares k (BitVec.ofNat 7 f) }, lanes := 1, spared := true })
    ∧ (w.freeSpare = none → DirCheck.fail half { v := v } f
      = if half then { v := { w with half := true }, lanes := 1, halved := true } else { v := w, lanes := 1, fenced := true }) := by
  subst hw
  unfold DirCheck.fail
  simp only [h, hh, VDir.carries_own hf hs, Nat.not_le.mpr hf, Bool.false_eq_true, if_false, Nat.zero_add]
  exact ⟨fun k hk => by rw [hk], fun hk => by rw [hk]⟩

/-- Settles O36: the check by its gap and its outcome, the failure of a lane by what is left to replace it. -/
theorem laneChecksAndSpares : Obligations.LaneChecksAndSpares := by
  unfold Obligations.LaneChecksAndSpares
  refine ⟨⟨?due, ?check⟩, ?lane⟩
  case due =>
    intro s d i hh he hs
    exact takes_of_run (f := fun c => c.laneDue d.val i.val) rfl hh (Chip.laneDue_on he hs)
  case check =>
    intro s d i up down rails a b hh hd
    exact ⟨fun hg ht hu ha hb hah hbh haf hbf => takes_of_run (f := fun c => c.laneCheck d.val i.val up down rails.toNat) rfl hh
        ⟨_, rfl, _, rfl, Chip.laneCheck_spares hd hg ht hu ha hb hah hbh haf hbf rfl rfl⟩,
      fun hg => takes_of_run (f := fun c => c.laneCheck d.val i.val up down rails.toNat) rfl hh (Chip.laneCheck_busy hg _ _ _)⟩
  case lane =>
    intro half v f hf
    exact ⟨fun h => DirCheck.fail_again h half, fun h w hw => ⟨fun hh => DirCheck.fail_half h hw hh half,
      fun hh hs => DirCheck.fail_whole hf h hw hh hs half⟩⟩

end Sys2Proof.Machine
end

section
/-! The resets, the gate's link, and the answers and rings of host memory. -/

namespace Sys2Proof.Machine

/-! ### Resets (R620–R625, R636, R637, R642–R644) -/

theorem Chip.porAssert_high {c : Chip} (h : c.porLow = false) : c.porAssert = ({ c with porLow := true } : Chip).packageReset 1 :=
  if_neg (by rw [h]; exact Bool.false_ne_true)

theorem Chip.porRelease_boots {c : Chip} (h : c.porLow = true) (hr : c.railsOut = false) (pins : BitVec 2) :
    c.porRelease pins = ({ c with porLow := false } : Chip).boot pins :=
  (if_neg (by rw [h]; exact Bool.false_ne_true)).trans (if_neg (by rw [hr]; exact Bool.false_ne_true))

/-- A brownout still holds the package when POR_N goes high. -/
theorem Chip.porRelease_railsOut {c : Chip} (h : c.porLow = true) (hr : c.railsOut = true) (pins : BitVec 2) :
    c.porRelease pins = { c with porLow := false } :=
  (if_neg (by rw [h]; exact Bool.false_ne_true)).trans (if_pos hr)

theorem Chip.brownout_high {c : Chip} (hp : c.porLow = false) (hr : c.railsOut = false) :
    c.brownout = ({ c.cutProgramming with railsOut := true } : Chip).packageReset 2 :=
  if_neg (by rw [hp, hr]; exact Bool.false_ne_true)

theorem Chip.railRecovery_high {c : Chip} (hp : c.porLow = false) (hr : c.railsOut = true) (pins : BitVec 2) :
    c.railRecovery pins = ({ c with railsOut := false } : Chip).boot pins := by
  unfold Chip.railRecovery
  simp only [hr, hp, Bool.not_true, Bool.false_eq_true, if_false]

/-- The three action bits of RESET_REQ as the register keeps them. -/
theorem bit_resetReq {x m i : Nat} {b : Bool} (h : x &&& 0x70000 = m) (hi : Nat.testBit 0x70000 i = true)
    (hj : Nat.testBit 0x703FF i = true) (hb : m.testBit i = b) : bit (x &&& 0x703FF) i = b := by
  rw [bit_eq_testBit, ← hb, ← h, Nat.testBit_and, Nat.testBit_and, hi, hj]

/-- A write of RESET_REQ that the page lets pass is carried out as class OPERATOR. -/
theorem takes_resetReq {s : State} {i : Instr} {v : Nat} {post : Chip → Prop}
    (hi : exec i s = s.run (fun c => c.regWrite .operator (regAt pgPROFILE 0x130) v)) (h : s.chip.accepts pgPROFILE 0x130 .operator = true)
    (hp : post (s.chip.resetReq (v &&& 0x703FF) 3)) : s.takes i post :=
  takes_of_accepts hi h (by rfl) (by decide) (by decide) (writeReg_profile _ _ _ _ _ (by rfl)) hp

/-- A single action bit, once its audit entry is written, is carried out. -/
theorem Chip.resetReq_one {c b : Chip} {v : Nat} (h : b2n (bit v 16) + b2n (bit v 17) + b2n (bit v 18) = 1)
    (ha : c.audit 11 3 stOK (natLe 4 v) = (b, true)) :
    c.resetReq v 3 = if bit v 16 then b.dieReset (bits v 1 0)
      else if bit v 17 then b.tileReset (tileKey (bits v 1 0) (bits v 9 2)) else (b.packageReset 4).boot c.pins := by
  unfold Chip.resetReq
  simp only [h, ha, Nat.lt_irrefl, Nat.one_ne_zero, Bool.not_true, Bool.false_eq_true, if_false]

theorem Chip.resetReq_two {c : Chip} {v : Nat} (h : 1 < b2n (bit v 16) + b2n (bit v 17) + b2n (bit v 18)) :
    c.resetReq v 3 = c.fault pgPROFILE stBAD_OPERAND 0x3130 3 := if_pos h

theorem Chip.tileReset_touched {c : Chip} {k : Nat} (h : c.touching k ≠ []) :
    c.tileReset k = c.updPage pgPROFILE (fun p => p.wr 0x134 stBUSY_PASTURE) :=
  if_pos (by simpa using h)

/-- Settles O38: each reset is followed to its branch; of RESET_REQ by the bit that its value carries. -/
theorem resetsTakeEffect : Obligations.ResetsTakeEffect := by
  unfold Obligations.ResetsTakeEffect
  refine ⟨⟨fun s => rfl, ?assert, ?release, ?brownout, ?recovery⟩, ?request⟩
  case assert =>
    intro s hp
    rw [← Chip.porAssert_high hp]
    rfl
  case release =>
    intro s pins hp
    exact ⟨fun hr => by rw [← Chip.porRelease_boots hp hr]; rfl, fun hr => by rw [← Chip.porRelease_railsOut hp hr]; rfl⟩
  case brownout =>
    intro s hp hr
    exact takes_of_runAny (f := Chip.brownout) rfl (Chip.brownout_high hp hr)
  case recovery =>
    intro s pins hp hr
    exact takes_of_runAny (f := fun c => c.railRecovery pins) rfl (Chip.railRecovery_high hp hr pins)
  case request =>
    intro s v b h
    refine ⟨fun hb ha => takes_resetReq rfl h ?package, fun hb ha => takes_resetReq rfl h ?die, fun hb ha => takes_resetReq rfl h ?tile,
      fun hb => takes_resetReq rfl h (Chip.resetReq_two ?two)⟩
    case package =>
      have h16 := bit_resetReq (i := 16) (b := false) hb (by decide) (by decide) (by decide)
      have h17 := bit_resetReq (i := 17) (b := false) hb (by decide) (by decide) (by decide)
      have h18 := bit_resetReq (i := 18) (b := true) hb (by decide) (by decide) (by decide)
      rw [Chip.resetReq_one (by rw [h16, h17, h18]; rfl) ha, h16, h17, if_neg Bool.false_ne_true, if_neg Bool.false_ne_true]
    case die =>
      have h16 := bit_resetReq (i := 16) (b := true) hb (by decide) (by decide) (by decide)
      have h17 := bit_resetReq (i := 17) (b := false) hb (by decide) (by decide) (by decide)
      have h18 := bit_resetReq (i := 18) (b := false) hb (by decide) (by decide) (by decide)
      rw [Chip.resetReq_one (by rw [h16, h17, h18]; rfl) ha, h16, if_pos rfl]
    case tile =>
      have h16 := bit_resetReq (i := 16) (b := false) hb (by decide) (by decide) (by decide)
      have h17 := bit_resetReq (i := 17) (b := true) hb (by decide) (by decide) (by decide)
      have h18 := bit_resetReq (i := 18) (b := false) hb (by decide) (by decide) (by decide)
      rw [Chip.resetReq_one (by rw [h16, h17, h18]; rfl) ha, h16, h17, if_neg Bool.false_ne_true, if_pos rfl]
      exact ⟨_, rfl, rfl, Chip.tileReset_touched⟩
    case two =>
      have hv : (v ||| 0x10000).toNat &&& 0x70000 = 0x30000 := by
        rw [BitVec.toNat_or, Nat.and_or_distrib_right, hb]
        rfl
      rw [bit_resetReq (i := 16) (b := true) hv (by decide) (by decide) (by decide),
        bit_resetReq (i := 17) (b := true) hv (by decide) (by decide) (by decide),
        bit_resetReq (i := 18) (b := false) hv (by decide) (by decide) (by decide)]
      decide

/-! ### The gate's link (R649, R676–R679) -/

/-- The package once the gate's link has gone, with its count and its event. -/
def Chip.linkLost (c : Chip) : Chip :=
  (({ c with gate := { c.gate with dlUp := false, l1 := false, l12 := false, width := 0, speed := 0 } } : Chip).count pgGATE 0x140 1).raise pgGATE 0

theorem Chip.homePkg_linkLost (c : Chip) : c.linkLost.homePkg = c.homePkg := by
  unfold Chip.homePkg Chip.linkLost
  rw [Chip.raise_eq, Chip.count_eq, Chip.page_putPage_same, Chip.page_putPage_same]
  exact congrArg (· % 256) (Page.rd_wr_other ((c.page pgGATE)) (off := 0x140) (off' := 0x10C) _ (by decide))

theorem Chip.pkg_linkLost (c : Chip) : c.linkLost.pkg = c.pkg := by
  have hpage : c.linkLost.page pgLINK = c.page pgLINK := by
    unfold Chip.linkLost
    rw [Chip.raise_eq, Chip.count_eq, Chip.page_putPage, if_neg (by decide), Chip.page_putPage, if_neg (by decide)]
    rfl
  unfold Chip.pkg Chip.posOf Chip.dimOf Chip.torusPos Chip.torusDim
  rw [hpage]

theorem Chip.gateLinkDown_away {c : Chip} (hh : c.held = false) (hup : c.gate.dlUp = true) (hp : c.homePkg ≠ c.pkg) :
    c.gateLinkDown = c.linkLost := by
  have hp' : c.linkLost.homePkg ≠ c.linkLost.pkg := by rw [Chip.homePkg_linkLost, Chip.pkg_linkLost]; exact hp
  exact (if_neg (by rw [hh, hup]; exact Bool.false_ne_true)).trans (if_pos hp')

/-- The host contexts that a loss of the link stops. -/
def Chip.activeHosts (c : Chip) : List Nat := (c.ctxs.filter (fun x => x.1 != 4095 && x.2.state == .active)).map (fun x => x.1)

theorem Chip.activeHosts_nil {c : Chip} (h : ∀ q x, (q, x) ∈ c.ctxs → q ≠ 4095 → x.state ≠ .active) : c.activeHosts = [] := by
  refine List.map_eq_nil_iff.mpr (List.filter_eq_nil_iff.mpr fun x hx hb => ?_)
  simp only [Bool.and_eq_true, bne_iff_ne, beq_iff_eq] at hb
  exact h x.1 x.2 hx hb.1 hb.2

/-- The egress rings switched off, what waited there gone. -/
def Chip.ringsShut (c : Chip) (lost : List CtxId) : Chip :=
  { c with gate := { c.gate with lost := (c.gate.lost ++ lost).eraseDups
                                 rings := c.gate.rings.map (fun r => (r.1, { r.2 with en := false, waiting := [] })) } }

/-- `n` egress records discarded for want of the link. -/
def Chip.recordsLost (c : Chip) (n : Nat) : Chip := if n = 0 then c else (c.count pgGATE 0x148 n).raise pgGATE 4

theorem Chip.gate_recordsLost (c : Chip) (n : Nat) : (c.recordsLost n).gate = c.gate := by
  unfold Chip.recordsLost
  split <;> simp

theorem Chip.sb_recordsLost (c : Chip) (n : Nat) : (c.recordsLost n).sb = c.sb := by
  unfold Chip.recordsLost
  split <;> simp

/-- In the home package the rings are shut, the copies end, and the active host contexts stop. -/
theorem Chip.gateLinkDown_home {c b : Chip} (hh : c.held = false) (hup : c.gate.dlUp = true) (hp : c.homePkg = c.pkg)
    (hb : b = (c.linkLost.ringsShut (c.activeHosts.map (Fin.ofNat 4096))).recordsLost
      ((c.gate.rings.map (fun (r : Nat × ERing) => r.2.waiting.length)).sum)) :
    c.gateLinkDown = c.activeHosts.foldl (fun c q => ((c.updCtx q (fun x => { x with state := .stopping })).abortQueued q).maybeStopped q)
      (b.hostCopies.foldl (fun c e => c.copyEnd e stGATE_LOST) b) := by
  subst hb
  have hp' : ¬ c.linkLost.homePkg ≠ c.linkLost.pkg := by rw [Chip.homePkg_linkLost, Chip.pkg_linkLost]; exact not_not_intro hp
  exact (if_neg (by rw [hh, hup]; exact Bool.false_ne_true)).trans (if_neg hp')

/-- With no copy under way and no active host context the loss of the link does no more than that. -/
theorem Chip.gate_linkDown_idle {c : Chip} (hh : c.held = false) (hup : c.gate.dlUp = true) (hp : c.homePkg = c.pkg)
    (hc : c.hostCopies = []) (ha : ∀ q x, (q, x) ∈ c.ctxs → q ≠ 4095 → x.state ≠ .active) :
    c.gateLinkDown.gate = (c.linkLost.ringsShut []).gate := by
  have hcopies (d : Chip) (h : d.sb = c.sb) : d.hostCopies = [] := by
    rw [← hc]
    unfold Chip.hostCopies Chip.live
    rw [h]
  rw [Chip.gateLinkDown_home hh hup hp rfl, Chip.activeHosts_nil ha, List.map_nil, hcopies _ (Chip.sb_recordsLost (c.linkLost.ringsShut []) _)]
  exact Chip.gate_recordsLost _ _

theorem Chip.gateLinkUp_trains {c : Chip} {w v : Nat} (hh : c.held = false) (hd : c.domOn domGATE = true) (hup : c.gate.dlUp = false)
    (hw : w ≠ 3) (hv : v ≤ 4) :
    c.gateLinkUp w v = (({ c with gate := { c.gate with
      dlUp := true, width := 4 * 2 ^ (min w (bits c.gate.limits.toNat 1 0)), speed := min v (bits c.gate.limits.toNat 4 2) } } : Chip).raise pgGATE 1) :=
  if_neg (by simp [hh, hd, hup, hw, hv])

/-! ### Reset of the gate (R678) -/

theorem foldl_keeps {α β γ : Type} {f : β → α → β} {g : β → γ} (h : ∀ b a, g (f b a) = g b) (l : List α) (b : β) :
    g (l.foldl f b) = g b := by
  induction l generalizing b with
  | nil => rfl
  | cons a l ih => rw [List.foldl_cons, ih, h]

theorem Chip.pages_recheckOne (c : Chip) (e : Nat) : (c.recheckOne e).pages = c.pages := by
  unfold Chip.recheckOne
  dsimp only
  split
  · rfl
  · split <;> rfl

theorem Chip.pages_recheck (c : Chip) : c.recheck.pages = c.pages := foldl_keeps Chip.pages_recheckOne _ _

/-- The package with every command of a host context taken away. -/
def Chip.hostsGone (c : Chip) : Chip :=
  let gone := (c.live.map (fun e => e.1)).filter (fun e => c.hostEntry e)
  (gone.foldl (fun c e => ((c.freeChannel e).putEntry e SbEntry.init))
    (c.detach (fun e => (c.entry e.val).state != .free && c.hostEntry e.val))).recheck

theorem Chip.pages_hostsGone (c : Chip) : c.hostsGone.pages = c.pages := by
  unfold Chip.hostsGone
  refine (Chip.pages_recheck _).trans ((foldl_keeps (g := Chip.pages) (fun b e => ?_) _ _).trans rfl)
  rfl

/-- A host context as a reset of the gate leaves it. -/
def hostDisabled (x : Nat × Ctx) : Nat × Ctx := if x.1 = 4095 then x else
  (x.1, { x.2 with state := .disabled, pi := 0, ci := 0, cqPi := 0, cqCi := 0, seqNext := 0, dupLast := 0, vtime := 0
                   counted := 0, cqWaiting := false, wasEligible := false })

/-- The gate as its reset leaves it: a function-level reset keeps the link. -/
def Gate.afterReset (g : Gate) (kind : GateResetKind) : Gate :=
  let up := g.dlUp && kind == .flr
  { Gate.init with dlUp := up, ready := g.ready, limits := g.limits, sent := g.sent
                   width := if up then g.width else 0, speed := if up then g.speed else 0 }

/-- With no resident pasture a reset of the gate takes the host's commands away and puts the gate back. -/
theorem Chip.gateReset_idle {c d : Chip} {kind : GateResetKind} (hh : c.held = false) (hd : c.domOn domGATE = true)
    (hr : c.residents = [])
    (hb : d = { c.hostsGone with
      ctxs := c.hostsGone.ctxs.map hostDisabled, pasts := c.hostsGone.pasts.map (fun x => (x.1, { x.2 with ring := none }))
      gate := c.hostsGone.gate.afterReset kind, reads := c.hostsGone.reads.filter (fun r => r.issuer != pgGATE) }) :
    c.gateReset kind = ((d.putPage pgGATE (Page.init codeGATE)).updPage pgGATE
      (fun p => p.wr 0x10C ((c.hostsGone.page pgGATE).rd 0x10C))).raise pgGATE 6 := by
  subst hb
  unfold Chip.gateReset
  simp only [hh, hd, hr, Bool.not_true, Bool.or_self, Bool.false_eq_true, if_false, List.foldl_nil]
  rfl

/-- Settles O39: the gate's link and its reset, followed to the parts of the package that they leave. -/
theorem theGateLinkComesAndGoes : Obligations.TheGateLinkComesAndGoes := by
  unfold Obligations.TheGateLinkComesAndGoes
  refine ⟨?away, ?home, ?up, ?reset⟩
  case away =>
    intro s hh hup hp
    exact takes_of_run (f := Chip.gateLinkDown) rfl hh (Chip.gateLinkDown_away hh hup hp)
  case home =>
    intro s hh hup hp hc ha
    have hgate := Chip.gate_linkDown_idle hh hup hp hc ha
    exact takes_of_run (f := Chip.gateLinkDown) rfl hh ⟨by rw [hgate]; rfl, by rw [hgate]; rfl⟩
  case up =>
    intro s w v hh hd hup hw hv
    exact takes_of_run (f := fun c => c.gateLinkUp w.toNat v.toNat) rfl hh
      (Chip.gateLinkUp_trains hh hd hup (fun h => hw (BitVec.eq_of_toNat_eq h)) hv)
  case reset =>
    intro s kind hh hd hr
    have hreset := Chip.gateReset_idle (kind := kind) hh hd hr rfl
    have hpage : s.chip.hostsGone.page pgGATE = s.chip.page pgGATE := by
      unfold Chip.page
      rw [Chip.pages_hostsGone]
    refine takes_of_run (f := fun c => c.gateReset kind) rfl hh ⟨rfl, ?_, ?_, ?_, ?_⟩
    · rw [hreset, hpage]
      simp
    · rw [hreset]
      simp [Gate.afterReset, Gate.init]
    · rw [hreset]
      simp [Gate.afterReset]
    · intro q x hx hq
      rw [hreset] at hx
      simp only [Chip.raise_eq, Chip.updPage_eq, Chip.putPage_ctxs] at hx
      obtain ⟨y, -, hy⟩ := List.mem_map.mp hx
      have hne : y.1 ≠ 4095 := fun h => hq (by rw [hostDisabled, if_pos h] at hy; rw [← h, hy])
      rw [hostDisabled, if_neg hne] at hy
      exact (congrArg (fun z => z.2.state) hy).symm

/-! ### Answers of host memory (R432, R679) -/

theorem Chip.dmaAnswer_ok {c d : Chip} {e len n : Nat} (hw : c.waitsHost e = true) (hlen : len = bits ((c.entry e).bytes 48 4) 24 0)
    (hn : n = min (4096 - (c.entry e).done % 4096) (len - (c.entry e).done))
    (ht : c.copyTake e (fields 8 (n / 8) (memReadN c.host ((c.entry e).bytes 32 8 + (c.entry e).done) n)) false = (d, true)) :
    c.dmaAnswer e .ok = d.copyOn e 4097 := by
  subst hlen hn
  unfold Chip.dmaAnswer Chip.dmaCompletion
  simp only [hw, ht, if_true, Bool.not_true, Bool.false_eq_true, if_false]

/-- An error answer of the read that a copy waits for ends the copy. -/
theorem Chip.dmaAnswer_error {c : Chip} {e : Nat} (hw : c.waitsHost e = true) :
    c.dmaAnswer e .poisoned = c.dmaFails e 12 ∧ c.dmaAnswer e .unsupported = c.dmaFails e 20
      ∧ c.dmaAnswer e .completerAbort = c.dmaFails e 15 ∧ c.dmaLate e = c.dmaFails e 14 := by
  unfold Chip.dmaAnswer Chip.dmaLate Chip.dmaCompletion Chip.dmaTimeout
  simp [hw]

/-- An entry of no command reads no host memory. -/
theorem Chip.dmaLate_idle {c : Chip} {e : Nat} (hw : c.waitsHost e = false) (ho : (c.entry e).opcode = 0) : c.dmaLate e = c := by
  have hreader : c.hostReader e = none := by
    unfold Chip.hostReader
    simp only [ho]
  unfold Chip.dmaLate Chip.hostReadFails
  simp only [hw, hreader, Bool.false_eq_true, if_false]

/-! ### Rings of the gate (R660, R662–R666, R840) -/

theorem Chip.msixWrite_open {c : Chip} {v : Nat} {m : Map MsixEntry} {addr : W64} {data : W32} {mask : Bool} (h : c.barOpen = true)
    (hm : m = mapSet msixDefault c.gate.msix v { mapGet msixDefault c.gate.msix v with addr := addr, data := data, masked := mask }) :
    c.msixWrite v addr data mask = ({ c with gate := { c.gate with msix := m } } : Chip).msixFlush v := by
  subst hm
  exact if_neg (by rw [h]; exact Bool.false_ne_true)

theorem Chip.ringNext_room {c : Chip} {i p : Nat} {l : List Byte} {rest : List (Nat × List Byte)} (hw : (c.ering i).waiting = (p, l) :: rest)
    (he : (c.ering i).en = true) (hf : (c.ering i).fill < 2 ^ (c.ering i).logSize.toNat) :
    c.ringNext i = (c.putEring i { c.ering i with waiting := rest }).ringPut i p l := by
  unfold Chip.ringNext
  simp only [hw, he, hf, Bool.not_true, Bool.false_eq_true, if_false, if_true]

theorem Chip.ringNext_full {c : Chip} {i p : Nat} {l : List Byte} {rest : List (Nat × List Byte)} (hw : (c.ering i).waiting = (p, l) :: rest)
    (he : (c.ering i).en = true) (hf : 2 ^ (c.ering i).logSize.toNat ≤ (c.ering i).fill) : c.ringNext i = c := by
  unfold Chip.ringNext
  simp only [hw, he, Nat.not_lt.mpr hf, Bool.not_true, Bool.false_eq_true, if_false]

/-- A write of ERING_CI that the page lets pass reaches the selected ring. -/
theorem takes_eringCi {s : State} {o : Origin} {v : W32} {i : Nat} {d : Chip} (h : s.chip.accepts pgGATE 0x134 o = true)
    (hi : i = (s.chip.page pgGATE).rd 0x120 % 64) (hd : s.chip.eringCi i v = d) : s.takes (.eringCi o v) (fun c => c = d) := by
  subst hi
  refine takes_of_accepts rfl h (by rfl) (by decide) (by decide) ?_ rfl
  rw [writeReg_gate _ _ _ _ _ (by rfl), and_maskOf_word (by rfl), ← hd]
  unfold Chip.writeGate
  simp only [BitVec.ofNat_toNat, BitVec.setWidth_eq]

theorem takes_traceCi {s : State} {o : Origin} {v : W32} {d : Chip} (h : s.chip.accepts pgHEALTH 0x170 o = true)
    (hd : s.chip.traceCi v.toNat = d) : s.takes (.traceCi o v) (fun c => c = d) := by
  refine takes_of_accepts rfl h (by rfl) (by decide) (by decide) ?_ rfl
  rw [writeReg_health _ _ _ _ _ (by rfl), and_maskOf_word (by rfl), ← hd]
  unfold Chip.writeHealth
  simp only

/-- Settles O40: an answer of host memory by the copy that waits for it, a ring by its room and its producer index. -/
theorem dmaAnswersAndGateRings : Obligations.DmaAnswersAndGateRings := by
  unfold Obligations.DmaAnswersAndGateRings
  refine ⟨?answers, ?unmask, ?ring, ?eringCi, ?traceCi⟩
  case answers =>
    intro s e hh
    refine ⟨fun hw => ?waiting, fun hw ho => ?idle⟩
    case waiting =>
      obtain ⟨hpois, hunsup, habort, hlate⟩ := Chip.dmaAnswer_error hw
      exact ⟨fun d len n hlen hn ht => takes_of_run (f := fun c => c.dmaAnswer e.val .ok) rfl hh (Chip.dmaAnswer_ok hw hlen hn ht),
        takes_of_run (f := fun c => c.dmaAnswer e.val .poisoned) rfl hh hpois,
        takes_of_run (f := fun c => c.dmaAnswer e.val .unsupported) rfl hh hunsup,
        takes_of_run (f := fun c => c.dmaAnswer e.val .completerAbort) rfl hh habort,
        takes_of_run (f := fun c => c.dmaLate e.val) rfl hh hlate⟩
    case idle =>
      exact ⟨takes_of_run (f := fun c => c.dmaAnswer e.val .ok) rfl hh (if_neg (by rw [hw]; exact Bool.false_ne_true)),
        takes_of_run (f := fun c => c.dmaLate e.val) rfl hh (Chip.dmaLate_idle hw ho)⟩
  case unmask =>
    intro s v addr data mask hh hb
    exact takes_of_run (f := fun c => if c.barOpen then c.msixWrite v.val addr data mask else c) rfl hh
      ⟨_, rfl, (if_pos hb).trans (Chip.msixWrite_open hb rfl)⟩
  case ring =>
    intro s i p l rest hh hw
    exact ⟨fun he hf => takes_of_run (f := fun c => c.ringNext i.val) rfl hh (Chip.ringNext_room hw he hf),
      fun he hf => takes_of_run (f := fun c => c.ringNext i.val) rfl hh (Chip.ringNext_full hw he hf)⟩
  case eringCi =>
    intro s o v i h hi
    exact ⟨fun hv => takes_eringCi h hi (if_pos hv), fun hv => takes_eringCi h hi (if_neg (Nat.not_le.mpr hv))⟩
  case traceCi =>
    rintro s o v p h rfl
    exact ⟨fun hv => takes_traceCi h (if_pos hv), fun hv => takes_traceCi h (if_neg (Nat.not_le.mpr hv))⟩

end Sys2Proof.Machine
end

section
/-! Register accesses through the ports of the package, and what class, lock and access type let a write do. -/

namespace Sys2Proof.Machine

/-! ### Ports (R49, R652, R797, R810) -/

theorem mod_four_of_barShape {a n : Nat} (h : barShape a n = true) : a % 4 = 0 := by
  simp only [barShape, Bool.or_eq_true, Bool.and_eq_true, decide_eq_true_eq] at h
  omega

theorem length_nats32 (l : List W32) : (nats32 l).length = l.length := List.length_map ..

theorem Chip.portWrite_bar0 {c : Chip} {a : Nat} {vs : List Nat} (hh : c.held = false) (hb : c.barOpen = true)
    (hs : barShape a vs.length = true) (o : Origin) : c.portWrite .bar0 o a vs none = (c.writeRun 2 none a vs).1 := by
  unfold Chip.portWrite
  simp [Chip.portClass, hb, hh, hs, mod_four_of_barShape hs]

theorem Chip.portWrite_bar0_size {c : Chip} {a : Nat} {vs : List Nat} (hh : c.held = false) (hb : c.barOpen = true)
    (hs : barShape a vs.length = false) (o : Origin) : c.portWrite .bar0 o a vs none = c.fault pgGATE stBAD_OPERAND a 2 := by
  unfold Chip.portWrite Chip.gateFault
  simp [Chip.portClass, hb, hh, hs]

theorem Chip.portWrite_tap {c : Chip} {a : Nat} {vs : List Nat} (hh : c.held = false)
    (hl : (c.dbgLock.isOpen && c.dbgLock.scope.getLsbD 0) = true) (ha : a % 4 = 0) (o : Origin) :
    c.portWrite .tap o a vs none = (c.writeRun 4 none a vs).1 := by
  unfold Chip.portWrite Chip.portClass
  simp only [hl, if_true]
  simp [hh, ha]

theorem Chip.portWrite_tap_closed {c : Chip} (hl : (c.dbgLock.isOpen && c.dbgLock.scope.getLsbD 0) = false) (a : Nat) (vs : List Nat)
    (o : Origin) : c.portWrite .tap o a vs none = c := by
  unfold Chip.portWrite Chip.portClass
  simp only [hl, Bool.false_eq_true, if_false]
  rfl

/-- A run of reads that all succeed through a port of class `cls` answers its values. -/
theorem Chip.portRead_run {c d : Chip} {port : AccessPort} {o : Origin} {a n cls : Nat} {vs : List Nat} (hh : c.held = false)
    (hc : c.portClass port o = some cls) (hs : port = .bar0 → barShape a n = true) (ha : a % 4 = 0)
    (hr : c.readRun cls a n = (d, vs, none)) : c.portRead port o a n = d.say (.data vs) := by
  have hsize : (decide (port = .bar0) && !barShape a n) = false := by
    by_cases hp : port = .bar0
    · simp [hs hp]
    · simp [hp]
  unfold Chip.portRead
  simp only [hc, hh, hsize, ha, hr, Bool.false_eq_true, if_false, ne_eq, not_true_eq_false]

/-! ### Class, lock and access type (R797, R890, R891) -/

/-- An open base-die page refuses a class that the register does not permit, and a locked page keeps a register that its lock bars. -/
theorem Chip.regWrite_barred {c : Chip} {n off : Nat} {o : Origin} {r : Reg} (h : c.opens n o = true) (hn : n < 2048) (ho : off < 4096)
    (hlo : 256 ≤ off) (hc : baseCode n ≠ 0) (hi : baseCode n ≠ codeIDENT)
    (hr : (regsOf (baseCode n)).find? (fun x => x.off == off && x.acc != .ro) = some r) (v : Nat) :
    (r.cls.permits (originNum o) = false → c.regWrite o (regAt n off) v = c.refuse n (regAt n off) (originNum o))
    ∧ (r.cls.permits (originNum o) = true → r.acc = .rwl → (c.page n).lock = true → c.regWrite o (regAt n off) v = c) := by
  obtain ⟨-, hopen, -⟩ := Chip.opens_iff.mp h
  have hw : c.regWrite o (regAt n off) v = if !r.cls.permits (originNum o) then c.refuse n (regAt n off) (originNum o)
      else if r.acc = .rwl && (c.page n).lock then c else c.writeReg n off (v &&& r.mask) (originNum o) none := by
    unfold Chip.regWrite Chip.writeAt
    rw [show regPlace (regAt n off) = .base n off from regPlace_base hn ho hc]
    simp only
    unfold Chip.writeBase
    rw [if_neg hi, hopen, wakeControl_of_opens h, if_neg (Nat.not_lt.mpr hlo), hr]
    rfl
  refine ⟨fun hp => ?_, fun hp ha hl => ?_⟩
  · rw [hw, hp]
    rfl
  · rw [hw, hp, ha, hl]
    rfl

/-- Settles O23: the two ports by the class that they give, the base-die pages by the checks of a register write. -/
theorem registerPortsServeTheirClass : Obligations.RegisterPortsServeTheirClass := by
  unfold Obligations.RegisterPortsServeTheirClass
  refine ⟨⟨?write, ?read⟩, ?page⟩
  case write =>
    intro s o addr vals hh h1 h64
    have hrun (port : AccessPort) {post : Chip → Prop} (hp : post (s.chip.portWrite port o addr.toNat (nats32 vals) none)) :
        s.takes (.registerWrite port o addr vals) post :=
      takes_of_run (f := fun c => c.portWrite port o addr.toNat (nats32 vals) none)
        (shaped_wf (i := .registerWrite port o addr vals) (by simp [Instr.wf, valsShape, h1, h64]) _) hh hp
    refine ⟨fun hb => ⟨fun hs => hrun _ (Chip.portWrite_bar0 hh hb (by rw [length_nats32]; exact hs) o),
        fun hs => hrun _ (Chip.portWrite_bar0_size hh hb (by rw [length_nats32]; exact hs) o)⟩,
      fun ha hl => hrun _ (Chip.portWrite_tap hh hl ha o), fun hl => hrun _ (Chip.portWrite_tap_closed hl _ _ o)⟩
  case read =>
    intro s o addr n d vs hh
    have hrun (port : AccessPort) {post : Chip → Prop} (hp : post (s.chip.portRead port o addr.toNat (n.val + 1))) :
        s.takes (.registerRead port o addr n) post :=
      takes_of_run (f := fun c => c.portRead port o addr.toNat (n.val + 1)) rfl hh hp
    exact ⟨fun hb hs hr => hrun _ (Chip.portRead_run hh (if_pos hb) (fun _ => hs) (mod_four_of_barShape hs) hr),
      fun hl ha hr => hrun _ (Chip.portRead_run hh (if_pos hl) (fun h => absurd h (by decide)) ha hr)⟩
  case page =>
    intro c n off v o r hn ho hlo hc hi hr
    refine ⟨fun hacc => ?_, fun h => (Chip.regWrite_barred h hn ho hlo hc hi hr v).1, fun h => (Chip.regWrite_barred h hn ho hlo hc hi hr v).2⟩
    rw [regWrite_of_accepts hacc (regPlace_base hn ho hc) hi hlo, maskOf_of_reg hr]

end Sys2Proof.Machine
end

section
/-! The tests of units that fall due. -/

namespace Sys2Proof.Machine

/-! ### Due tests (R851–R856, R859) -/

theorem Chip.testDue_live {c : Chip} {u : Nat} (hx : unitExists u = true) (hf : (c.unit u).applied ≠ .fenced)
    (ho : (c.unit u).applied ≠ .off) (bad : Nat) : c.testDue u bad =
      if unitKind u = 4 then (c.updUnit u (fun x => { x with due := true })).putVlink (unitDie u) (portIndex (unitTile u))
        { c.vlink (unitDie u) (portIndex (unitTile u)) with due := true }
      else c.testUnitNow u (unitTests u) bad := by
  have hnum : ¬ unitNum (c.unit u).applied ≤ 1 := by
    cases ha : (c.unit u).applied <;> simp_all [unitNum]
  exact if_neg (by simp [hx, hnum])

theorem Chip.testDue_fenced {c : Chip} {u : Nat} (h : (c.unit u).applied = .fenced) (bad : Nat) : c.testDue u bad = c :=
  if_pos (by simp [h, unitNum])

/-- A unit that carries live state is put off, and no pasture between rounds moves away from it. -/
theorem Chip.testUnitNow_deferred {c : Chip} {u : Nat} (hh : c.heldFor u = none) (hl : c.liveUnit u = true)
    (hb : ∀ p ∈ c.unitPastures u, (c.past p).between = false) (ran bad : Nat) :
    c.testUnitNow u ran bad = c.updUnit u (fun x => { x with
      due := true, deferred := true, deferredAt := if x.deferred then x.deferredAt else c.now }) := by
  have hstay (d : Chip) (hd : d.pasts = c.pasts) (l : List Nat) (hm : ∀ p ∈ l, (c.past p).between = false) :
      l.foldl (fun c p => if (c.past p).between && !(c.past p).maintenance then c.testShift p else c) d = d := by
    induction l with
    | nil => rfl
    | cons p l ih =>
      have hp : (d.past p).between = false := by
        unfold Chip.past
        rw [hd]
        exact hm p (by simp)
      rw [List.foldl_cons, hp]
      exact ih (fun q hq => hm q (by simp [hq]))
  unfold Chip.testUnitNow
  simp only [hh, hl, Bool.not_true, Bool.false_eq_true, if_false]
  exact hstay (c.updUnit u _) rfl (c.unitPastures u) hb

theorem Chip.deferLimit_first {c : Chip} {u : Nat} (hd : (c.unit u).deferred = true) (hf : (c.unit u).forced = false) :
    c.deferLimit u = (c.updUnit u (fun y => { y with forced := true })).forceCapture u :=
  if_neg (by rw [hd, hf]; exact Bool.false_ne_true)

theorem Chip.deferLimit_done {c : Chip} {u : Nat} (h : (c.unit u).deferred = false ∨ (c.unit u).forced = true) : c.deferLimit u = c :=
  if_pos (by rcases h with h | h <;> simp [h])

/-- A forced test tries the capture again, and then takes place where the unit is in its maintenance hold. -/
theorem Chip.deferRetry_forced {c : Chip} {u : Nat} (hd : (c.unit u).deferred = true) (hf : (c.unit u).forced = true) (bad : Nat) :
    ((c.forceCapture u).heldFor u = none → c.deferRetry u bad = c.forceCapture u)
    ∧ ∀ p, (c.forceCapture u).heldFor u = some p → c.deferRetry u bad = (c.forceCapture u).testHeld p u (unitTests u) bad := by
  unfold Chip.deferRetry
  simp only [hd, hf, Bool.not_true, Bool.or_self, Bool.false_eq_true, if_false]
  exact ⟨fun h => by rw [h], fun p h => by rw [h]⟩

/-- Settles O51: a due test by the state of its unit, a deferred one by whether its capture was forced. -/
theorem dueTestsRunOrAreDeferred : Obligations.DueTestsRunOrAreDeferred := by
  unfold Obligations.DueTestsRunOrAreDeferred
  refine ⟨?due, ?fenced, ?limit, ?retry⟩
  case due =>
    intro s u fails hh hx hf ho
    have hdue := Chip.testDue_live hx hf ho fails.toNat
    refine ⟨fun hk => takes_of_run (f := fun c => c.testDue u.toNat fails.toNat) rfl hh (hdue.trans (if_pos hk)), fun hk hheld => ⟨fun hl => ?_, fun hl hb => ?_⟩⟩
    · exact takes_of_run (f := fun c => c.testDue u.toNat fails.toNat) rfl hh
        ((hdue.trans (if_neg hk)).trans (Chip.testUnitNow_free hl hheld _ _))
    · exact takes_of_run (f := fun c => c.testDue u.toNat fails.toNat) rfl hh
        ((hdue.trans (if_neg hk)).trans (Chip.testUnitNow_deferred hheld hl hb _ _))
  case fenced =>
    intro s u fails hh hf
    exact takes_of_run (f := fun c => c.testDue u.toNat fails.toNat) rfl hh (Chip.testDue_fenced hf _)
  case limit =>
    intro s u hh
    exact ⟨fun hd hf => takes_of_run (f := fun c => c.deferLimit u.toNat) rfl hh (Chip.deferLimit_first hd hf),
      fun h => takes_of_run (f := fun c => c.deferLimit u.toNat) rfl hh (Chip.deferLimit_done h)⟩
  case retry =>
    rintro s u fails b hh hd hf rfl
    obtain ⟨hnone, hsome⟩ := Chip.deferRetry_forced hd hf fails.toNat
    exact ⟨fun h => takes_of_run (f := fun c => c.deferRetry u.toNat fails.toNat) rfl hh (hnone h),
      fun p h => takes_of_run (f := fun c => c.deferRetry u.toNat fails.toNat) rfl hh (hsome p h)⟩

end Sys2Proof.Machine
end

section
/-! Management frames: those that write, the debug lock and the audit log, refusals and responses. -/

namespace Sys2Proof.Machine

/-! ### Frames that write (R525, R633, R654, R801) -/

theorem Chip.serveType_regWrite (c : Chip) (hold : Bool) (via : Transport) (tag : W16) (b : List Byte) : c.serveType hold via 0x03 tag b =
    c.regWriteFrame (leAt b 0 4) ((upto (leAt b 4 1)).map (fun i => leAt b (8 + 4 * i) 4)) := rfl

theorem Chip.serveType_submit (c : Chip) (hold : Bool) (via : Transport) (tag : W16) (b : List Byte) :
    c.serveType hold via 0x04 tag b = c.submitFrame via tag b := rfl

theorem Chip.serveType_notice (c : Chip) (hold : Bool) (via : Transport) (tag : W16) (b : List Byte) : c.serveType hold via 0x12 tag b =
    .reply (if leAt b 0 1 = 1 then c.powerStorm hold else c.powerCalm) stOK [] := rfl

theorem Chip.serveType_stage (c : Chip) (hold : Bool) (via : Transport) (tag : W16) (b : List Byte) : c.serveType hold via 0x06 tag b =
    .reply { c with crook := { c.crook with staging := memWriteN c.crook.staging (leAt b 0 4) (b.drop 4) } } stOK [] := rfl

theorem Chip.serveType_commit {c : Chip} (h : c.nv.shelter = none) (hold : Bool) (via : Transport) (tag : W16) (b : List Byte) :
    c.serveType hold via 0x07 tag b = .reply (c.profCommit (leAt b 0 1)).1 (c.profCommit (leAt b 0 1)).2 [] := by
  simp only [Chip.serveType, h, Option.isSome_none, Bool.and_false, Bool.false_eq_true, if_false]

theorem Chip.regWriteFrame_here {c : Chip} {a : Nat} (h : (c.frameTarget a).1 = c.pkg) (vs : List Nat) :
    c.regWriteFrame a vs = .reply (c.writeRun 3 none (c.frameTarget a).2 vs).1 stOK [] := if_pos h

/-- Through the machine window: the failure that it shows, or the messages to the other package. -/
theorem Chip.regWriteFrame_away {c : Chip} {a : Nat} (h : (c.frameTarget a).1 ≠ c.pkg) (vs : List Nat) :
    (∀ st, c.windowFails (c.frameTarget a).1 = some st → c.regWriteFrame a vs = .reply (c.showWindow st a) stOK [])
    ∧ (c.windowFails (c.frameTarget a).1 = none →
      c.regWriteFrame a vs = .reply (c.sendAll (regMessages (c.frameTarget a).1 vs.length (c.frameTarget a).2 vs)) stOK []) := by
  unfold Chip.regWriteFrame
  simp only [h, if_false]
  exact ⟨fun st hst => by rw [hst], fun hst => by rw [hst]⟩

theorem Chip.program_data (c : Chip) (pg : Nat) : (c.program pg).nv.data = c.nv.data := by
  unfold Chip.program
  dsimp only
  split <;> rfl

theorem Chip.auditPut_data (c : Chip) (event cls st : Nat) (l : List Byte) : (c.auditPut event cls st l).nv.data = c.nv.data := rfl

theorem Chip.showProfiles_nv (c : Chip) : c.showProfiles.nv = c.nv := by
  unfold Chip.showProfiles
  refine foldl_keeps (g := Chip.nv) (fun b n => ?_) _ _
  rfl

/-- A profile commit by the layout of the staging page and the room of the audit log. -/
theorem Chip.profCommit_bad {c : Chip} {n : Nat} (h : profOk n (memReadN c.crook.staging 0 4096) = false) :
    c.profCommit n = (c, stBAD_OPERAND) := by
  unfold Chip.profCommit
  simp only [h, Bool.not_false, if_true]

theorem Chip.profCommit_noRoom {c : Chip} {n : Nat} (h : profOk n (memReadN c.crook.staging 0 4096) = true) (hr : c.auditRoom = false) :
    c.profCommit n = (c.raise pgAUTH 3, stNO_PLACE) := by
  unfold Chip.profCommit Chip.audit
  simp only [h, hr, Bool.not_true, Bool.not_false, Bool.false_eq_true, if_false, if_true]

theorem Chip.profCommit_writes {c : Chip} {n : Nat} (h : profOk n (memReadN c.crook.staging 0 4096) = true) (hr : c.auditRoom = true) :
    ∃ t : Chip, c.profCommit n = (t, stOK)
      ∧ t.nv.data = memWriteN c.nv.data (4096 * profPage n (c.profTarget n).1) (memReadN c.crook.staging 0 4096)
      ∧ (t.nvMeta (profPage n (c.profTarget n).1)).gen = BitVec.ofNat 32 (c.profTarget n).2 := by
  unfold Chip.profCommit
  simp only [h, c.audit_of_room _ _ _ _ hr, Bool.not_true, Bool.false_eq_true, if_false]
  refine ⟨_, rfl, ?_, ?_⟩
  · simp only [Chip.showProfiles_nv, Chip.countWrap_eq, Chip.putPage_nv, Chip.putMeta, Chip.program_data, Chip.auditPut_data]
  · simp only [Chip.nvMeta, Chip.showProfiles_nv, Chip.countWrap_eq, Chip.putPage_nv, Chip.putMeta, mapGet_mapSet_same]

/-- Settles O54: each frame by what serving its type does. -/
theorem writingFramesTakeEffect : Obligations.WritingFramesTakeEffect := by
  unfold Obligations.WritingFramesTakeEffect
  refine ⟨?write, ?submit, ?notice, ?stage, ?commit⟩
  case write =>
    rintro s f d a vs rfl h rfl rfl
    have hreply {t : Chip} (ht : (s.frameAt 0x03 f).regWriteFrame (leAt f.payload 0 4)
        ((upto (leAt f.payload 4 1)).map (fun i => leAt f.payload (8 + 4 * i) 4)) = .reply t stOK []) : s.answers (.regWrite f) 0x03 f t stOK [] :=
      answers_of_serve rfl h (by decide) ((Chip.serveType_regWrite _ _ _ _ _).trans ht)
    refine ⟨fun hp => hreply (Chip.regWriteFrame_here hp _), fun hp => ?_⟩
    obtain ⟨hfails, hsends⟩ := Chip.regWriteFrame_away hp ((upto (leAt f.payload 4 1)).map (fun i => leAt f.payload (8 + 4 * i) 4))
    exact ⟨fun st hst => hreply (hfails st hst), fun hst => hreply (hsends hst)⟩
  case submit =>
    rintro s f d b rfl h rfl
    refine ⟨fun hroom => ?_, fun hfull => ?_⟩
    · exact takes_of_later rfl h (by decide) ((Chip.serveType_submit _ _ _ _ _).trans (if_neg (Nat.not_le.mpr hroom)))
    · exact answers_of_serve rfl h (by decide) ((Chip.serveType_submit _ _ _ _ _).trans (if_pos hfull))
  case notice =>
    rintro s f d rfl h
    refine ⟨fun hk => ?_, fun hk => ?_⟩
    · exact answers_of_serve rfl h (by decide) ((Chip.serveType_notice _ _ _ _ _).trans (by rw [if_pos hk]))
    · exact answers_of_serve rfl h (by decide) ((Chip.serveType_notice _ _ _ _ _).trans (by rw [if_neg (by rw [hk]; decide)]))
  case stage =>
    rintro s f d rfl h
    exact answers_of_serve rfl h (by decide) (Chip.serveType_stage _ _ _ _ _)
  case commit =>
    rintro s f d n b rfl h hsh rfl rfl
    have hreply {t : Chip} {st : Nat} (ht : (s.frameAt 0x07 f).profCommit (leAt f.payload 0 1) = (t, st)) :
        s.answers (.profileCommit f) 0x07 f t st [] :=
      answers_of_serve rfl h (by decide) (by rw [Chip.serveType_commit hsh, ht])
    refine ⟨fun hbad => hreply (Chip.profCommit_bad hbad), fun hok hr => hreply (Chip.profCommit_noRoom hok hr), fun hok hr => ?_⟩
    obtain ⟨t, ht, hdata, hgen⟩ := Chip.profCommit_writes hok hr
    exact ⟨t, hreply ht, hdata, hgen⟩

/-! ### The debug lock and the audit log (R811–R817) -/

theorem Chip.serveType_unlock {c : Chip} (h : c.nv.shelter = none) (hold : Bool) (via : Transport) (tag : W16) (b : List Byte) :
    c.serveType hold via 0x0D tag b = .reply (c.debugUnlock b).1 (c.debugUnlock b).2.1 (c.debugUnlock b).2.2 := by
  simp only [Chip.serveType, h, Option.isSome_none, Bool.and_false, Bool.false_eq_true, if_false]

theorem Chip.serveType_close {c : Chip} (h : c.nv.shelter = none) (hr : c.dbgLock.isOpen = false ∨ c.auditRoom = true) (hold : Bool)
    (via : Transport) (tag : W16) (b : List Byte) : c.serveType hold via 0x0E tag b = .reply (c.debugClose 2 3) stOK [] := by
  have hroom : (c.dbgLock.isOpen && !c.auditRoom) = false := by rcases hr with hr | hr <;> simp [hr]
  simp only [Chip.serveType, h, hroom, Option.isSome_none, Bool.and_false, Bool.false_eq_true, if_false]

theorem Chip.serveType_ack {c : Chip} (h : c.nv.shelter = none) (hold : Bool) (via : Transport) (tag : W16) (b : List Byte) :
    c.serveType hold via 0x10 tag b = .reply (c.auditAck (leAt b 0 4)).1 (c.auditAck (leAt b 0 4)).2 [] := by
  simp only [Chip.serveType, h, Option.isSome_none, Bool.and_false, Bool.false_eq_true, if_false]

theorem Chip.audit_dbgLock (c : Chip) (event cls st : Nat) (l : List Byte) : (c.audit event cls st l).1.dbgLock = c.dbgLock := by
  unfold Chip.audit
  split <;> rfl

theorem Chip.audit_free (c : Chip) (event cls st : Nat) (l : List Byte) : (c.audit event cls st l).1.free = c.free := by
  unfold Chip.audit
  split <;> rfl

theorem Chip.dbgLock_drawChallenge (c : Chip) : c.drawChallenge.dbgLock = { c.dbgLock with challenge := Config.freeChallenge c.free } := rfl

/-- A token that does not hold leaves the lock as it is, but for a new CHALLENGE. -/
theorem Chip.debugUnlock_bad {c : Chip} {b : List Byte} (h : c.tokenOk b = false) : ∃ t : Chip, c.debugUnlock b = (t, stNO_AUTHORITY, [])
    ∧ t.dbgLock = { c.dbgLock with challenge := Config.freeChallenge c.free } := by
  unfold Chip.debugUnlock
  simp only [h, Bool.not_false, if_true, show stNO_AUTHORITY ≠ stOK by decide, if_false]
  refine ⟨_, rfl, ?_⟩
  simp only [Chip.raise_eq, Chip.count_eq, Chip.putPage_dbgLock, Chip.dbgLock_drawChallenge, Chip.audit_dbgLock, Chip.audit_free]

/-- A good token, where nothing resident stands in its way, opens the lock for its scope and its seconds. -/
theorem Chip.debugUnlock_opens {c : Chip} {b : List Byte} (h : c.tokenOk b = true) (hr : c.auditRoom = true)
    (hq : bit (leAt b 6 2) 2 = true ∨ (c.residents = [] ∧ c.placing = false)) :
    ∃ t : Chip, c.debugUnlock b = (t, stOK, natLe 4 (leAt b 24 4)) ∧ t.dbgLock = { c.dbgLock with
      isOpen := true, ever := true, scope := BitVec.ofNat 3 (leAt b 6 2), endsAt := c.now + 1000000 * leAt b 24 4
      challenge := Config.freeChallenge c.free } := by
  have hquiet : (!bit (leAt b 6 2) 2 && (!c.residents.isEmpty || c.placing)) = false := by
    rcases hq with hq | ⟨hp, hq⟩
    · simp [hq]
    · simp [hp, hq]
  unfold Chip.debugUnlock
  simp only [h, hr, hquiet, c.audit_of_room _ _ _ _ hr, Bool.not_true, Bool.false_eq_true, if_false, if_true]
  exact ⟨_, rfl, rfl⟩

theorem Chip.dbgLock_debugClose (c : Chip) (cause cls : Nat) : (c.debugClose cause cls).dbgLock = { c.dbgLock with isOpen := false } := by
  unfold Chip.debugClose
  cases h : c.dbgLock.isOpen with
  | true =>
    simp only [Bool.not_true, Bool.false_eq_true, if_false, Chip.audit_dbgLock]
    rfl
  | false =>
    simp only [Bool.not_false, if_true]
    rw [← h]

theorem Chip.writeAuth_close (c : Chip) (cls : Nat) : c.writeAuth 0x124 1 cls = c.debugClose 3 cls := rfl

/-- An acknowledgement by where it stands in the log. -/
theorem Chip.auditAck_old {c : Chip} {seq : Nat} (h : seq ≤ c.crook.auditAck.toNat) : c.auditAck seq = (c, stOK) := if_pos h

theorem Chip.auditAck_outside {c : Chip} {seq : Nat} (h : c.crook.auditAck.toNat < seq)
    (ho : seq < c.auditOldest ∨ c.crook.auditHead.toNat ≤ seq) : c.auditAck seq = (c, stBAD_OPERAND) :=
  (if_neg (Nat.not_le.mpr h)).trans (if_pos (by simpa using ho))

theorem Chip.auditAck_moves {c : Chip} {seq : Nat} (h : c.crook.auditAck.toNat < seq) (ho : c.auditOldest ≤ seq)
    (hn : seq < c.crook.auditHead.toNat) : c.auditAck seq =
      ((({ c with crook := { c.crook with auditAck := BitVec.ofNat 32 seq } } : Chip).audit 13 3 stOK (natLe 4 seq)).1, stOK) :=
  (if_neg (Nat.not_le.mpr h)).trans (if_neg (by simp [ho, hn]))

/-- Settles O56: the lock by what opens and closes it, the log by where the acknowledgement stands in it. -/
theorem debugAndAuditFramesTakeEffect : Obligations.DebugAndAuditFramesTakeEffect := by
  unfold Obligations.DebugAndAuditFramesTakeEffect
  refine ⟨?unlock, ?close, ?ctrl, ?expiry, Chip.dbgLock_debugClose, ?ack⟩
  case unlock =>
    rintro s f d rfl h hsh
    have hreply {t : Chip} {st : Nat} {l : List Byte} (ht : (s.frameAt 0x0D f).debugUnlock f.payload = (t, st, l)) :
        s.answers (.debugUnlock f) 0x0D f t st l :=
      answers_of_serve rfl h (by decide) (by rw [Chip.serveType_unlock hsh, ht])
    refine ⟨fun hbad => ?_, fun hok hr hq => ?_⟩
    · obtain ⟨t, ht, hlock⟩ := Chip.debugUnlock_bad hbad
      exact ⟨t, hreply ht, by rw [hlock], by rw [hlock]⟩
    · obtain ⟨t, ht, hlock⟩ := Chip.debugUnlock_opens hok hr hq
      exact ⟨t, hreply ht, by rw [hlock], by rw [hlock], by rw [hlock], by rw [hlock], by rw [hlock]⟩
  case close =>
    rintro s f d rfl h hsh hr
    exact answers_of_serve rfl h (by decide) (Chip.serveType_close hsh hr _ _ _ _)
  case ctrl =>
    intro s o h
    refine takes_of_accepts rfl h (by rfl) (by decide) (by decide) ?_ rfl
    rw [writeReg_auth _ _ _ _ _ (by rfl)]
    exact Chip.writeAuth_close _ _
  case expiry =>
    intro s hh
    refine ⟨fun ho he => takes_of_run (f := Chip.debugExpiry) rfl hh (if_pos (by simp [ho, he])), fun he => ?_⟩
    exact takes_of_run (f := Chip.debugExpiry) rfl hh (if_neg (by simp [he]))
  case ack =>
    rintro s f d seq rfl h hsh rfl
    have hreply {t : Chip} {st : Nat} (ht : (s.frameAt 0x10 f).auditAck (leAt f.payload 0 4) = (t, st)) : s.answers (.auditAck f) 0x10 f t st [] :=
      answers_of_serve rfl h (by decide) (by rw [Chip.serveType_ack hsh, ht])
    exact ⟨fun hs => hreply (Chip.auditAck_old hs), fun hs ho => hreply (Chip.auditAck_outside hs ho),
      fun hs ho hn => hreply (Chip.auditAck_moves hs ho hn)⟩

/-! ### Refusals and responses (R798–R801, R829) -/

/-- The turn of the Crook that refuses the frame standing first. -/
theorem Chip.crookTurn_refuses {s : State} {type : Nat} {f : Frame} (hold : Bool) (h : s.firstFrame type f = true) (ht : type ≤ 0x13) :
    (framePayloadOk type f.payload = false →
      (s.framed type f).crookTurn hold = some ((s.frameAt type f).frameReply f.via type f.tag stBAD_OPERAND []))
    ∧ (framePayloadOk type f.payload = true → (s.framed type f).frameAllowed type (viaClass f.via) f.payload = false →
      (s.framed type f).crookTurn hold = some ((s.frameAt type f).frameReply f.via type f.tag stNO_AUTHORITY [])) := by
  obtain ⟨-, hjob, hmbox, g, l, hframes, htype, htag, hpay, hhead, hsize⟩ := frame_first h
  have hroom : (decide (f.via = .mailbox) && decide (8 ≤ (s.framed type f).crook.mbox.length)) = false := by
    by_cases hv : f.via = .mailbox
    · simp [hmbox hv]
    · simp [hv]
  have hlen : (decide (f.via = .smbus) && decide (g.length ≠ 8 + f.payload.length)) = false := by
    by_cases hv : f.via = .smbus
    · simp [hsize hv]
    · simp [hv]
  unfold Chip.crookTurn
  simp only [hjob, hframes, hroom, htype, htag, hpay, hhead, hlen, Nat.not_lt.mpr ht, Bool.not_true, Bool.or_self, Bool.false_or,
    Bool.false_eq_true, if_false]
  exact ⟨fun hp => by rw [hp]; rfl, fun hp ha => by rw [hp, ha]; rfl⟩

theorem answers_of_turn {s : State} {i : Instr} {type : Nat} {f : Frame} {d : Chip} {st : Nat} {l : List Byte}
    (hi : exec i s = s.runFrame (fun c => c.frameArrives type f)) (h : s.firstFrame type f = true)
    (ht : (s.framed type f).crookTurn s.sled.stormHold = some (d.frameReply f.via type f.tag st l)) : s.answers i type f d st l :=
  ⟨_, hi.trans (congrArg (fun x => Host.Outcome.next (s.settled x)) (serve_of_turn (frame_first h).1 ht)), rfl⟩

theorem Chip.responseRead_running {c : Chip} (h : c.held = false) :
    (∀ f l, c.crook.smbus = f :: l → c.responseRead = ({ c with crook := { c.crook with smbus := l } } : Chip).say (.frame f))
    ∧ (c.crook.smbus = [] → c.responseRead = c.say (.frame [0, 1, 0, 0, 0, 0, 0, 0])) := by
  unfold Chip.responseRead
  simp only [h, Bool.false_eq_true, if_false]
  exact ⟨fun f l hs => by rw [hs], fun hs => by rw [hs]; rfl⟩

/-- Settles O57: the refusals by the turn that meets the frame, the responses by the queue of their transport. -/
theorem framesAreRefusedAndResponsesRead : Obligations.FramesAreRefusedAndResponsesRead := by
  unfold Obligations.FramesAreRefusedAndResponsesRead
  refine ⟨?refused, ?running, ?held, ?take⟩
  case refused =>
    intro s f type i hi h
    have hexec : exec i s = s.runFrame (fun c => c.frameArrives type f) ∧ type ≤ 0x13 := by
      simp only [List.mem_cons, Prod.mk.injEq, List.not_mem_nil, or_false] at hi
      rcases hi with ⟨rfl, rfl⟩ | ⟨rfl, rfl⟩ | ⟨rfl, rfl⟩ | ⟨rfl, rfl⟩ | ⟨rfl, rfl⟩ | ⟨rfl, rfl⟩ | ⟨rfl, rfl⟩ | ⟨rfl, rfl⟩ | ⟨rfl, rfl⟩
        | ⟨rfl, rfl⟩ | ⟨rfl, rfl⟩ | ⟨rfl, rfl⟩ | ⟨rfl, rfl⟩ | ⟨rfl, rfl⟩ | ⟨rfl, rfl⟩ | ⟨rfl, rfl⟩ | ⟨rfl, rfl⟩ | ⟨rfl, rfl⟩ <;>
        exact ⟨rfl, by decide⟩
    obtain ⟨hbad, hbarred⟩ := Chip.crookTurn_refuses s.sled.stormHold h hexec.2
    exact ⟨fun hp => answers_of_turn hexec.1 h (hbad hp), fun hp ha => answers_of_turn hexec.1 h (hbarred hp ha)⟩
  case running =>
    intro s hh
    obtain ⟨hsome, hnone⟩ := Chip.responseRead_running hh
    exact ⟨fun f l hs => takes_of_runAny (f := Chip.responseRead) rfl (hsome f l hs),
      fun hs => takes_of_runAny (f := Chip.responseRead) rfl (hnone hs)⟩
  case held =>
    intro s hh
    exact takes_of_runAny (f := Chip.responseRead) rfl (if_pos hh)
  case take =>
    intro s o h
    refine takes_of_accepts rfl h (by rfl) (by decide) (by decide) ?_ rfl
    rw [writeReg_crook _ _ _ _ _ (by rfl)]
    rfl

end Sys2Proof.Machine
end

section
/-! The sensor ports: packets, frames, the encoder of a pixel, synchronisation and the event ports. -/

namespace Sys2Proof.Machine

/-! ### Packets (R683–R693, R709) -/

/-- The package once a corrected header error of receiver `k` is counted. -/
def Chip.headerCounted (c : Chip) (k : Nat) (ce : Bool) : Chip := if ce = true then c.count (pgCSI + k) 0x110 1 else c

theorem Chip.streams_headerCounted (c : Chip) (k : Nat) (ce : Bool) : (c.headerCounted k ce).streams = c.streams := by
  cases ce <;> rfl

theorem Chip.stream_headerCounted (c : Chip) (k : Nat) (ce : Bool) (j : Nat) : (c.headerCounted k ce).stream j = c.stream j := by
  unfold Chip.stream
  rw [Chip.streams_headerCounted]

theorem Chip.ctxOn_headerCounted (c : Chip) (k : Nat) (ce : Bool) (p vc : Nat) : (c.headerCounted k ce).ctxOn p vc = c.ctxOn p vc := by
  unfold Chip.ctxOn
  rw [Chip.streams_headerCounted]

theorem Chip.csiHeader_taken {c : Chip} {k vc : Nat} (h : vc < 4) (ce : Bool) : c.csiHeader k vc ce = (c.headerCounted k ce, true) :=
  if_neg (Nat.not_le.mpr h)

theorem Chip.csiHeader_extended {c : Chip} {k vc : Nat} (h : 4 ≤ vc) (ce : Bool) :
    c.csiHeader k vc ce = ((c.headerCounted k ce).csiCount k 0x11C (some 3), false) := if_pos h

/-- An event packet on a virtual channel that stream context `j` is bound to, by what the context and the packet are. -/
theorem Chip.eventPacket_bound {c : Chip} {k vc dt j : Nat} (hlive : c.csiLive k = true) (hv : vc < 4) (hj : c.ctxOn k vc = some j)
    (hlo : 0x30 ≤ dt) (hhi : dt ≤ 0x32) (l : List Byte) (crcOk ce : Bool) : c.eventPacket k vc dt l crcOk ce =
      if (c.stream j).info.encoder then (c.headerCounted k ce).csiCount k 0x128 none
      else if !crcOk then (c.headerCounted k ce).csiCount k 0x118 (some 1)
      else if l.length < 4 || 8192 < l.length || l.length % (if dt = 0x31 then 8 else 4) ≠ 0 || (c.stream j).info.adrMode != (dt == 0x32) then
        (c.headerCounted k ce).malformed j
      else ((c.headerCounted k ce).takeWords j dt l (l.length / (if dt = 0x31 then 8 else 4))).eventCame j := by
  unfold Chip.eventPacket
  simp only [hlive, hlo, hhi, Chip.csiHeader_taken hv, Chip.ctxOn_headerCounted, hj, Chip.stream_headerCounted, decide_true,
    Bool.and_self, Bool.not_true, Bool.false_eq_true, if_false]

theorem Chip.otherPacket_live {c : Chip} {k vc dt : Nat} (hlive : c.csiLive k = true) (hv : vc < 4) (ce : Bool) :
    (0x33 ≤ dt → dt ≤ 0x37 → c.otherPacket k vc dt ce = (c.headerCounted k ce).csiCount k 0x120 (some 4))
    ∧ (0x38 ≤ dt → c.otherPacket k vc dt ce = (c.headerCounted k ce).csiCount k 0x124 none) := by
  unfold Chip.otherPacket
  simp only [hlive, Chip.csiHeader_taken hv, Bool.not_true, Bool.false_eq_true, if_false]
  refine ⟨fun hlo hhi => if_pos (by simp [hlo, hhi]), fun hlo => (if_neg ?_).trans (if_neg ?_)⟩
  · simp only [Bool.and_eq_true, decide_eq_true_eq]
    omega
  · simp only [Bool.or_eq_true, Bool.and_eq_true, decide_eq_true_eq]
    omega

theorem Chip.otherPacket_extended {c : Chip} {k vc : Nat} (hlive : c.csiLive k = true) (hv : 4 ≤ vc) (dt : Nat) (ce : Bool) :
    c.otherPacket k vc dt ce = (c.headerCounted k ce).csiCount k 0x11C (some 3) := by
  unfold Chip.otherPacket
  simp only [hlive, Chip.csiHeader_extended hv, Bool.not_true, Bool.not_false, Bool.false_eq_true, if_false, if_true]

/-! ### Frames (R695–R700) -/

section
/-! A packet without a header error, on a virtual channel that an encoder's context is bound to. -/
variable {c : Chip} {k vc j : Nat} (hlive : c.csiLive k = true) (hv : vc < 4) (hj : c.ctxOn k vc = some j)
  (he : (c.stream j).info.encoder = true)
include hlive hv hj

theorem Chip.frameEnd_bound : c.frameEnd k vc false = c.updStream j (fun s => { s with
    inFrame := false, skipFrame := false, refValid := s.refValid || (s.info.encoder && s.inFrame && s.frameOk && !s.skipFrame) }) := by
  unfold Chip.frameEnd
  simp only [hlive, Chip.csiHeader_taken hv, Chip.ctxOn_headerCounted, hj, Bool.not_true, Bool.false_eq_true, if_false]
  rfl

include he

theorem Chip.frameStart_encoder (hf : (c.stream j).inFrame = false) : c.frameStart k vc false = c.updStream j (fun s => { s with
    inFrame := true, line := 0, frameOk := true, skipFrame := s.stopped, frame := s.frame + 1 }) := by
  unfold Chip.frameStart
  simp only [hlive, Chip.csiHeader_taken hv, Chip.ctxOn_headerCounted, hj, Chip.stream_headerCounted, hf, Bool.false_and, Bool.not_true,
    Bool.false_eq_true, if_false]
  unfold Chip.updStream
  simp only [Chip.stream_headerCounted, he, if_true]
  rfl

/-- A line of an encoder's frame under way, of the frame's width. -/
theorem Chip.rawLine_encoder {dt : Nat} {l : List Byte} (hf : (c.stream j).inFrame = true) (hs : (c.stream j).skipFrame = false)
    (hw : dt = 0x2A ∧ l.length = (c.stream j).info.width ∨ dt = 0x2B ∧ 4 * l.length = 5 * (c.stream j).info.width) :
    ((c.stream j).line < (c.stream j).info.height → c.rawLine k vc dt l true false =
      ((c.encodeLine j (pixelsOf (dt == 0x2B) l)).updStream j (fun s => { s with line := s.line + 1 })).eventCame j)
    ∧ c.rawLine k vc dt l false false =
      ((c.count (pgCSI + k) 0x118 1).raise (pgCSI + k) 1).updStream j (fun s => { s with frameOk := false, line := s.line + 1 }) := by
  have hdt : (decide (dt ≠ 0x2A) && decide (dt ≠ 0x2B)) = false := by
    rcases hw with ⟨rfl, -⟩ | ⟨rfl, -⟩ <;> rfl
  have hright : (if (dt == 0x2B) = true then 4 * l.length = 5 * (c.stream j).info.width else l.length = (c.stream j).info.width) := by
    rcases hw with ⟨rfl, hw⟩ | ⟨rfl, hw⟩ <;> simpa using hw
  unfold Chip.rawLine
  simp only [hlive, Chip.csiHeader_taken hv, Chip.ctxOn_headerCounted, hj, Chip.stream_headerCounted, he, hf, hs]
  simp only [hdt, Bool.not_true, Bool.not_false, Bool.or_self, Bool.false_eq_true, if_false, if_true]
  refine ⟨fun hlt => ?_, rfl⟩
  rw [if_neg (by rw [decide_eq_true hright, decide_eq_false (Nat.not_le.mpr hlt)]; exact Bool.false_ne_true)]
  rfl

end

/-- Settles O41: a packet by its data type and what its context is, a frame by the line that it stands at. -/
theorem sensorPacketsAndFrames : Obligations.SensorPacketsAndFrames := by
  unfold Obligations.SensorPacketsAndFrames
  refine ⟨?packets, ?frames⟩
  case packets =>
    rintro s k vc dt l ce b j hh hlive rfl
    refine ⟨fun hv hj hlo hhi => ⟨fun he h4 h8192 hmod hadr => ?_, fun he => ?_, fun he => ?_⟩, fun hv hlo hhi => ?_, fun hv hlo => ?_, fun hv => ?_⟩
    · refine takes_of_run (f := fun c => c.eventPacket k.val vc.toNat dt.toNat l true ce) rfl hh ?_
      rw [Chip.eventPacket_bound hlive hv hj hlo hhi, he]
      simp only [Nat.not_lt.mpr h4, Nat.not_lt.mpr h8192, hmod, hadr, ne_eq, not_true_eq_false, decide_false, bne_self_eq_false,
        Bool.or_self, Bool.not_true, Bool.false_eq_true, if_false]
      rfl
    · refine takes_of_run (f := fun c => c.eventPacket k.val vc.toNat dt.toNat l false ce) rfl hh ?_
      rw [Chip.eventPacket_bound hlive hv hj hlo hhi, he]
      rfl
    · refine takes_of_run (f := fun c => c.eventPacket k.val vc.toNat dt.toNat l true ce) rfl hh ?_
      rw [Chip.eventPacket_bound hlive hv hj hlo hhi, he]
      rfl
    · exact takes_of_run (f := fun c => c.otherPacket k.val vc.toNat dt.toNat ce) rfl hh ((Chip.otherPacket_live hlive hv ce).1 hlo hhi)
    · exact takes_of_run (f := fun c => c.otherPacket k.val vc.toNat dt.toNat ce) rfl hh ((Chip.otherPacket_live hlive hv ce).2 hlo)
    · exact takes_of_run (f := fun c => c.otherPacket k.val vc.toNat dt.toNat ce) rfl hh (Chip.otherPacket_extended hlive hv _ ce)
  case frames =>
    rintro s k vc j x hh hlive hv hj rfl he
    refine ⟨fun hf => ?_, fun dt l hw hf hs => ⟨fun hlt => ?_, ?_⟩, ?_⟩
    · exact takes_of_run (f := fun c => c.frameStart k.val vc.toNat false) rfl hh (Chip.frameStart_encoder hlive hv hj he hf)
    · exact takes_of_run (f := fun c => c.rawLine k.val vc.toNat dt.toNat l true false) rfl hh ((Chip.rawLine_encoder hlive hv hj he hf hs hw).1 hlt)
    · exact takes_of_run (f := fun c => c.rawLine k.val vc.toNat dt.toNat l false false) rfl hh (Chip.rawLine_encoder hlive hv hj he hf hs hw).2
    · exact takes_of_run (f := fun c => c.frameEnd k.val vc.toNat false) rfl hh (Chip.frameEnd_bound hlive hv hj)

/-! ### The encoder of a pixel (R697, R698) -/

theorem encodePixel_ref {r : StreamRec} {p : Pixel} {a : Nat} (h : p.ref = some a) : encodePixel r p =
    if (r.thrOn : Int) ≤ (p.l : Int) - a then (p.l, some (0, (p.l : Int) - a))
    else if (r.thrOff : Int) ≤ -((p.l : Int) - a) then (p.l, some (1, (p.l : Int) - a)) else (a, none) := by
  unfold encodePixel
  rw [h]

/-- The log code of a 10-bit pixel: at most 10 in its exponent and below 256 in its mantissa. -/
theorem logCode_lt {p : Nat} (h : p < 1024) (r : Nat) : logCode p r < 256 := by
  have hexp : Nat.log2 (p + 1) < 11 := (Nat.log2_lt (by omega)).mpr (by omega)
  have hman : (p + 1) * 256 / 2 ^ Nat.log2 (p + 1) < 512 := by
    refine Nat.div_lt_of_lt_mul ?_
    have hpow : p + 1 < 2 ^ (Nat.log2 (p + 1) + 1) := Nat.lt_log2_self
    rw [Nat.pow_succ] at hpow
    omega
  unfold logCode
  dsimp only
  omega

/-! ### Synchronisation and the event ports (R683, R700, R701, R709) -/

theorem Chip.syncLost_live {c : Chip} {k : Nat} (h : c.csiLive k = true) :
    c.syncLost k .hsSync = (c.updPage (pgCSI + k) (fun p => p.setFld 0x104 0 0 0)).csiCount k 0x130 (some 5)
    ∧ c.syncLost k .header = (c.updPage (pgCSI + k) (fun p => p.setFld 0x104 0 0 0)).csiCount k 0x114 (some 0) := by
  unfold Chip.syncLost
  simp only [h, Bool.not_true, Bool.false_eq_true, if_false, and_self]

theorem Chip.hsSync_taken {c : Chip} {k rate : Nat} {deskew : Bool} (hd : c.domOn (domCSI k) = true) (hlo : 8 ≤ rate) (hhi : rate ≤ 250)
    (hs : rate ≤ 150 ∨ deskew = true) : c.hsSync k rate deskew = c.updPage (pgCSI + k) (fun p => p.wr 0x104 (1 + b2n deskew * 4 + rate * 2 ^ 8)) := by
  have hslow : (decide (150 < rate) && !deskew) = false := by
    rcases hs with hs | hs
    · rw [decide_eq_false (Nat.not_lt.mpr hs), Bool.false_and]
    · rw [hs, Bool.not_true, Bool.and_false]
  refine if_neg ?_
  rw [hd, hslow, decide_eq_false (Nat.not_lt.mpr hlo), decide_eq_false (Nat.not_lt.mpr hhi)]
  exact Bool.false_ne_true

theorem Chip.aerLatch_bound {c : Chip} {k j : Nat} {x : Aer} (hx : nth Aer.init c.aers k = x) (hd : c.domOn (domAER k) = true)
    (hr : x.req = true) (ha : x.ack = false) (hj : c.ctxOn (4 + k) 0 = some j) :
    c.aerLatch k = (({ c with aers := listSet c.aers k { x with ack := true } } : Chip).takeEvent j (.addr x.d.toNat)).eventCame j := by
  subst hx
  have hon (l : List Aer) : ({ c with aers := l } : Chip).ctxOn (4 + k) 0 = some j := hj
  unfold Chip.aerLatch
  simp only [hd, hr, ha, Bool.not_true, Bool.or_self, Bool.false_eq_true, if_false]
  rw [hon]

/-- REQ at an event port that is ON is latched and acknowledged at once. -/
theorem Chip.aerHandshake_bound {c : Chip} {k j : Nat} {a : BitVec 24} (hd : c.domOn (domAER k) = true) (hk : k < c.aers.length)
    (hr : (nth Aer.init c.aers k).req = false) (ha : (nth Aer.init c.aers k).ack = false) (hj : c.ctxOn (4 + k) 0 = some j) :
    c.aerHandshake k a.toNat = ((({ c with aers := listSet c.aers k { nth Aer.init c.aers k with req := true, d := a, ack := true } } : Chip).takeEvent
      j (.addr a.toNat)).eventCame j) := by
  have hagain (x y : Aer) : listSet (listSet c.aers k x) k y = listSet c.aers k y := by
    rw [listSet_eq_set, listSet_eq_set, listSet_eq_set, List.set_set]
  refine (if_neg (by rw [hr, ha]; exact Bool.false_ne_true)).trans ?_
  rw [BitVec.ofNat_toNat, BitVec.setWidth_eq]
  refine (Chip.aerLatch_bound (c := { c with aers := listSet c.aers k { nth Aer.init c.aers k with req := true, d := a } })
    (x := { nth Aer.init c.aers k with req := true, d := a }) (nth_listSet_same _ _ _ hk) hd rfl ha hj).trans ?_
  simp only [hagain]

theorem Chip.reqLow_done {c : Chip} {k : Nat} (hd : c.domOn (domAER k) = true) (hr : (nth Aer.init c.aers k).req = true)
    (ha : (nth Aer.init c.aers k).ack = true) : c.reqLow k =
      ({ c with aers := listSet c.aers k { nth Aer.init c.aers k with req := false, ack := false } } : Chip).countWrap (pgAER + k) 0x104 1 := by
  unfold Chip.reqLow
  simp only [hr, ha, hd, Bool.not_true, Bool.or_self, Bool.false_eq_true, if_false]

/-- Settles O42: a pixel by its difference to the reference, a port by the state of its handshake. -/
theorem pixelsAndSynchronisation : Obligations.PixelsAndSynchronisation := by
  unfold Obligations.PixelsAndSynchronisation
  refine ⟨⟨?pixel, fun p r h => logCode_lt h r⟩, ?lost, ?sync, ?request, ?low⟩
  case pixel =>
    intro r p
    refine ⟨fun h => by unfold encodePixel; rw [h], fun a h => ?_⟩
    rw [encodePixel_ref h]
    exact ⟨fun hon => if_pos hon, fun hon hoff => (if_neg (by omega)).trans (if_pos (by omega)),
      fun hon hoff => (if_neg (by omega)).trans (if_neg (by omega))⟩
  case lost =>
    intro s k hh h
    exact ⟨takes_of_run (f := fun c => c.syncLost k.val .hsSync) rfl hh (Chip.syncLost_live h).1,
      takes_of_run (f := fun c => c.syncLost k.val .header) rfl hh (Chip.syncLost_live h).2⟩
  case sync =>
    intro s k rate d hh hd hlo hhi hs
    exact takes_of_run (f := fun c => c.hsSync k.val rate.toNat d) rfl hh (Chip.hsSync_taken hd hlo hhi hs)
  case request =>
    intro s k a j hh hd hlen hr ha hj
    exact takes_of_run (f := fun c => c.aerHandshake k.val a.toNat) rfl hh ⟨_, rfl, Chip.aerHandshake_bound hd (by omega) hr ha hj⟩
  case low =>
    intro s k hh hd hr ha
    exact takes_of_run (f := fun c => c.reqLow k.val) rfl hh (Chip.reqLow_done hd hr ha)

end Sys2Proof.Machine
end

section
/-! The rack links: frames in sequence, the replay buffer, LINK frames and the timers of a link. -/

namespace Sys2Proof.Machine

/-! ### A frame at the receiver (R719–R728, R739, R752) -/

theorem Chip.link_fec (c : Chip) (k corr un j : Nat) : (c.fec k corr un).link j = c.link j := by
  unfold Chip.fec
  dsimp only
  split <;> rfl

section
/-! A frame at a link that takes frames. -/
variable {c : Chip} {k corr un : Nat} {f : List Byte} (hh : c.held = false)

theorem Chip.frameIn_deaf (hp : (c.link k).phase = .off ∨ (c.link k).phase = .whistle) : c.frameIn k f corr un = c :=
  if_pos (by rcases hp with hp | hp <;> simp [hp])

include hh

theorem Chip.frameIn_bad (hs : (c.link k).phase.sends = true) (hf : frameOk f = false) :
    c.frameIn k f corr un = (((c.fec k corr un).count (lkPage k) 0x128 1).raise (lkPage k) 4).owesNak k := by
  have hoff : (c.link k).phase ≠ .off := fun h => by rw [h] at hs; cases hs
  have hwh : (c.link k).phase ≠ .whistle := fun h => by rw [h] at hs; cases hs
  unfold Chip.frameIn
  simp [hh, hoff, hwh, hf, hs]

/-- A frame with data or idle: its header first, then its slots where it is the next in sequence. -/
theorem Chip.frameIn_sends (hs : (c.link k).phase.sends = true) (hf : frameOk f = true) (ht : (FrameHdr.of f).type < 2) :
    c.frameIn k f corr un =
      if (FrameHdr.of f).type = 1 then (c.fec k corr un).takeHeader k (FrameHdr.of f)
      else if BitVec.ofNat 12 (FrameHdr.of f).seq ≠ (((c.fec k corr un).takeHeader k (FrameHdr.of f)).link k).rxSeq then
        (((c.fec k corr un).takeHeader k (FrameHdr.of f)).count (lkPage k) 0x12C 1).owesNak k
      else ((c.fec k corr un).takeHeader k (FrameHdr.of f)).acceptFrame k (FrameHdr.of f) f := by
  have hoff : (c.link k).phase ≠ .off := fun h => by rw [h] at hs; cases hs
  have hwh : (c.link k).phase ≠ .whistle := fun h => by rw [h] at hs; cases hs
  unfold Chip.frameIn
  simp only [hh, hoff, hwh, hf, hs, decide_false, Bool.or_self, Bool.not_true, Bool.false_eq_true, if_false]
  rw [if_neg (by omega), if_neg (by simp only [Bool.false_or, decide_eq_true_eq]; omega)]

/-- A LINK frame at a link that is being brought up or is UP. -/
theorem Chip.frameIn_hello {g : LinkHello} (hoff : (c.link k).phase ≠ .off) (hwh : (c.link k).phase ≠ .whistle) (hf : frameOk f = true)
    (ht : (FrameHdr.of f).type = 2) (hg : LinkHello.of f = some g) : c.frameIn k f corr un =
      if g.subtype = 0 then (c.fec k corr un).takeHello k g else if g.subtype = 1 then (c.fec k corr un).takeLeave k
      else c.fec k corr un := by
  unfold Chip.frameIn
  simp only [hh, hoff, hwh, hf, ht, hg, decide_false, Bool.or_self, Bool.not_true, Bool.false_eq_true, if_false, if_true]

end

/-! ### The replay buffer (R724–R726) -/

theorem Link.free_cons {l : Link} {a s : BitVec 12} {r : Nat} {f : List Byte} {t : List (BitVec 12 × Nat × List Byte)}
    (h : l.replay = (s, r, f) :: t) :
    ((a - s).toNat ≤ l.replay.length → (l.free a).replay = l.replay.drop (a - s).toNat)
    ∧ (l.replay.length < (a - s).toNat → l.free a = l) := by
  unfold Link.free
  simp only [h]
  refine ⟨fun hle => ?_, fun hlt => if_pos hlt⟩
  rw [if_neg (Nat.not_lt.mpr hle)]

/-- What is freed stands at the front. -/
theorem Link.free_drops (l : Link) (a : BitVec 12) : ∃ n, n ≤ l.replay.length ∧ (l.free a).replay = l.replay.drop n := by
  cases h : l.replay with
  | nil =>
    refine ⟨0, Nat.le_refl _, ?_⟩
    unfold Link.free
    simp [h]
  | cons e t =>
    obtain ⟨s, r, f⟩ := e
    obtain ⟨hin, hout⟩ := Link.free_cons (a := a) h
    rw [h] at hin hout
    by_cases hle : (a - s).toNat ≤ ((s, r, f) :: t).length
    · exact ⟨_, hle, hin hle⟩
    · exact ⟨0, Nat.zero_le _, by rw [hout (Nat.not_le.mp hle), h]; rfl⟩

theorem takes_dataFrame {s : State} {k : LinkId} {f : List Byte} {d : Chip} {corr un : Byte} (hh : s.chip.held = false) (hl : f.length = 256)
    (hd : s.chip.frameIn k.val f corr.toNat un.toNat = d) : s.takes (.dataFrame k f corr un) (fun c => c = d) :=
  takes_of_run (f := fun c => c.linkFrame k f corr un) (shaped_wf (i := .dataFrame k f corr un) (by simp [Instr.wf, hl]) _) hh hd

/-- Settles O43: a frame by its CRC, its type and its place in the sequence; the buffer by the frames that an ACK drops from its front. -/
theorem linkFramesAreTakenInSequence : Obligations.LinkFramesAreTakenInSequence := by
  unfold Obligations.LinkFramesAreTakenInSequence
  refine ⟨?frame, ?buffer⟩
  case frame =>
    rintro s k f corr un a b h hh hl hs rfl rfl rfl
    refine ⟨fun hf ht hseq => takes_dataFrame hh hl ?_, fun hf ht hseq => takes_dataFrame hh hl ?_, fun hf ht => ?_,
      fun hf => takes_dataFrame hh hl (Chip.frameIn_bad hh hs hf)⟩
    · rw [Chip.frameIn_sends hh hs hf (by omega), if_neg (by omega), if_neg (not_not_intro hseq)]
    · rw [Chip.frameIn_sends hh hs hf (by omega), if_neg (by omega), if_pos hseq]
    · refine takes_of_run (f := fun c => c.linkFrame k f corr un) (shaped_wf (i := .idleFrame k f corr un) (by simp [Instr.wf, hl]) _) hh ?_
      exact (Chip.frameIn_sends hh hs hf (by omega)).trans (if_pos ht)
  case buffer =>
    intro l a
    obtain ⟨n, hn, hdrop⟩ := Link.free_drops l a
    have hlen : (l.free a).replay.length = l.replay.length - n := by rw [hdrop, List.length_drop]
    refine ⟨by omega, ?_, fun s r f t h => Link.free_cons h⟩
    rw [hlen, hdrop, show l.replay.length - (l.replay.length - n) = n by omega]

/-! ### LINK frames and the timers of a link (R726, R727, R737–R750) -/

section
variable {c : Chip} {k : Nat}

theorem Chip.ackTimeout_waits {q : BitVec 12} {r : Nat} {a : List Byte} {f : List (BitVec 12 × Nat × List Byte)}
    (hs : (c.link k).phase.sends = true) (hr : (c.link k).replay = (q, r, a) :: f) : c.ackTimeout k = c.replayFrom k q := by
  unfold Chip.ackTimeout
  simp only [hs, hr, Bool.not_true, Bool.false_eq_true, if_false]

theorem Chip.idleSend_sends (hs : (c.link k).phase.sends = true) :
    c.idleSend k = c.putLink k ((c.link k).emit 1 0 0 0 (slotBody [])).1 := if_neg (by rw [hs]; exact Bool.false_ne_true)

theorem Chip.linkDown_up (hp : (c.link k).phase = .up) : c.linkDown k = ((c.updLink k (fun l =>
    { l with phase := .holding, resumable := true, peerSeen := false, sentSeen := false })).count (lkPage k) 0x140 1).raise (lkPage k) 0 := by
  unfold Chip.linkDown
  simp only [hp]

theorem Chip.holdExpired_holding (hp : (c.link k).phase = .holding) (hr : (c.link k).resumable = true) : c.holdExpired k =
    (c.expire k).updLink k (fun l => if l.phase = .holding then { l with phase := .whistle } else l) := if_pos (by rw [hr, hp]; rfl)

theorem Chip.holdExpired_fresh (hr : (c.link k).resumable = false) : c.holdExpired k = c := if_neg (by rw [hr]; exact Bool.false_ne_true)

theorem Chip.bringup_whistle (hh : c.held = false) (hp : (c.link k).phase = .whistle) (hd : c.domOn (domLINK k) = true)
    (he : bit ((c.page (lkPage k)).rd 0x100) 0 = true) : c.bringup k =
      (c.updLink k (fun l => { l with phase := .hello, peerSeen := false, sentSeen := false })).sendHello k := by
  have hstart : c.linkStart k = c := if_neg (by
    rw [show (nth Link.init c.links k).phase = .whistle from hp]
    exact Bool.false_ne_true)
  unfold Chip.bringup
  simp only [hstart, hh, hp, hd, he, decide_true, Bool.not_true, Bool.or_self, Bool.true_or, Bool.false_eq_true, if_false, if_true]

theorem Chip.bringupTimeout_hello (hp : (c.link k).phase = .hello) :
    c.bringupTimeout k = (c.updLink k (fun l => { l with phase := .whistle })).raise (lkPage k) 8 := by
  unfold Chip.bringupTimeout
  simp only [hp]

theorem Chip.bringupTimeout_up (hp : (c.link k).phase = .up) : c.bringupTimeout k = c := by
  unfold Chip.bringupTimeout
  simp only [hp]

end

/-! ### WHISTLE_SEND (R737) -/

theorem baseCode_link (k : LinkId) : baseCode (lkPage k.val) = codeLINK := by
  revert k
  decide

theorem maskOf_whistle (k : LinkId) : maskOf (lkPage k.val) 0x10C = 0xFF01 := by
  unfold maskOf
  rw [baseCode_link]
  rfl

theorem writeReg_link (c : Chip) (k : LinkId) (off v cls : Nat) (f : Option Nat) (h : isCountClear codeLINK off = false) :
    c.writeReg (lkPage k.val) off v cls f = c.writeLink k.val off v cls := by
  have hk : lkPage k.val - pgLINK = k.val := Nat.add_sub_cancel_left _ _
  unfold Chip.writeReg
  simp only [baseCode_link, h, hk]
  simp [codeSHEP, codeMUSTER, codePLACE, codeHEALTH, codeCOMMONS, codeGATE, codeNVS, codeLINK]

/-- SEND written beside an interval within its range whistles, and leaves the interval. -/
theorem Chip.writeLink_whistle {c : Chip} {k v cls : Nat} (hlo : 10 ≤ bits v 15 8) (h0 : v % 256 = 0) :
    c.writeLink k 0x10C (v + 1) cls = (c.updPage (lkPage k) (fun p => p.wr 0x10C v)).whistle k := by
  rw [bits_eq_div_mod] at hlo
  have hfield : bits (v + 1) 15 8 = v / 2 ^ 8 % 2 ^ (15 + 1 - 8) := by
    rw [bits_eq_div_mod]
    omega
  have hwithin : within 10 255 (bits (v + 1) 15 8) = true := by
    rw [hfield]
    simp only [within, Bool.and_eq_true, decide_eq_true_eq]
    omega
  have hbit : bit (v + 1) 0 = true := by
    rw [bit_eq_div_mod]
    simp only [beq_iff_eq]
    omega
  have hkeep : (v + 1) / 2 * 2 = v := by omega
  unfold Chip.writeLink
  simp only [hwithin, hbit, hkeep, Bool.not_true, Bool.false_eq_true, if_false, if_true]
  rfl

theorem or_one_and_mask {v : Nat} (hv : v < 2 ^ 16) (h0 : v % 256 = 0) : (v ||| 1) &&& 0xFF01 = v + 1 := by
  have hall : ∀ a b : Fin 16, (256 * (16 * a.val + b.val) ||| 1) &&& 0xFF01 = 256 * (16 * a.val + b.val) + 1 := by decide
  have hsplit : v = 256 * (16 * (v / 4096) + v / 256 % 16) := by omega
  rw [hsplit]
  exact hall ⟨v / 4096, by omega⟩ ⟨v / 256 % 16, by omega⟩

/-- Settles O44: a LINK frame by what it says, a timer by the phase of its link. -/
theorem linksComeUpAndGoDown : Obligations.LinksComeUpAndGoDown := by
  unfold Obligations.LinksComeUpAndGoDown
  refine ⟨?frames, ?timers, ?whistle, fun s q ports hh => takes_of_run (f := fun c => c.linkState q.val ports) rfl hh rfl⟩
  case frames =>
    intro s k f corr un g hh hl
    have hello {d : Chip} (hd : s.chip.frameIn k.val f corr.toNat un.toNat = d) : s.takes (.hello k f corr un) (fun c => c = d) :=
      takes_of_run (f := fun c => c.linkFrame k f corr un) (shaped_wf (i := .hello k f corr un) (by simp [Instr.wf, hl]) _) hh hd
    have leave {d : Chip} (hd : s.chip.frameIn k.val f corr.toNat un.toNat = d) : s.takes (.leave k f corr un) (fun c => c = d) :=
      takes_of_run (f := fun c => c.linkFrame k f corr un) (shaped_wf (i := .leave k f corr un) (by simp [Instr.wf, hl]) _) hh hd
    refine ⟨fun hoff hwh hf ht hg => ⟨fun h0 => hello ?_, fun h1 => leave ?_⟩, fun hp => ?_⟩
    · exact (Chip.frameIn_hello hh hoff hwh hf ht hg).trans (if_pos h0)
    · exact (Chip.frameIn_hello hh hoff hwh hf ht hg).trans ((if_neg (by omega)).trans (if_pos h1))
    · have hdeaf := Chip.frameIn_deaf (f := f) (corr := corr.toNat) (un := un.toNat) hp
      exact ⟨hello hdeaf, leave hdeaf, takes_dataFrame hh hl hdeaf⟩
  case timers =>
    rintro s k l hh rfl
    exact ⟨fun hs => takes_of_run (f := fun c => c.idleSend k.val) rfl hh (Chip.idleSend_sends hs),
      fun q r a f hs hr => takes_of_run (f := fun c => c.ackTimeout k.val) rfl hh (Chip.ackTimeout_waits hs hr),
      fun hp => takes_of_run (f := fun c => c.linkDown k.val) rfl hh (Chip.linkDown_up hp),
      fun hp hr => takes_of_run (f := fun c => c.holdExpired k.val) rfl hh (Chip.holdExpired_holding hp hr),
      fun hr => takes_of_run (f := fun c => c.holdExpired k.val) rfl hh (Chip.holdExpired_fresh hr),
      fun hp hd he => takes_of_run (f := fun c => c.bringup k.val) rfl hh (Chip.bringup_whistle hh hp hd he),
      fun hp => takes_of_run (f := fun c => c.bringupTimeout k.val) rfl hh (Chip.bringupTimeout_hello hp),
      fun hp => takes_of_run (f := fun c => c.bringupTimeout k.val) rfl hh (Chip.bringupTimeout_up hp)⟩
  case whistle =>
    rintro s o k b v hacc hv hlo hlt h0 rfl
    have hplace : regPlace (regAt (lkPage k.val) 0x10C) = .base (lkPage k.val) 0x10C :=
      regPlace_base (by have := k.isLt; unfold lkPage pgLINK; omega) (by decide) (by rw [baseCode_link]; decide)
    refine takes_of_run (f := fun c => c.regWrite o (regAt (lkPage k.val) 0x10C) ((c.page (lkPage k.val)).rd 0x10C ||| 1)) rfl
      (held_of_accepts hacc) ?_
    rw [← hv, regWrite_of_accepts hacc hplace (by rw [baseCode_link]; decide) (by decide), maskOf_whistle, or_one_and_mask hlt h0,
      writeReg_link _ _ _ _ _ _ (by rfl), Chip.writeLink_whistle hlo h0]

end Sys2Proof.Machine
end

section
/-! Messages at tiles and at the base die: events and routers, bank writes and reads. -/

namespace Sys2Proof.Machine

/-! ### Events and routers (R109–R117, R138, R161–R164) -/

section
variable {c : Chip} {k : Nat} (hr : c.routerServes k = true)
include hr

theorem Chip.takeAxon_placed {p w : Nat} {q : TileQueues} (hd : deliverClass (c.wakeTile k).mesh.env k p (Hdr.of w) = none)
    (hq : q = { ((c.wakeTile k).mesh.tile k).q with axon := ((c.wakeTile k).mesh.tile k).q.axon ++ [mkFlit w] }) :
    c.takeAxon p k w = (c.wakeTile k).putMesh (((c.wakeTile k).mesh.put k
      { (c.wakeTile k).mesh.tile k with q := raiseHigh q 0 q.axon.length }).serve k p) := by
  subst hq
  refine (if_neg (by rw [hr]; exact Bool.false_ne_true)).trans ?_
  unfold Mesh.deliver
  simp only [hd]

theorem Chip.takeAxon_discarded {p w : Nat} {x : Discard} (hd : deliverClass (c.wakeTile k).mesh.env k p (Hdr.of w) = some x) :
    c.takeAxon p k w = (c.wakeTile k).putMesh ((c.wakeTile k).mesh.put k
      { (c.wakeTile k).mesh.tile k with pRouter := routerDiscard ((c.wakeTile k).mesh.tile k).pRouter x w }) := by
  refine (if_neg (by rw [hr]; exact Bool.false_ne_true)).trans ?_
  unfold Mesh.deliver
  simp only [hd]

theorem Chip.flockIn_serving {port : Nat} (hp : port ≠ 4) (hdr mask : Nat) : c.flockIn k port hdr mask =
    (c.wakeTile k).putMesh (((c.wakeTile k).mesh.takeIn k port ((c.wakeTile k).boundAt k port) [mkFlit hdr, mkFlit mask]).runTile k) :=
  if_neg (by simp [hr, hp])

theorem Chip.droveEntry_serving (o : Nat) : c.droveEntry k o = (c.wakeTile k).putMesh ((c.wakeTile k).mesh.runEntry k o) :=
  if_neg (by rw [hr]; exact Bool.false_ne_true)

end

theorem Chip.closeHead_joined {c : Chip} {k port : Nat} {m : Mesh} (h : c.mesh.join k port = some m) : c.closeHead k port = c.putMesh m := by
  unfold Chip.closeHead
  rw [h]

/-- A close is removed only once every output of its mask stands at it. -/
theorem Mesh.join_complete {m n : Mesh} {k port : Nat} (h : m.join k port = some n) :
    ∃ (sl : Slot) (l : List _), boundSlot (m.tile k) port = some sl ∧ nth [] (m.tile k).rt.inputs (inIdx port) = .close :: l
      ∧ ∀ o, o < 6 → (nth 0 sl.closeMask port).getLsbD o = true → standsAt (m.tile k) port o = true := by
  unfold Mesh.join at h
  dsimp only at h
  split at h
  next => exact absurd h (by simp)
  next sl hsl =>
    split at h
    next l hl =>
      split at h
      next hall =>
        rw [List.all_eq_true] at hall
        exact ⟨sl, l, hsl, hl, fun o ho hm => hall o (List.mem_filter.mpr ⟨List.mem_range.mpr ho, hm⟩)⟩
      next => exact absurd h (by simp)
    next => exact absurd h (by simp)

/-- Settles O21: each message by the checks of the router that it meets, the close by the join of its mask. -/
theorem eventsAndRoutersMove : Obligations.EventsAndRoutersMove := by
  unfold Obligations.EventsAndRoutersMove
  refine ⟨?events, ⟨?flock, ?entry, ?close⟩, fun m n k port => Mesh.join_complete⟩
  case events =>
    rintro s p d t hdr k x u hh rfl hr rfl rfl
    refine ⟨fun q hd hq => ⟨fun _ => ?_, fun _ => ?_⟩, fun w hd => ?_⟩
    · exact takes_of_run (f := fun c => c.takeAxon p.val (tkey d t) hdr.toNat) rfl hh (Chip.takeAxon_placed hr hd hq)
    · exact takes_of_run (f := fun c => c.takeAxon p.val (tkey d t) hdr.toNat) rfl hh (Chip.takeAxon_placed hr hd hq)
    · exact takes_of_run (f := fun c => c.takeAxon p.val (tkey d t) hdr.toNat) rfl hh (Chip.takeAxon_discarded hr hd)
  case flock =>
    rintro s d t input hdr mask k x hh rfl hp hr rfl
    exact takes_of_run (f := fun c => c.flockIn (tkey d t) input.val hdr.toNat mask.toNat) rfl hh (Chip.flockIn_serving hr hp _ _)
  case entry =>
    rintro s d t out k x hh rfl hr rfl
    exact takes_of_run (f := fun c => c.droveEntry (tkey d t) out.val) rfl hh (Chip.droveEntry_serving hr _)
  case close =>
    intro s d t input m hh hj
    exact takes_of_run (f := fun c => c.closeHead (tkey d t) input.val) rfl hh (Chip.closeHead_joined hj)

/-! ### Bank writes (R120, R121, R138, R588, R797) -/

theorem nats_cons (w : W64) (l : List W64) : nats (w :: l) = w.toNat :: nats l := rfl

theorem length_nats (l : List W64) : (nats l).length = l.length := List.length_map ..

section
variable {c : Chip} {sender : Option Nat} {hdr w2 : Nat} {ws : List Nat} (hs : hdrShape (Hdr.of hdr) = true)
  (hb : bankShape w2 ws.length = true) (hk : (Hdr.of hdr).kind = kDATA) (ho : (Hdr.of hdr).origin = 0)
include hs hb hk ho

/-- A bank write of class INTERNAL that its tile may take, by what is awake there. -/
theorem Chip.bankWrite_tile {k : Nat} (hkey : k = tileKey (Hdr.of hdr).die (tileOf (Hdr.of hdr).x (Hdr.of hdr).y)) (ht : (Hdr.of hdr).tag < 2048)
    (hp : (Hdr.of hdr).pkg = c.pkg) (hport : tileKind (k % 256) ≠ .port) (hin : inBank (bits w2 24 0) (8 * ws.length) (tileWords k) = true)
    (hr : c.routerServes k = true) (hm : c.mayReach sender k = true) : c.bankWrite sender hdr (w2 :: ws) =
      if !c.bankOn k then c.asleepDrop else if !c.coreServes k then c.asleepDrop
      else (c.wakeTile k).tileWrite k (bits w2 24 0) ws := by
  subst hkey
  unfold Chip.bankWrite
  simp only [List.headD_cons, List.drop_succ_cons, List.drop_zero, hs, hb, hk, ho, hp, hport, hin, hr, hm, Nat.not_le.mpr ht, ne_eq,
    not_true_eq_false, decide_false, Bool.and_self, Bool.not_true, Bool.or_self, Bool.and_false, Bool.false_and, Bool.false_eq_true, if_false,
    Nat.zero_ne_one, (by decide : ¬ (0 : Nat) = 2), (by decide : ¬ (0 : Nat) = 3)]

theorem Chip.bankWrite_commons (ht : (Hdr.of hdr).tag = 2048 + pgCOMMONS) (hn : c.baseNames (Hdr.of hdr) = true)
    (hin : inBank (bits w2 24 0) (8 * ws.length) 2097152 = true) (hd : c.domOn domCOMMONS = true) :
    c.bankWrite sender hdr (w2 :: ws) = c.commonsWrite (bits w2 24 0 / 8) ws := by
  have htag : 2048 ≤ (Hdr.of hdr).tag := by omega
  have hpg : (Hdr.of hdr).tag - 2048 = pgCOMMONS := by omega
  unfold Chip.bankWrite
  simp only [List.headD_cons, List.drop_succ_cons, List.drop_zero, hs, hb, hk, ho, hn, hpg, hin, hd, htag, ne_eq,
    not_true_eq_false, decide_false, Bool.and_self, Bool.not_true, Bool.or_self, Bool.false_and, Bool.false_eq_true, if_false,
    if_true, Nat.zero_ne_one, (by decide : ¬ (0 : Nat) = 2), (by decide : ¬ (0 : Nat) = 3)]

end

/-! ### Reads (R125–R127, R904) -/

/-- A bank read of class INTERNAL at a tile that serves, sent by no pasture's tile. -/
theorem Chip.readReq_bank {c : Chip} {hdr w2 k n : Nat} (hs : readShape (Hdr.of hdr) w2 = true) (ht : (Hdr.of hdr).tag < 2048)
    (ho : (Hdr.of hdr).origin = 0) (hp : (Hdr.of hdr).pkg = c.pkg)
    (hkey : k = tileKey (Hdr.of hdr).die (tileOf (Hdr.of hdr).x (Hdr.of hdr).y)) (hn : n = bits w2 31 28 + 1) (hb : bit w2 27 = false)
    (hin : inBank (bits w2 24 0) (8 * n) (tileWords k) = true) (hd : (c.die (k / 256)).state ≠ .dead) (hr : c.routerServes k = true)
    (hf : (c.tile k).bank.fenced = false) : c.readReq none hdr w2 =
      if !c.bankOn k || !c.coreServes k then c.answerRead hdr w2 stASLEEP none
      else ((c.wakeTile k).tileRead k (bits w2 24 0 / 8) n).1.answerRead hdr w2
        (if ((c.wakeTile k).tileRead k (bits w2 24 0 / 8) n).2.2 then stUNCORRECTED else stOK)
        (some ((c.wakeTile k).tileRead k (bits w2 24 0 / 8) n).2.1) := by
  subst hkey hn
  have hallowed (t : Option Nat) : c.bankReadAllowed t hdr w2 = true := by
    unfold Chip.bankReadAllowed
    simp [ho]
  have hreach (k : Nat) : c.mayReach none k = true := rfl
  have hdead : ((c.die (tileKey (Hdr.of hdr).die (tileOf (Hdr.of hdr).x (Hdr.of hdr).y) / 256)).state == .dead) = false := by
    simpa using hd
  unfold Chip.readReq Chip.readReqTile
  simp only [Nat.not_le.mpr ht, hs, ho, hp, hb, hin, hr, hf, hallowed, hreach, hdead, ne_eq, not_true_eq_false, decide_true, Bool.not_true,
    Bool.not_false, Bool.or_self, Bool.and_false, Bool.true_and, Bool.false_eq_true, if_false, Nat.zero_ne_one, decide_false]

theorem Chip.readResp_base {c : Chip} {hdr w2 pg : Nat} {ws : List Nat} (hs : respShape (Hdr.of hdr) w2 ws = true)
    (ht : (Hdr.of hdr).tag = 2048 + pg) (hn : c.baseNames (Hdr.of hdr) = true) :
    (∀ r, c.reads.find? (fun r => r.issuer == pg && r.rtag == bits w2 63 52) = some r →
      c.readResp hdr w2 ws = ({ c with reads := c.reads.erase r } : Chip).takeAnswer r w2 ws)
    ∧ (c.reads.find? (fun r => r.issuer == pg && r.rtag == bits w2 63 52) = none →
      c.readResp hdr w2 ws = c.baseDiscard pg .misaddressed hdr) := by
  have htag : 2048 ≤ (Hdr.of hdr).tag := by omega
  have hpg : (Hdr.of hdr).tag - 2048 = pg := by omega
  unfold Chip.readResp
  simp only [htag, hpg, hs, hn, Bool.not_true, Bool.false_eq_true, if_false, if_true]
  exact ⟨fun r hr => by rw [hr], fun hr => by rw [hr]⟩

theorem wf_bankWrite {w2 : W64} {ws : List W64} (h1 : 1 ≤ ws.length) (hb : bankShape w2.toNat ws.length = true) (sender : Option PastureId)
    (hdr : W64) : (Instr.bankWrite sender hdr (w2 :: ws)).wf = true := by
  simp only [bankShape, Bool.and_eq_true, decide_eq_true_eq] at hb
  have hcount : wordField w2 55 48 = ws.length := (bits_eq_div_mod _ _ _).symm.trans hb.2
  simp [Instr.wf, dataShape, h1, hcount]

theorem exec_bankWrite {sender : Option PastureId} {hdr : W64} {words : List W64} (h : (Instr.bankWrite sender hdr words).wf = true) (s : State) :
    exec (.bankWrite sender hdr words) s = s.run (fun c => c.bankWrite (sender.map (fun p => p.val)) hdr.toNat (nats words)) := shaped_wf h _

theorem exec_readResp {hdr : W64} {words : List W64} (h : (Instr.readResp hdr words).wf = true) (s : State) :
    exec (.readResp hdr words) s = s.run (fun c => c.readResp hdr.toNat ((nats words).headD 0) ((nats words).drop 1)) := shaped_wf h _

/-- Settles O22: a write and a read by what is awake at their bank, an answer by the request that it names. -/
theorem bankAndReadMessagesAreServed : Obligations.BankAndReadMessagesAreServed := by
  unfold Obligations.BankAndReadMessagesAreServed
  refine ⟨?write, ?read, ?answer⟩
  case write =>
    rintro s sender hdr w2 ws a hh h1 h30 rfl hb hs hk ho
    have hwf := wf_bankWrite h1 hb sender hdr
    rw [← length_nats] at hb
    have hrun {d : Chip} (hd : s.chip.bankWrite (sender.map (fun p => p.val)) hdr.toNat (w2.toNat :: nats ws) = d) :
        s.takes (.bankWrite sender hdr (w2 :: ws)) (fun c => c = d) :=
      takes_of_run (exec_bankWrite hwf s) hh (by rw [nats_cons]; exact hd)
    refine ⟨fun k hkey ht hp hport hin hr hm => ?_, fun ht hn hin hd => ?_⟩
    · rw [← length_nats] at hin
      have htile := Chip.bankWrite_tile hs hb hk ho hkey ht hp hport hin hr hm
      refine ⟨fun hon hc => hrun (htile.trans ?_), fun hoff => hrun (htile.trans ?_)⟩
      · rw [hon, hc]
        rfl
      · rw [hoff]
        rfl
    · rw [← length_nats] at hin
      exact hrun (Chip.bankWrite_commons hs hb hk ho ht hn hin hd)
  case read =>
    rintro s hdr w2 k a n hh hs ht ho hp hkey rfl hn hb hin hdead hr hf
    have hread := Chip.readReq_bank hs ht ho hp hkey hn hb hin hdead hr hf
    refine ⟨fun d ws bad hon hc hd => takes_of_run (f := fun c => c.readReq none hdr.toNat w2.toNat) rfl hh (hread.trans ?_),
      fun hoff => takes_of_run (f := fun c => c.readReq none hdr.toNat w2.toNat) rfl hh (hread.trans ?_)⟩
    · rw [hon, hc, hd]
      rfl
    · rw [hoff]
      rfl
  case answer =>
    intro s hdr w2 ws pg hh hlen hs hwf ht hn
    obtain ⟨hsome, hnone⟩ := Chip.readResp_base hs ht hn
    have hrun {d : Chip} (hd : s.chip.readResp hdr.toNat w2.toNat (nats ws) = d) :
        s.takes (.readResp hdr (w2 :: ws)) (fun c => c = d) :=
      takes_of_run (exec_readResp hwf s) hh (by rw [nats_cons]; exact hd)
    exact ⟨fun r hr => hrun (hsome r hr), fun hr => hrun (hnone hr)⟩

end Sys2Proof.Machine
end

section
/-! Rounds and musters: the pacer, the phases of a tile, the lap vote, the muster, holds, ladders and window waits. -/

namespace Sys2Proof.Machine

/-! ### The pacer and the start of a round (R62, R68, R70, R554) -/

/-- The search for the next round has fuel for at least one step. -/
theorem Chip.dueFuel_succ (c : Chip) (p : Nat) : ∃ f, c.dueFuel p = f + 1 := by
  unfold Chip.dueFuel
  dsimp only
  split
  · exact ⟨_, rfl⟩
  · exact ⟨1, rfl⟩

section
variable {c : Chip} {p : Nat} (hp : (c.past p).paced = true)
include hp

theorem Chip.pacerTick_early (ha : (c.past p).anchored = true) (ht : c.now < (c.past p).tickTime) : c.pacerTick p = c := by
  obtain ⟨f, hf⟩ := c.dueFuel_succ p
  refine (if_pos hp).trans ?_
  unfold Chip.due
  rw [hf]
  unfold Chip.nextDue
  simp only [hp, ha, ht, decide_true, Bool.and_self, if_true, ite_self]

theorem Chip.pacerTick_due (hr : c.roundsAllowed = true) (hres : (c.past p).resident = true) (hrun : (c.past p).running = true)
    (hin : (c.past p).inRound = false) (hd : (c.past p).tickDue = false) (hs : (c.past p).spans = false)
    (ht : (c.past p).tickTime ≤ c.now) (hk : c.skipOk p = false) :
    c.pacerTick p = c.updPast p (fun x => { x with tickDue := true, parked := false }) := by
  obtain ⟨f, hf⟩ := c.dueFuel_succ p
  refine (if_pos hp).trans ?_
  unfold Chip.due
  rw [hf]
  unfold Chip.nextDue Chip.decideSkip
  simp only [hr, hres, hrun, hin, hd, hs, hk, Nat.not_lt.mpr ht, decide_false, Bool.and_false, Bool.not_true, Bool.not_false, Bool.or_self,
    Bool.false_eq_true, if_false, if_true]

end

section
variable {c : Chip} {p : Nat}

theorem Chip.roundStart_pass (h : c.passRuns (c.past p) = true) : c.roundStart p = c :=
  if_pos (by rw [h, Bool.or_true])

variable (hm : c.maystart p = true) (hp : c.passRuns (c.past p) = false)
include hm hp

theorem Chip.roundStart_free (hg : c.gapWork p = false) : c.roundStart p = c.startRound p := by
  unfold Chip.roundStart
  simp only [hm, hp, hg, Bool.not_true, Bool.or_self, Bool.false_eq_true, if_false]

theorem Chip.roundStart_gap (hg : c.gapWork p = true) (hw : (c.past p).gapWaited = false) :
    c.roundStart p = (c.updPast p (fun x => { x with gapWaited := true })).count pgSTACK 0x150 1 := by
  unfold Chip.roundStart
  simp only [hm, hp, hg, hw, Bool.not_true, Bool.or_self, Bool.false_eq_true, if_false, if_true]

end

/-! ### SPIKE, laps and the vote (R62, R65, R167, R168) -/

section
variable {c : Chip} {p k : Nat}

theorem Chip.spike_enters (hr : c.runsOn p = true) (hi : c.phaseAt p k = .inject) : c.spike p k =
    (c.updPast p (fun x => { x.updTile k (fun t => { t with phase := .spike }) with phase := .spike })).putMesh
      ((c.updPast p (fun x => { x.updTile k (fun t => { t with phase := .spike }) with phase := .spike })).mesh.runTile k) :=
  if_neg (by rw [hr, hi]; decide)

theorem Chip.lapStart_ready {e : PTile} {m : Mesh} (ht : (c.past p).tileAt k = some e) (hr : c.runsOn p = true) (he : e.phase = .spike)
    (hl : c.mesh.startLap k e.slot.val e.core = (m, true)) : c.lapStart p k = c.putMesh (m.runTile k) := by
  unfold Chip.lapStart
  simp only [ht]
  refine (if_neg (by rw [hr, he]; decide)).trans ?_
  simp only [hl, if_true]

theorem Chip.isRoot_of_local {x : Past} (h : x.spans = false) : c.isRoot x = true := by
  simp [Chip.isRoot, h]

theorem Chip.childrenIn_of_local {x : Past} (h : x.spans = false) (l : List (Nat × Bool)) : c.childrenIn x l = true := by
  simp [Chip.childrenIn, h]

variable (hs : (c.past p).spans = false) (hv : c.voteDecided p = true)
include hs hv

theorem Chip.lapVote_again {b : Chip}
    (hp : ((c.past p).tiles.any (fun t => tilePending (c.tile t.key) t.core p) || (c.past p).span.votes.any (fun v => v.2)) = true)
    (hb : b = c.updPast p (fun x => { x with span := { x.span with votes := [], sentVote := false, result := none } })) :
    c.lapVote p = b.putMesh ((c.past p).tiles.foldl (fun (m : Mesh) t => m.toLapMark t.key t.slot.val) b.mesh) := by
  subst hb
  unfold Chip.lapVote
  simp only [hv, hs, hp, Chip.isRoot_of_local hs, Chip.childrenIn_of_local hs, Bool.not_true, Bool.and_false, Bool.or_self, Bool.false_eq_true,
    if_false, if_true]

theorem Chip.lapVote_over {b d : Chip}
    (hp : ((c.past p).tiles.any (fun t => tilePending (c.tile t.key) t.core p) || (c.past p).span.votes.any (fun v => v.2)) = false)
    (hq : (c.past p).cores.any (fun t => !(c.tile t.key).q.axon.isEmpty) = false)
    (hb : b = c.updPast p (fun x => { x with span := { x.span with votes := [], sentVote := false, result := none } }))
    (hd : d = b.putMesh ((c.past p).tiles.foldl (fun (m : Mesh) t => m.stopRound t.key t.slot.val) b.mesh)) :
    c.lapVote p = d.updPast p (fun x =>
      { x with phase := .integrate, progressAt := d.now, tiles := x.tiles.map (fun t => { t with phase := .integrate }) }) := by
  subst hd hb
  unfold Chip.lapVote
  simp only [hv, hs, hp, hq, Chip.isRoot_of_local hs, Chip.childrenIn_of_local hs, Bool.not_true, Bool.and_false, Bool.or_self,
    Bool.false_eq_true, if_false, if_true]

end

/-- Settles O26: each event is one branch of its function; the guards that the statement gives choose it. -/
theorem roundsStartAndSpike : Obligations.RoundsStartAndSpike := by
  unfold Obligations.RoundsStartAndSpike
  refine ⟨⟨?_, ?_⟩, ?_, ?_, ?_⟩
  · rintro s p _ hh rfl hp ha hr hres hrun hin hd hs
    exact ⟨fun ht hk => takes_of_run (f := fun c => c.pacerTick p.val) rfl hh (Chip.pacerTick_due hp hr hres hrun hin hd hs ht hk),
      fun ht => takes_of_run (f := fun c => c.pacerTick p.val) rfl hh (Chip.pacerTick_early hp ha ht)⟩
  · intro s p hh hm
    have starts {post : Chip → Prop} (hp : post (s.chip.roundStart p.val)) : s.takes (.roundStart p) post :=
      takes_of_run (f := fun c => c.roundStart p.val) rfl hh hp
    exact ⟨fun hp hg => starts (Chip.roundStart_free hm hp hg), fun hp => starts (Chip.roundStart_pass hp),
      fun hp hg hw => starts (Chip.roundStart_gap hm hp hg hw)⟩
  · rintro s p d t _ hh rfl hr hi
    exact takes_of_run (f := fun c => c.spike p.val (tkey d t)) rfl hh ⟨_, rfl, Chip.spike_enters hr hi⟩
  · rintro s p d t _ e m hh rfl ht hr he hl
    exact takes_of_run (f := fun c => c.lapStart p.val (tkey d t)) rfl hh (Chip.lapStart_ready ht hr he hl)
  · rintro s p _ hh rfl hs hv
    refine ⟨fun hp => takes_of_run (f := fun c => c.lapVote p.val) rfl hh ⟨_, rfl, Chip.lapVote_again hs hv ((Bool.or_eq_true _ _).mpr hp) rfl⟩,
      fun ho hr hq => takes_of_run (f := fun c => c.lapVote p.val) rfl hh
        ⟨_, rfl, _, rfl, Chip.lapVote_over hs hv (by rw [ho, hr, Bool.or_self]) ?_ rfl rfl⟩⟩
    exact List.any_eq_false.mpr fun t ht => by simp [hq t ht]

/-! ### INTEGRATE, LEARN and the arrival at the muster (R62, R67, R207, R246) -/

section
variable {c : Chip} {p k : Nat} {e : PTile} (ht : (c.past p).tileAt k = some e)
include ht

theorem Chip.integrateTile_other (he : e.phase ≠ .integrate) : c.integrateTile p k = c := by
  unfold Chip.integrateTile
  simp only [ht]
  exact if_pos (by simp [he])

theorem Chip.learnTile_other (he : e.phase ≠ .learn) : c.learnTile p k = c := by
  unfold Chip.learnTile
  simp only [ht]
  exact if_pos (by simp [he])

variable (hr : c.runsOn p = true) (hc : e.core = true)
include hr hc

theorem Chip.integrateTile_neuron {b : Chip} (hk : tileKind e.tile.val = .neuron) (he : e.phase = .integrate) (hi : e.integrated = false)
    (hb : b = c.updPast p (fun x => { x with progressAt := c.now })) :
    c.integrateTile p k = (b.putWork k (Work.integrateNeuron { t := b.tile k } b.pkg (c.past p).round.toNat)).updPast p (fun x =>
      x.updTile k (fun t => { t with integrated := true, phase := x.afterIntegrate })) := by
  subst hb
  unfold Chip.integrateTile
  simp only [ht]
  refine (if_neg (by rw [hr, he, hi]; decide)).trans ?_
  simp only [hc, hk, Bool.not_true, Bool.false_eq_true, if_false, if_true]

theorem Chip.learnTile_neuron (hk : tileKind e.tile.val = .neuron) (he : e.phase = .learn) :
    c.learnTile p k = (c.putWork k (Work.learn { t := c.tile k } (c.past p).round.toNat)).updPast p (fun x =>
      { x.updTile k (fun t => { t with phase := .muster }) with
        progressAt := (c.putWork k (Work.learn { t := c.tile k } (c.past p).round.toNat)).now }) := by
  unfold Chip.learnTile
  simp only [ht]
  refine (if_neg (by rw [hr, he]; decide)).trans ?_
  simp only [hc, hk, decide_true, Bool.and_self, if_true]

theorem Chip.musterArrive_counted (he : e.phase = .muster) (hn : (c.tile k).nc.recount = false) :
    c.musterArrive p k = c.updPast p (fun x =>
      { x.updTile k (fun t => { t with phase := .none, busy := tileBusy (c.tile k) true }) with
        progressAt := c.now
        phase := if (x.updTile k (fun t => { t with phase := .none, busy := tileBusy (c.tile k) true })).tiles.all (fun t => t.phase == .none)
          then .muster else x.phase }) := by
  unfold Chip.musterArrive
  simp only [ht]
  refine (if_neg (by rw [hr, he]; decide)).trans ?_
  simp only [hc, hn, Bool.and_false, Bool.false_and, Bool.false_eq_true, if_false]
  rfl

end

/-- Settles O27: each event is one branch of its function, which the tile's phase chooses. -/
theorem tilesGoThroughTheirPhases : Obligations.TilesGoThroughTheirPhases := by
  unfold Obligations.TilesGoThroughTheirPhases
  rintro s p d t _ e hh rfl ht hr hc hk
  refine ⟨fun he hi => ?_, fun he => ?_, fun he hn => ?_, fun he => ?_, fun he => ?_⟩
  · exact takes_of_run (f := fun c => c.integrateTile p.val (tkey d t)) rfl hh ⟨_, rfl, Chip.integrateTile_neuron ht hr hc hk he hi rfl⟩
  · exact takes_of_run (f := fun c => c.learnTile p.val (tkey d t)) rfl hh (Chip.learnTile_neuron ht hr hc hk he)
  · exact takes_of_run (f := fun c => c.musterArrive p.val (tkey d t)) rfl hh (Chip.musterArrive_counted ht hr hc he hn)
  · exact takes_of_run (f := fun c => c.integrateTile p.val (tkey d t)) rfl hh (Chip.integrateTile_other ht he)
  · exact takes_of_run (f := fun c => c.learnTile p.val (tkey d t)) rfl hh (Chip.learnTile_other ht he)

/-! ### MUSTER_COMPLETE (R68, R441, R446) -/

theorem Chip.musterComplete_waiting {c : Chip} {p : Nat} (h : c.allArrived p = false) : c.musterComplete p = c :=
  if_pos (by rw [h]; rfl)

/-- The muster of a pasture of one package with no RUN that waits and none aborted, cut at the points where its parts meet. -/
theorem Chip.musterComplete_arrived {c a b d e : Chip} {p n : Nat} (hs : (c.past p).spans = false) (hn : n = (c.past p).round.toNat)
    (h : c.allArrived p = true)
    (ha : a = (((c.ringVectors p).updPast p Past.keepInputs).digestRound p).closeRound p)
    (hb : b = ((((a.ladderMuster p n).ladderStop p n).latchTemps ((a.ladderMuster p n).past p)).captures p).shifts p)
    (hd : d = b.countReached p) (hnext : (d.past p).nextRun = none) (habort : (d.past p).abortRun = false)
    (he : e = ((d.replaceRun p).musterHolds p false false).shelterRead p) :
    c.musterComplete p = (match e.sliceVictim p with | some (v, h) => e.sliceOut v h | none => e).due p := by
  unfold Chip.musterComplete
  simp only [h, hs, Chip.isRoot_of_local hs, Chip.childrenIn_of_local hs, Bool.not_true, Bool.or_self, Bool.false_and, Bool.false_eq_true,
    if_false, if_true, ← hn, ← ha, ← hb, ← hd, hnext, habort, Option.isSome_none, Bool.and_false, ← he] <;> rfl

/-- Settles O28: the steps of the muster one after the other. -/
theorem mustersCompleteInTheirOrder : Obligations.MustersCompleteInTheirOrder := by
  unfold Obligations.MustersCompleteInTheirOrder
  intro s p n a b d e hh hs hn
  exact ⟨fun h => takes_of_run (f := fun c => c.musterComplete p.val) rfl hh (Chip.musterComplete_waiting h),
    fun h ha hb hd hnext habort he => takes_of_run (f := fun c => c.musterComplete p.val) rfl hh
      (Chip.musterComplete_arrived hs hn h ha hb hd hnext habort he)⟩

/-! ### Holds and stalls (R180–R185, R401) -/

section
variable {c : Chip} {p : Nat}

theorem Chip.holdExpiry_over {h : HoldRec} {t : Nat} (hh : (c.past p).hold = some h) (ht : h.endsAt = some t) (hn : t ≤ c.now) :
    c.holdExpiry p = (if h.stopStreams then (c.updPast p (fun x => { x with hold := none })).stopStreams p false
      else c.updPast p (fun x => { x with hold := none })).resume p := by
  unfold Chip.holdExpiry Chip.endHold
  simp only [hh, ht, hn, if_true]

theorem Chip.holdExpiry_early {h : HoldRec} {t : Nat} (hh : (c.past p).hold = some h) (ht : h.endsAt = some t) (hn : c.now < t) :
    c.holdExpiry p = c := by
  unfold Chip.holdExpiry
  simp only [hh, ht, Nat.not_le.mpr hn, if_false]

theorem Chip.stallFreeze_early (h : c.now < (c.past p).progressAt + (c.past p).stallMicros) : c.stallFreeze p = c :=
  if_pos (by simp [h])

theorem Chip.stallFreeze_late (hr : c.runsOn p = true) (h : (c.past p).progressAt + (c.past p).stallMicros ≤ c.now) :
    c.stallFreeze p = ((c.raise pgMUSTER 3).stall p (if (c.past p).droveBad then stUNCORRECTED else stSTALLED) c.snapshot).endWaiting p
      (if (c.past p).droveBad then stUNCORRECTED else stSTALLED) :=
  if_neg (by simp [hr, h])

end

/-! ### The exchange step of a free ladder (R323, R327, R329) -/

section
variable {c : Chip} {i : Nat}

theorem Chip.freeStep_unreported (h : ∃ r ∈ (c.ladder i).replicas, r.report.toNat ≤ (c.ladder i).exchIndex.toNat) : c.freeStep i = c := by
  have hall : (c.ladder i).replicas.all (fun r => (c.ladder i).exchIndex.toNat < r.report.toNat) = false := by
    obtain ⟨r, hr, hle⟩ := h
    exact List.all_eq_false.mpr ⟨r, hr, by simp [hle]⟩
  exact if_pos (by rw [hall, Bool.not_false, Bool.or_true])

variable (hv : (c.ladder i).valid = true) (hrun : (c.ladder i).running = true) (hstop : (c.ladder i).stopping = none)
  (hroot : (c.ladder i).root = true) (hf : (c.ladder i).freeMode = true) (hl : (c.ladder i).local = false)
  (hrep : ∀ r ∈ (c.ladder i).replicas, (c.ladder i).exchIndex.toNat < r.report.toNat)
include hv hrun hstop hroot hf hl hrep

theorem Chip.freeStep_reported : c.freeStep i = match ((c.exchange i).ladder i).stopReason with
    | none => c.exchange i
    | some r => if ((c.exchange i).past (c.ladder i).pasture.val).between then (c.exchange i).stopLadder (c.ladder i).pasture.val i r
      else (c.exchange i).putLadder i { (c.exchange i).ladder i with stopping := some (BitVec.ofNat 3 r) } := by
  have hall : (c.ladder i).replicas.all (fun r => (c.ladder i).exchIndex.toNat < r.report.toNat) = true := by simpa using hrep
  exact if_neg (by rw [hv, hrun, hstop, hroot, hf, hl, hall]; decide)

theorem Chip.freeStep_goes_on (hr : ((c.exchange i).ladder i).stopReason = none) : c.freeStep i = c.exchange i := by
  rw [Chip.freeStep_reported hv hrun hstop hroot hf hl hrep]
  simp only [hr]

theorem Chip.freeStep_stops {r : Nat} (hr : ((c.exchange i).ladder i).stopReason = some r)
    (hb : ((c.exchange i).past (c.ladder i).pasture.val).between = true) :
    c.freeStep i = (c.exchange i).stopLadder (c.ladder i).pasture.val i r := by
  rw [Chip.freeStep_reported hv hrun hstop hroot hf hl hrep]
  simp only [hr, hb, if_true]

end

/-! ### Chains that wait on their window (R287, R299, R300) -/

section
variable {c : Chip} {k : Nat} {ch : Chain} (hch : (c.tile k).tc.chain = some ch)
include hch

theorem Chip.windowMet_early
    (h : (c.tile k).pCore.rd (0x118 + 4 * (Work.waitWindow { t := c.tile k } ch).1) < (Work.waitWindow { t := c.tile k } ch).2) :
    c.windowMet k = c := by
  unfold Chip.windowMet
  simp only [hch]
  exact if_pos h

theorem Chip.windowMet_pass
    (h : (Work.waitWindow { t := c.tile k } ch).2 ≤ (c.tile k).pCore.rd (0x118 + 4 * (Work.waitWindow { t := c.tile k } ch).1))
    (hr : ch.round = none) :
    c.windowMet k = (c.chainOn k { ch with waiting := false }).serveOrders k {} ((c.tile k).q.command.length + 1) := by
  unfold Chip.windowMet
  simp only [hch]
  refine (if_neg (Nat.not_lt.mpr h)).trans ?_
  simp only [hr]

theorem Chip.windowTimeout_round (hr : ch.round ≠ none) : c.windowTimeout k = c := by
  unfold Chip.windowTimeout
  simp only [hch]
  exact if_pos (by rw [Option.isSome_iff_ne_none.mpr hr, Bool.or_true])

theorem Chip.windowTimeout_pass {e : EntryId}
    (h : (c.tile k).pCore.rd (0x118 + 4 * (Work.waitWindow { t := c.tile k } ch).1) < (Work.waitWindow { t := c.tile k } ch).2)
    (hr : ch.round = none) (he : ch.entry = some e) :
    c.windowTimeout k = (c.updTile k (fun u => { u with tc := { chain := none } })).passPart e.val (worse ch.status.toNat stSTALLED) 0 false := by
  unfold Chip.windowTimeout
  simp only [hch]
  refine (if_neg (by simp [h, hr])).trans ?_
  simp only [he]

end

/-! ### The second search of a placement (R853) -/

section
variable {c : Chip} {e : Nat} (hs : (c.entry e).state = .running) (hp : (c.entry e).parts = 1)
include hs hp

theorem Chip.placementRetry_load (ho : (c.entry e).opcode = 0x41) :
    c.placementRetry e = (c.testsEnded.updEntry e (fun x => { x with parts := 2 })).doLoad e := by
  refine (if_neg (by rw [hs, hp]; decide)).trans ?_
  exact if_pos ho

theorem Chip.placementRetry_pageIn (ho : (c.entry e).opcode = 0x43) :
    c.placementRetry e = (c.testsEnded.updEntry e (fun x => { x with parts := 2 })).doPageIn e := by
  refine (if_neg (by rw [hs, hp]; decide)).trans ?_
  refine (if_neg (by rw [ho]; decide)).trans (if_pos ho)

end

/-- Settles O29: a wait ends in one branch of its function, and while it has not ended another leaves the package as it is. -/
theorem holdsLaddersAndWaitsEnd : Obligations.HoldsLaddersAndWaitsEnd := by
  unfold Obligations.HoldsLaddersAndWaitsEnd
  refine ⟨⟨?_, ?_⟩, ?_, ?_, ?_⟩
  · intro s p h t hh hold hend
    exact ⟨fun hn => takes_of_run (f := fun c => c.holdExpiry p.val) rfl hh ⟨_, rfl, Chip.holdExpiry_over hold hend hn⟩,
      fun hn => takes_of_run (f := fun c => c.holdExpiry p.val) rfl hh (Chip.holdExpiry_early hold hend hn)⟩
  · intro s p hh hr
    exact ⟨fun hn => takes_of_run (f := fun c => c.stallFreeze p.val) rfl hh ⟨_, rfl, Chip.stallFreeze_late hr hn⟩,
      fun hn => takes_of_run (f := fun c => c.stallFreeze p.val) rfl hh (Chip.stallFreeze_early hn)⟩
  · rintro s i _ hh rfl hv hrun hstop hroot hf hl
    have steps {post : Chip → Prop} (hp : post (s.chip.freeStep i.val)) : s.takes (.freeLadderStep i) post :=
      takes_of_run (f := fun c => c.freeStep i.val) rfl hh hp
    exact ⟨fun hrep => ⟨fun hr => steps (Chip.freeStep_goes_on hv hrun hstop hroot hf hl hrep hr),
        fun r hr hb => steps (Chip.freeStep_stops hv hrun hstop hroot hf hl hrep hr hb)⟩,
      fun h => steps (Chip.freeStep_unreported h)⟩
  · rintro s d t _ ch _ hh rfl hch rfl
    refine ⟨fun h hr => ?_, fun h => ?_, fun e h hr he => ?_, fun hr => ?_⟩
    · exact takes_of_run (f := fun c => c.windowMet (tkey d t)) rfl hh (Chip.windowMet_pass hch h hr)
    · exact takes_of_run (f := fun c => c.windowMet (tkey d t)) rfl hh (Chip.windowMet_early hch h)
    · exact takes_of_run (f := fun c => c.windowTimeout (tkey d t)) rfl hh (Chip.windowTimeout_pass hch h hr he)
    · exact takes_of_run (f := fun c => c.windowTimeout (tkey d t)) rfl hh (Chip.windowTimeout_round hch hr)
  · intro s e hh hs hp
    exact ⟨fun ho => takes_of_run (f := fun c => c.placementRetry e.val) rfl hh (Chip.placementRetry_load hs hp ho),
      fun ho => takes_of_run (f := fun c => c.placementRetry e.val) rfl hh (Chip.placementRetry_pageIn hs hp ho)⟩

end Sys2Proof.Machine
end
